-- ==== Sys2Proof/Word.lean ====
section
/-! DEFINITION. Word.lean: the words of the part (bytes, four-bit line codes) and its fixed-length tables. -/

namespace Sys2Proof

/-- One byte on a control link or on the fibre, one sample of a channel. -/
abbrev Byte := BitVec 8

/-- A four-bit line signalling code (chapter 2). -/
abbrev Code := BitVec 4

/-- The entries `f i a₀, f (i+1) a₁, …` of a list. -/
def mapFrom {α β : Type} (f : Nat → α → β) : Nat → List α → List β
  | _, [] => []
  | i, a :: rest => f i a :: mapFrom f (i + 1) rest

theorem mapFrom_length {α β : Type} (f : Nat → α → β) (i : Nat) (l : List α) :
    (mapFrom f i l).length = l.length := by
  induction l generalizing i with
  | nil => rfl
  | cons a rest ih => simp [mapFrom, ih]

/-- Entry `i` of a table, and `d` where the table has no entry `i`. -/
def Table.at {α : Type} {n : Nat} (t : Vector α n) (d : α) (i : Nat) : α :=
  t.toArray.toList.getD i d

/-- The table with entry `i` replaced; unchanged where the table has no entry `i`. -/
def Table.put {α : Type} {n : Nat} (t : Vector α n) (i : Nat) (v : α) : Vector α n :=
  ⟨⟨t.toArray.toList.set i v⟩, by simp⟩

/-- Every entry changed by its number and its value. -/
def Table.mapIdx {α β : Type} {n : Nat} (t : Vector α n) (f : Nat → α → β) : Vector β n :=
  ⟨⟨mapFrom f 0 t.toArray.toList⟩, by simp [mapFrom_length]⟩

/-- A table whose every entry is `v`. -/
def Table.fill {α : Type} (n : Nat) (v : α) : Vector α n :=
  ⟨⟨List.replicate n v⟩, by simp⟩

/-- The first `n` items of a list as a table, filled up with `d`. -/
def Table.ofList {α : Type} (n : Nat) (d : α) (l : List α) : Vector α n :=
  ⟨⟨(l ++ List.replicate n d).take n⟩, by simp⟩

/-- The entries of a table in order. -/
def Table.toList {α : Type} {n : Nat} (t : Vector α n) : List α := t.toArray.toList

end Sys2Proof
end

