-- ==== Sys2Proof/Syntax.lean ====
section
/-! DEFINITION. Syntax.lean: the commands of the part, one constructor for each row of spec/opcode_table.json.
The table gives no operands; each constructor's operands are what the row's rules read from outside the part.
Parameters of controller commands are the numbers as sent (R190), so that a value out of range can be written. -/

namespace Sys2Proof

/-- A control link (R168): A is the switch role, B the transport role. -/
inductive Link where
  | a | b
deriving DecidableEq, Repr

/-- A side of a copper span (chapter 3): the line side towards the distant exchange, the switch side. -/
inductive Side where
  | line | switch
deriving DecidableEq, Repr

/-- How a cold reset began (R178). -/
inductive ResetCause where
  | powerOn | pin
deriving DecidableEq, Repr

/-- A four-bit code whose last part a copper frame carries (R44). `parts` says which frames carried it, each as
a number of frames back from this one (0 is this frame), 0 to 15. The manual does not give the layout of the
signalling capacity (R42), so the frame says it (log entry 11). -/
structure CodeArrival where
  channel : Nat
  code : Code
  parts : List Nat
deriving DecidableEq, Repr

/-- An event of a superframe boundary that has a row of its own in the table. -/
inductive BoundaryEvent where
  | abortReturn (context : Nat)
  | switch (context : Nat)
  | revert
  | walkSlot
  | mapApply
  | drainComplete (span : Nat)
  | slowTick
  | windowEnd
  | windowExpiry (group : Nat)
  | stepTimeout (context : Nat)
  | bridgeTimeout (context : Nat)
  | poolTimeout
  | abortingEnd (context : Nat)
  | lingerExpiry (slot : Nat)
  | linkSilent (link : Link)
  | admission
deriving DecidableEq, Repr

/-- The commands. Each docstring names the row's rule. -/
inductive Instr where
  /-- R55, R178: a cold reset, from its start to its end, with the strap values sampled at its end. -/
  | coldReset (cause : ResetCause) (address site watchdog : Nat)
  /-- R1, R58: one frame of the site frame clock. -/
  | frame
  /-- R1: the superframe boundary; `before` lists boundary events taken before its supervision (R35, R52). -/
  | superframeBoundary (before : List BoundaryEvent)
  /-- R159, R162, R163. -/
  | slowTick
  /-- R44: the receiver of one side of a span examines the frame it has just received. -/
  | copperFrameReceive (side : Side) (span : Nat) (pattern : BitVec 7) (spare : Bool)
      (samples : List Byte) (codes : List CodeArrival)
  /-- R92. -/
  | measurementComplete (context : Nat)
  /-- R48. -/
  | markerLoss (span : Nat)
  /-- R61: one local frame of the incoming stream: the 4304 bits that stand from bit `position` of `bytes` on, each byte
  most significant bit first. The local frame need not begin at a byte of the peer's frame. -/
  | carriageFrameReceive (position : Nat) (bytes : List Byte)
  /-- R90. -/
  | attemptStart (context : Nat)
  /-- R122. -/
  | contextCompletion (context : Nat)
  /-- R140. -/
  | ageOut (slot : Nat)
  /-- R146. -/
  | peerSilent
  /-- R66. -/
  | windowEnd
  /-- R52. -/
  | drainComplete (span : Nat)
  /-- R113. -/
  | admission
  /-- R97. -/
  | walkSlot
  /-- R121. -/
  | switch (context : Nat)
  /-- R124. -/
  | abortReturn (context : Nat)
  /-- R125. -/
  | abortingEnd (context : Nat)
  /-- R136. -/
  | lingerExpiry (slot : Nat)
  /-- R119. -/
  | bridgeTimeout (context : Nat)
  /-- R123. -/
  | stepTimeout (context : Nat)
  /-- R93. -/
  | markerTimeout (context : Nat)
  /-- R101. -/
  | poolTimeout
  /-- R100. -/
  | poolService
  /-- R176. -/
  | linkSilent (link : Link)
  /-- R157. -/
  | revert
  /-- R159. -/
  | windowExpiry (group : Nat)
  /-- R169: the receive line has been held low for 1 ms. -/
  | lineReset (link : Link)
  /-- R170: the awaited character, with the measured rate in bit/s, the eight data bits sampled at that rate in line order,
  and its stop bit. -/
  | syncCharacter (link : Link) (rate : Nat) (bits : List Bool) (stop : Bool)
  /-- R169: a character with a low stop bit, the line having gone high again within 1 ms. -/
  | characterError (link : Link)
  /-- R171: more than 20 ms between two bytes of a frame. -/
  | interByteTimeout (link : Link)
  /-- R172: the complete frame in the frame buffer is judged. -/
  | commandFrame (link : Link)
  /-- R174: the last stop bit of the response has been sent. -/
  | responseSent (link : Link)
  /-- R12. -/
  | equip (link : Link) (circuit group cls : Nat)
  /-- R13. -/
  | unequip (link : Link) (circuit : Nat)
  /-- R14. -/
  | setClass (link : Link) (circuit cls : Nat)
  /-- R15. -/
  | setGroup (link : Link) (circuit group : Nat)
  /-- R16. -/
  | hold (link : Link) (circuit : Nat)
  /-- R16. -/
  | unhold (link : Link) (circuit : Nat)
  /-- R17. -/
  | freeze (link : Link) (target : Nat)
  /-- R17. -/
  | thaw (link : Link) (target : Nat)
  /-- R18. -/
  | setMigration (link : Link) (target policy autoReturn recoveryHold lockoutLimit lockoutWindow : Nat)
  /-- R20. -/
  | readCircuits (link : Link) (first count : Nat)
  /-- R21. -/
  | readGroup (link : Link) (group : Nat)
  /-- R37, R38. -/
  | setSignalling (link : Link) (target idle seize answer block seizeIndex clearIndex conditioning quiet : Nat)
  /-- R49. -/
  | insertSpan (link : Link) (span mode : Nat)
  /-- R50. -/
  | bypassSpan (link : Link) (span mode : Nat)
  /-- R51. -/
  | cancelSpan (link : Link) (span : Nat)
  /-- R56. -/
  | readSpan (link : Link) (span : Nat)
  /-- R67. -/
  | setFibreThreshold (link : Link) (threshold : Nat)
  /-- R76. -/
  | stageAssign (link : Link) (slot circuit : Nat)
  /-- R76. -/
  | stageRelease (link : Link) (slot : Nat)
  /-- R77. -/
  | discardStaging (link : Link)
  /-- R78. -/
  | applyMap (link : Link)
  /-- R80. -/
  | mapApply
  /-- R84. -/
  | readMap (link : Link) (first count : Nat)
  /-- R85. -/
  | readStaging (link : Link)
  /-- R107. -/
  | setAlignment (link : Link) (n spreadLimit walkInterval poolTimeout : Nat)
  /-- R109. -/
  | request (link : Link) (circuit direction : Nat)
  /-- R110. -/
  | cancelRequest (link : Link) (circuit : Nat)
  /-- R128. -/
  | abortContext (link : Link) (context : Nat)
  /-- R129. -/
  | resetMigration (link : Link)
  /-- R130. -/
  | setAdmission (link : Link) (requireA requireB bridgeTimeout stepTimeout : Nat)
  /-- R131. -/
  | readQueue (link : Link) (first count : Nat)
  /-- R131. -/
  | readContext (link : Link) (context : Nat)
  /-- R148. -/
  | setPeerSilentTime (link : Link) (time : Nat)
  /-- R149. -/
  | readPeer (link : Link) (part : Nat)
  /-- R154. -/
  | setFaultPolicy (link : Link) (kind scope enabled actions : Nat)
  /-- R155. -/
  | clearFault (link : Link) (kind scope : Nat)
  /-- R156. -/
  | readFaults (link : Link)
  /-- R161. -/
  | clearLockout (link : Link) (target : Nat)
  /-- R166. -/
  | commit (link : Link) (circuit : Nat)
  /-- R167. -/
  | uncommit (link : Link) (circuit : Nat)
  /-- R177. -/
  | keepalive (link : Link)
  /-- R180. -/
  | readStatus (link : Link)
  /-- R179. -/
  | readCounters (link : Link) (clear : Nat)
  /-- R185. -/
  | takeNotices (link : Link) (count : Nat)
  /-- R186: the eighteen levels in class-code order, and the threshold. -/
  | setNoticeLevels (link : Link) (levels : List Nat) (threshold : Nat)
  /-- R169, R171: a character with a high stop bit; its eight data bits in line order, the least significant first. -/
  | character (link : Link) (bits : List Bool)
  /-- R55: loss of power. -/
  | powerOff
deriving DecidableEq, Repr

end Sys2Proof
end

