-- ==== Sys2Proof/WellFormed.lean ====
section
/-! DEFINITION. WellFormed.lean: which commands can stand at the part's inputs: every number within the width that
section 12.3 gives its parameter, every event's index within its table. -/

namespace Sys2Proof

/-- A one-byte parameter (section 12.3). -/
def fitsByte (n : Nat) : Bool := n < 256

/-- A two-byte parameter (section 12.3): circuit numbers, slots, times in superframes. -/
def fitsWord (n : Nat) : Bool := n < 65536

/-- Channels are 1 to 30 and parts lie within the superframe (R44). -/
def CodeArrival.wellFormed (x : CodeArrival) : Bool :=
  decide (1 ≤ x.channel) && decide (x.channel ≤ 30) && x.parts.all (fun k => decide (k < 16)) && !x.parts.isEmpty

def BoundaryEvent.wellFormed : BoundaryEvent → Bool
  | .abortReturn c => c < 8
  | .switch c => c < 8
  | .revert => true
  | .walkSlot => true
  | .mapApply => true
  | .drainComplete s => s < 16
  | .slowTick => true
  | .windowEnd => true
  | .windowExpiry g => g < 16
  | .stepTimeout c => c < 8
  | .bridgeTimeout c => c < 8
  | .poolTimeout => true
  | .abortingEnd c => c < 8
  | .lingerExpiry s => s < 512
  | .linkSilent _ => true
  | .admission => true

def Instr.wellFormed : Instr → Bool
  | .coldReset _ address site watchdog => decide (address < 64) && decide (site < 8) && decide (watchdog < 4)
  | .frame => true
  | .superframeBoundary before => before.all BoundaryEvent.wellFormed
  | .slowTick => true
  | .copperFrameReceive _ span _ _ samples codes =>
      decide (span < 16) && decide (samples.length = 30) && codes.all CodeArrival.wellFormed
  | .measurementComplete c => c < 8
  | .markerLoss s => s < 16
  | .carriageFrameReceive position bytes =>
      decide (position < 8) && decide (bytes.length = if position = 0 then 538 else 539)
  | .attemptStart c => c < 8
  | .contextCompletion c => c < 8
  | .ageOut s => s < 512
  | .peerSilent => true
  | .windowEnd => true
  | .drainComplete s => s < 16
  | .admission => true
  | .walkSlot => true
  | .switch c => c < 8
  | .abortReturn c => c < 8
  | .abortingEnd c => c < 8
  | .lingerExpiry s => s < 512
  | .bridgeTimeout c => c < 8
  | .stepTimeout c => c < 8
  | .markerTimeout c => c < 8
  | .poolTimeout => true
  | .poolService => true
  | .linkSilent _ => true
  | .revert => true
  | .windowExpiry g => g < 16
  | .lineReset _ => true
  | .syncCharacter _ _ bits _ => bits.length = 8
  | .characterError _ => true
  | .interByteTimeout _ => true
  | .commandFrame _ => true
  | .responseSent _ => true
  | .equip _ circuit group cls => fitsWord circuit && fitsByte group && fitsByte cls
  | .unequip _ circuit => fitsWord circuit
  | .setClass _ circuit cls => fitsWord circuit && fitsByte cls
  | .setGroup _ circuit group => fitsWord circuit && fitsByte group
  | .hold _ circuit => fitsWord circuit
  | .unhold _ circuit => fitsWord circuit
  | .freeze _ target => fitsByte target
  | .thaw _ target => fitsByte target
  | .setMigration _ target policy autoReturn recoveryHold lockoutLimit lockoutWindow =>
      [target, policy, autoReturn, recoveryHold, lockoutLimit, lockoutWindow].all fitsByte
  | .readCircuits _ first count => fitsWord first && fitsByte count
  | .readGroup _ group => fitsByte group
  | .setSignalling _ target idle seize answer block seizeIndex clearIndex conditioning quiet =>
      [target, idle, seize, answer, block, seizeIndex, clearIndex, conditioning, quiet].all fitsByte
  | .insertSpan _ span mode => fitsByte span && fitsByte mode
  | .bypassSpan _ span mode => fitsByte span && fitsByte mode
  | .cancelSpan _ span => fitsByte span
  | .readSpan _ span => fitsByte span
  | .setFibreThreshold _ threshold => fitsWord threshold
  | .stageAssign _ slot circuit => fitsWord slot && fitsWord circuit
  | .stageRelease _ slot => fitsWord slot
  | .discardStaging _ => true
  | .applyMap _ => true
  | .mapApply => true
  | .readMap _ first count => fitsWord first && fitsByte count
  | .readStaging _ => true
  | .setAlignment _ n spreadLimit walkInterval timeout =>
      fitsByte n && fitsByte spreadLimit && fitsWord walkInterval && fitsWord timeout
  | .request _ circuit direction => fitsWord circuit && fitsByte direction
  | .cancelRequest _ circuit => fitsWord circuit
  | .abortContext _ context => fitsByte context
  | .resetMigration _ => true
  | .setAdmission _ requireA requireB bridge step =>
      fitsByte requireA && fitsByte requireB && fitsWord bridge && fitsWord step
  | .readQueue _ first count => fitsByte first && fitsByte count
  | .readContext _ context => fitsByte context
  | .setPeerSilentTime _ time => fitsWord time
  | .readPeer _ part => fitsByte part
  | .setFaultPolicy _ kind scope enabled actions => [kind, scope, enabled, actions].all fitsByte
  | .clearFault _ kind scope => fitsByte kind && fitsByte scope
  | .readFaults _ => true
  | .clearLockout _ target => fitsByte target
  | .commit _ circuit => fitsWord circuit
  | .uncommit _ circuit => fitsWord circuit
  | .keepalive _ => true
  | .readStatus _ => true
  | .readCounters _ clear => fitsByte clear
  | .takeNotices _ count => fitsByte count
  | .setNoticeLevels _ levels threshold =>
      decide (levels.length = 18) && levels.all fitsByte && fitsByte threshold
  | .character _ bits => bits.length = 8
  | .powerOff => true

end Sys2Proof
end

