-- ==== Sys2Proof/Decode.lean ====
section
/-! DEFINITION. Decode.lean: the part is a block with no instruction words. No row of spec/opcode_table.json gives
bits, so no word spells a command. (Command frames of the control links are parsed in Machine/Links.lean.) -/

namespace Sys2Proof

/-- The command that a word spells by the table's bits: none, since no row gives bits. -/
def decodeTableWord (_nbits _w : Nat) : Option Instr := none

end Sys2Proof
end

