-- ==== Sys2Proof/Config.lean ====
section
/-! DEFINITION. Config.lean: the fixed numbers of the part. Each is a number the manual states, but
for the free value `codeFrame`. -/

namespace Sys2Proof.Config

/-- The alignment word of a carriage frame (R58, section 12.1). -/
abbrev alignmentWord : Nat := 0x3AC5

/-- The framing pattern 1010110 of a copper frame, first bit sent first (R42). -/
abbrev framingPattern : BitVec 7 := 0b1010110

/-- The code VACANT (R22, R59). -/
abbrev vacant : Code := 15

/-- FREE VALUE (log entry 11): in which of the sixteen frames of a superframe a copper frame's signalling capacity carries
the code of a channel (R42 gives one code for each channel once per superframe, and no layout). -/
opaque codeFrame : Nat → Fin 16

/-- Superframes of one FIBRE_ERR window (R66). -/
abbrev windowLength : Nat := 500

/-- Superframes a linger stands (R136). -/
abbrev lingerSpan : Nat := 32

/-- The age in frames at which a peer view entry is removed (R140). -/
abbrev ageLimit : Nat := 96

/-- The marker-loss count at which MARKER_LOSS is declared (R48). -/
abbrev markerLossLimit : Nat := 1024

/-- The largest word age (R65). -/
abbrev wordAgeLimit : Nat := 1000

/-- The number of delay cells (R99). -/
abbrev cells : Nat := 4096

/-- Capacities of the lists: migration queue (R108), staging list (R75), notice queue (R184),
advertisement table (R134), peer view (R139). -/
abbrev queueLimit : Nat := 64
abbrev stagingLimit : Nat := 32
abbrev noticeLimit : Nat := 32
abbrev advertLimit : Nat := 16
abbrev viewLimit : Nat := 16

/-- The watchdog timeout that a strap value selects, in superframes; none when it is off (R176). -/
def watchdogTimeout : Nat → Option Nat
  | 1 => some 1000
  | 2 => some 4000
  | 3 => some 16000
  | _ => none

end Sys2Proof.Config
end

