-- ==== Sys2Proof/Machine/State.lean ====
section
/-! DEFINITION. Machine/State.lean: every piece of state the manual gives the part, as plain data, and its value
after a cold reset. INVENTORY.md lists each field with the rule that names it. -/

namespace Sys2Proof.Machine

/-! ### Enumerations, each in the order of the rule that defines it (R190 counts positions in that order) -/

/-- R2. -/
inductive TrafficClass where
  | voice | data
deriving DecidableEq, Repr

/-- R2, R5. -/
inductive MigState where
  | copper | migrating | fibreProtected | fibreOnly | reverted | locked
deriving DecidableEq, Repr

/-- A receive path: the receive selection and the residual path of R2. -/
inductive Path where
  | copper | fibre
deriving DecidableEq, Repr

/-- R2: transmit bridging. -/
inductive Bridging where
  | copper | both | fibre
deriving DecidableEq, Repr

/-- R2, R29. -/
inductive CallState where
  | idle | outSeized | inSeized | outAnswered | inAnswered | clearing | glare | blocked
deriving DecidableEq, Repr

/-- The four signalling meanings of a group's codes (R8, R29). -/
inductive Meaning where
  | idle | seize | answer | block
deriving DecidableEq, Repr

/-- R8. -/
inductive Policy where
  | hitless | drain | forced
deriving DecidableEq, Repr

/-- R40. -/
inductive SpanState where
  | bypass | drainIn | inserted | drainOut
deriving DecidableEq, Repr

/-- R108. -/
inductive Direction where
  | toFibre | toCopper
deriving DecidableEq, Repr

/-- R108. -/
inductive Origin where
  | linkB | auto
deriving DecidableEq, Repr

/-- R115. -/
inductive CtxState where
  | free | request | measure | allocate | walkUp | ready | switched | aborting
deriving DecidableEq, Repr

/-- R115. -/
inductive Role where
  | initiator | responder
deriving DecidableEq, Repr

/-- R132: the eight steps of the exchange word. -/
inductive Step where
  | reqFibre | reqCopper | bridged | ready | switched | abort | reject | digest
deriving DecidableEq, Repr

/-- R150, in the order of the kind table. -/
inductive FaultKind where
  | fibreLos | fibreErr | peerSilent | mapMismatch | siteClash | copperLos | switchLos | markerLoss
deriving DecidableEq, Repr

/-- Section 12.2: the causes. -/
inductive Cause where
  | cancelled | reset | peerAbort | peerReject | glare | stepTimeout | bridgeTimeout | alignUnstable
  | markerTimeout | poolTimeout | fibreFault | peerSilent | copperFault | deferredData | queueFull
  | noContext | unmapped | notReady | held | state | halted | faultOf (kind : FaultKind)
  | slotAssigned | circuitMapped | slotFree | circuitInUse
deriving DecidableEq, Repr

/-- R168. -/
inductive RxState where
  | unsynced | syncWait | hunt | inFrame | answering
deriving DecidableEq, Repr

/-- R175. -/
inductive Status where
  | ok | clamped | badCommand | badParam | notPermitted | busy | full | notFound | refusedState | stillPresent
deriving DecidableEq, Repr

/-- Section 12.4: the eighteen classes, in class-code order. -/
inductive NoticeClass where
  | seize | clear | unrecognised | admitted | completed | aborted | deferred | reverted | autoQueued
  | lockout | faultSet | faultClear | spanState | mapApplied | walkDone | linkSilent | linkAlive | poolWait
deriving DecidableEq, Repr

/-- R183: what a notice concerns. A fault's scope is 0x40 for the port, else the span (section 12.3). -/
inductive Subject where
  | circuit (n : Nat) | span (n : Nat) | group (n : Nat) | context (n : Nat) | fault (kind : FaultKind) (scope : Nat)
deriving DecidableEq, Repr

/-! ### Circuits, groups, spans -/

/-- R24: a persistence filter. -/
structure Filter where
  accepted : Code
  candidate : Option Code
  count : Nat
deriving DecidableEq, Repr

/-- R2, with the two delay lines of R86 and R87. A path's added delay is the length of its line. A line's cells
hold the samples in flight, oldest first; an absent sample is a position not yet filled (R87). -/
structure Circuit where
  equipped : Bool
  group : Nat
  cls : TrafficClass
  held : Bool
  state : MigState
  context : Option Nat
  receive : Path
  transmit : Bridging
  slot : Option Nat
  forward : Filter
  backward : Filter
  call : CallState
  conditioned : Bool
  residual : Nat
  residualPath : Path
  cellsHeld : Nat
  lastAbort : Option Cause
  copperLine : List (Option Byte)
  fibreLine : List (Option Byte)
  copperLast : Byte
  fibreLast : Byte
deriving DecidableEq, Repr

/-- What one receiver of a span last recovered for one channel (R42, R43, R44): the sample, the most recent
completed code, and the code that stood when the side last went into loss. -/
structure Recovered where
  sample : Byte
  code : Code
  held : Code
deriving DecidableEq, Repr

/-- One channel at the Span Interface. -/
structure Channel where
  line : Recovered
  switch : Recovered
deriving DecidableEq, Repr

/-- R8. -/
structure Group where
  idle : Code
  seize : Code
  answer : Code
  block : Code
  seizeIndex : Nat
  clearIndex : Nat
  conditioning : Code
  quiet : Byte
  policy : Policy
  autoReturn : Bool
  recoveryHold : Nat
  lockoutLimit : Nat
  lockoutWindow : Nat
  frozen : Bool
  lockedOut : Bool
  revertCount : Nat
  windowTimer : Option Nat
  seizureCount : Nat
  busyCount : Nat
deriving DecidableEq, Repr

/-- R40, R44: one receiver's framing status (`los` is COPPER_LOS or SWITCH_LOS), its run count, and which of its
latest 16 frames had a correct pattern, the latest first. -/
structure Framing where
  los : Bool
  run : Nat
  good : List Bool
deriving DecidableEq, Repr

/-- R40. `sending` is whether the transmitters send in the present local frame: they start with the frame after the span
becomes cut and stop after the one in which it becomes relay-through (R53). `marking` is whether marker insertion has started:
it starts with the first frame after the span becomes cut and stops when the span becomes relay-through (R46; log entry 34).
`tested` is whether the marker test of the present local frame has been made, so that the frame counts once (R48; log entry 19). -/
structure Span where
  state : SpanState
  relay : Bool
  sending : Bool
  marking : Bool
  line : Framing
  switch : Framing
  history : List Bool
  tc : Option Nat
  tested : Bool
  lossCount : Nat
  markerLoss : Bool
deriving DecidableEq, Repr

/-- R42, R43: a copper frame as sent; `codes` holds, for each of the 30 channels, the code that this frame carries, if it
is the channel's frame of the superframe (log entry 11). -/
structure CopperFrame where
  pattern : BitVec 7
  spare : Bool
  samples : List Byte
  codes : List (Option Code)
deriving DecidableEq, Repr

/-! ### Fibre port and carriage map -/

/-- R132: an exchange word, but for its check. -/
structure ExchangeWord where
  step : Nat
  site : Nat
  slot : Nat
  argument : Byte
deriving DecidableEq, Repr

/-- R58: a carriage frame as sent, but for its alignment word and frame check, which `CarriageFrame.bytes` adds. -/
structure CarriageFrame where
  sequence : Nat
  word : ExchangeWord
  codes : List Code
  samples : List Byte
deriving DecidableEq, Repr

/-- R57, with the held frame position and the bits that arrived in the local frame before (R61), as the 538 bytes they make
from its first bit (none after a cold reset, log entry 12), and, per slot, the sample delivered last (R62, R63) and the code that
stood when FIBRE_LOS was last declared (R164). -/
structure FibrePort where
  los : Bool
  run : Nat
  trial : Option Nat
  position : Option Nat
  stream : List Byte
  codes : Vector Code 512
  heldCodes : Vector Code 512
  samples : Vector Byte 512
  tf : Option Nat
  wordAge : Option Nat
  windowPosition : Nat
  windowCount : Nat
  lossMark : Bool
  err : Bool
  threshold : Nat
  erroredFrames : Nat
  wordChecks : Nat
deriving DecidableEq, Repr

/-- R75. -/
inductive Edit where
  | assign (slot circuit : Nat)
  | release (slot : Nat)
deriving DecidableEq, Repr

/-- R73, R75, R78, R82, R83. `applyAnswer` is whether the held-back response of a pending apply is still to be
sent (R174). -/
structure CarriageMap where
  entries : Vector (Option Nat) 512
  staging : List Edit
  applyPending : Bool
  applyAnswer : Bool
  ownDigest : BitVec 16
  peerDigest : Option (BitVec 16)
  mismatch : Bool
  run : Nat
deriving DecidableEq, Repr

/-! ### Alignment, queue, contexts -/

/-- R97, R107. -/
structure Alignment where
  n : Nat
  spreadLimit : Nat
  walkInterval : Nat
  poolTimeout : Nat
  walkCounter : Nat
deriving DecidableEq, Repr

/-- R99, R100, R101. -/
structure Pool where
  free : Nat
  waitList : List Nat
  waitCount : Nat
deriving DecidableEq, Repr

/-- R108. -/
structure Entry where
  circuit : Nat
  direction : Direction
  origin : Origin
  idleOnly : Bool
  stamp : Nat
deriving DecidableEq, Repr

/-- R130. -/
structure Admission where
  requireA : Bool
  requireB : Bool
  bridgeTimeout : Nat
  stepTimeout : Nat
deriving DecidableEq, Repr

/-- R115 and section 6.3. A served or parked entry is kept whole as an `Entry` (its circuit is the context's).
The last Booleans are marks that the rules imply: `running` an attempt is running (R90), `begun` attempt 1 has begun
(R119), `stepRunning` (R123), `switchDue` (R121), `idleOnly` an idle-only switch (R95), `returnPending` (R124),
`deferred` (R126), `resetPending` (R129). -/
structure Ctx where
  state : CtxState
  role : Role
  direction : Direction
  circuit : Nat
  slot : Nat
  origin : MigState
  policy : Policy
  attempt : Nat
  attemptN : Nat
  attemptLimit : Nat
  start : Nat
  elapsed : Nat
  n : Nat
  sum : Int
  min : Option Int
  max : Option Int
  lead : Option Int
  cells : Nat
  switched : Bool
  stepTimer : Nat
  bridgeTimer : Nat
  abortCount : Nat
  lastStep : Option (Step × Byte)
  peerEntry : Bool
  served : Option Entry
  parked : Option Entry
  abortCause : Option Cause
  peerCause : Option Byte
  running : Bool
  begun : Bool
  stepRunning : Bool
  switchDue : Bool
  idleOnly : Bool
  returnPending : Bool
  deferred : Bool
  resetPending : Bool
deriving DecidableEq, Repr

/-! ### Peer exchange, faults -/

/-- R134: the two kinds of advertisement. `serial` orders the events that set linger counts (R135). -/
inductive AdvertKind where
  | context (number : Nat)
  | linger (count serial : Nat)
deriving DecidableEq, Repr

/-- R134. -/
structure Advert where
  kind : AdvertKind
  slot : Nat
  step : Step
  argument : Byte
deriving DecidableEq, Repr

/-- R139. -/
structure ViewEntry where
  slot : Nat
  step : Step
  argument : Byte
  site : Nat
  seen : Nat
  age : Nat
deriving DecidableEq, Repr

/-- R134, R137, R139, R146, R147. `position` names the next thing the rotation sends: an entry of the list, or
none for the DIGEST word. -/
structure PeerExchange where
  adverts : List Advert
  position : Option Nat
  serial : Nat
  view : List ViewEntry
  viewFull : Nat
  silentTime : Nat
  silent : Bool
  clash : Bool
  clashRun : Nat
deriving DecidableEq, Repr

/-- R150: a set of actions. -/
structure Actions where
  revert : Bool
  condition : Bool
  abort : Bool
  halt : Bool
deriving DecidableEq, Repr

/-- R150; `declared` is the status the detecting block has handed over (R151). -/
structure FaultRecord where
  enabled : Bool
  actions : Actions
  live : Bool
  latched : Bool
  declared : Bool
deriving DecidableEq, Repr

/-- R150, R157, R162. The 53 records stand in the order of R156: the five port kinds, then sixteen spans of each
span kind. -/
structure FaultUnit where
  records : Vector FaultRecord 53
  revertPending : Option FaultKind
  health : Nat
deriving DecidableEq, Repr

/-! ### Control links and notices -/

/-- R183. -/
structure Notice where
  sequence : Nat
  cls : NoticeClass
  level : Nat
  stamp : Nat
  subject : Option Subject
  cause : Option Cause
  value : Option (BitVec 16)
deriving DecidableEq, Repr

/-- R174: a response as built, but for its length and check, which `Response.bytes` adds. -/
structure Response where
  status : Status
  address : Nat
  faultFlag : Bool
  noticeFlag : Bool
  overflowFlag : Bool
  data : List Byte
deriving DecidableEq, Repr

/-- R168 and R181, R184, R187: one control link with its notice account. `alive` is the watchdog state. `handed` is
a command handed to its block and not yet taken (R173). `response` is the response built and not yet fully sent. -/
structure LinkRec where
  rx : RxState
  rate : Option Nat
  buffer : List Byte
  alive : Bool
  watchdog : Option Nat
  crcErrors : Nat
  framingErrors : Nat
  handed : Option Instr
  response : Option Response
  levels : Vector Nat 18
  threshold : Nat
  notices : List Notice
  nextSequence : Nat
  overflow : Bool
  attention : Bool
deriving DecidableEq, Repr

/-- R58, R42, R43: the frames last sent; absent while nothing is sent. -/
structure Outputs where
  carriage : Option CarriageFrame
  line : Vector (Option CopperFrame) 16
  switch : Vector (Option CopperFrame) 16
deriving DecidableEq, Repr

/-! ### The state -/

/-- The whole part. `pending`, `powered`, `boundaryDue` and `owed` are the model's (INVENTORY.md). -/
structure State where
  pending : List Instr
  powered : Bool
  resetCause : ResetCause
  ownAddress : Nat
  ownSite : Nat
  watchdogStrap : Nat
  frameCount : Nat
  stamp : Nat
  boundaryDue : Bool
  owed : List BoundaryEvent
  circuits : Vector Circuit 480
  channels : Vector Channel 480
  groups : Vector Group 16
  spans : Vector Span 16
  port : FibrePort
  map : CarriageMap
  align : Alignment
  pool : Pool
  queue : List Entry
  admitting : Admission
  contexts : Vector Ctx 8
  peer : PeerExchange
  faults : FaultUnit
  linkA : LinkRec
  linkB : LinkRec
  out : Outputs
deriving DecidableEq, Repr

/-- The part has no machine fault: every step has a next state (INVENTORY.md, Faults). No constructor, so no step
ends in one. -/
inductive Fault where
deriving DecidableEq, Repr

/-- The only refusal is that of an arm without a meaning; safe (the step then has no effect to prove). -/
inductive Refusal where
  /-- Raised by `exec`'s arm of a command that has no meaning yet, with the row's mnemonic. Safe. -/
  | notModelled (mnemonic : String)
deriving DecidableEq, Repr

/-! ### Cold reset -/

/-- R2. -/
def Filter.reset : Filter := { accepted := 9, candidate := none, count := 0 }

/-- R2; the last delivered samples are a DESIGN CHOICE (log entry 10). -/
def Circuit.reset : Circuit where
  equipped := false
  group := 0
  cls := .voice
  held := false
  state := .copper
  context := none
  receive := .copper
  transmit := .copper
  slot := none
  forward := Filter.reset
  backward := Filter.reset
  call := .idle
  conditioned := false
  residual := 0
  residualPath := .copper
  cellsHeld := 0
  lastAbort := none
  copperLine := []
  fibreLine := []
  copperLast := 0xFF
  fibreLast := 0xFF

/-- DESIGN CHOICE (log entry 10): the manual gives no reset value for recovered samples and codes. -/
def Recovered.reset : Recovered := { sample := 0xFF, code := 9, held := 9 }

def Channel.reset : Channel := { line := Recovered.reset, switch := Recovered.reset }

/-- R8. -/
def Group.reset : Group where
  idle := 9
  seize := 1
  answer := 5
  block := 13
  seizeIndex := 4
  clearIndex := 5
  conditioning := 13
  quiet := 0xD5
  policy := .hitless
  autoReturn := false
  recoveryHold := 20
  lockoutLimit := 3
  lockoutWindow := 240
  frozen := false
  lockedOut := false
  revertCount := 0
  windowTimer := none
  seizureCount := 0
  busyCount := 0

/-- R40, R45. -/
def Framing.reset : Framing := { los := false, run := 0, good := [] }

/-- R40, R55. -/
def Span.reset : Span where
  state := .bypass
  relay := false
  sending := false
  marking := false
  line := Framing.reset
  switch := Framing.reset
  history := []
  tc := none
  tested := false
  lossCount := 0
  markerLoss := false

/-- R57; held codes DESIGN CHOICE (log entry 10). -/
def FibrePort.reset : FibrePort where
  los := true
  run := 0
  trial := none
  position := none
  stream := []
  codes := Table.fill 512 15
  heldCodes := Table.fill 512 15
  samples := Table.fill 512 0xFF
  tf := none
  wordAge := none
  windowPosition := 0
  windowCount := 0
  lossMark := false
  err := false
  threshold := 80
  erroredFrames := 0
  wordChecks := 0

/-- R107, R97. -/
def Alignment.reset : Alignment :=
  { n := 8, spreadLimit := 3, walkInterval := 8, poolTimeout := 1000, walkCounter := 0 }

/-- R99. -/
def Pool.reset : Pool := { free := 4096, waitList := [], waitCount := 0 }

/-- R130. -/
def Admission.reset : Admission :=
  { requireA := true, requireB := true, bridgeTimeout := 250, stepTimeout := 500 }

/-- R115: FREE, every optional field absent, every count 0; the other fields DESIGN CHOICE (log entry 9). -/
def Ctx.reset : Ctx where
  state := .free
  role := .initiator
  direction := .toFibre
  circuit := 0
  slot := 0
  origin := .copper
  policy := .hitless
  attempt := 1
  attemptN := 0
  attemptLimit := 0
  start := 0
  elapsed := 0
  n := 0
  sum := 0
  min := none
  max := none
  lead := none
  cells := 0
  switched := false
  stepTimer := 0
  bridgeTimer := 0
  abortCount := 0
  lastStep := none
  peerEntry := false
  served := none
  parked := none
  abortCause := none
  peerCause := none
  running := false
  begun := false
  stepRunning := false
  switchDue := false
  idleOnly := false
  returnPending := false
  deferred := false
  resetPending := false

/-- R134, R137, R139, R146, R147, R148. -/
def PeerExchange.reset : PeerExchange where
  adverts := []
  position := none
  serial := 0
  view := []
  viewFull := 0
  silentTime := 50
  silent := true
  clash := false
  clashRun := 0

/-- R150: the actions after a cold reset. -/
def FaultKind.resetActions : FaultKind → Actions
  | .fibreLos => ⟨true, true, true, true⟩
  | .fibreErr => ⟨false, false, false, true⟩
  | .peerSilent => ⟨false, false, true, true⟩
  | .mapMismatch => ⟨false, false, false, true⟩
  | .siteClash => ⟨false, false, false, true⟩
  | .copperLos => ⟨false, true, true, true⟩
  | .switchLos => ⟨false, false, false, true⟩
  | .markerLoss => ⟨false, false, false, true⟩

/-- R150: FIBRE_LOS and PEER_SILENT start live, because their blocks start with the condition declared. -/
def FaultRecord.reset (k : FaultKind) : FaultRecord where
  enabled := true
  actions := k.resetActions
  live := k == .fibreLos || k == .peerSilent
  latched := false
  declared := k == .fibreLos || k == .peerSilent

def FaultUnit.reset : FaultUnit where
  records := Table.ofList 53 (FaultRecord.reset .markerLoss)
    ([FaultRecord.reset .fibreLos, FaultRecord.reset .fibreErr, FaultRecord.reset .peerSilent,
      FaultRecord.reset .mapMismatch, FaultRecord.reset .siteClash]
      ++ List.replicate 16 (FaultRecord.reset .copperLos)
      ++ List.replicate 16 (FaultRecord.reset .switchLos)
      ++ List.replicate 16 (FaultRecord.reset .markerLoss))
  revertPending := none
  health := 0

/-- R181: the levels after a cold reset, in class-code order. -/
def LinkRec.resetLevels : List Nat :=
  [0, 0, 1, 2, 2, 2, 2, 3, 2, 3, 3, 2, 2, 1, 1, 2, 2, 1]

/-- R168, R176, R181, R184, R187. -/
def LinkRec.reset : LinkRec where
  rx := .unsynced
  rate := none
  buffer := []
  alive := false
  watchdog := none
  crcErrors := 0
  framingErrors := 0
  handed := none
  response := none
  levels := Table.ofList 18 0 LinkRec.resetLevels
  threshold := 3
  notices := []
  nextSequence := 0
  overflow := false
  attention := false

/-- R55: nothing is sent until the first frame after the reset. -/
def Outputs.reset : Outputs :=
  { carriage := none, line := Table.fill 16 none, switch := Table.fill 16 none }

/-- R73, R75, R82, R83: the empty map. 0xD6DA is the CRC-16 of the 64-byte mask of the empty map; the test
`test_empty_map_digest` recomputes it with R189's CRC. -/
def CarriageMap.reset : CarriageMap where
  entries := Table.fill 512 none
  staging := []
  applyPending := false
  applyAnswer := false
  ownDigest := 0xD6DA
  peerDigest := none
  mismatch := false
  run := 0

/-- The part right after a cold reset (R3, R8, R40, R55, R57, R60, R73, R86, R99, R108, R115, R134, R150, R168,
R181, R184). The straps and the reset cause are a DESIGN CHOICE here (log entry 8): COLD_RESET samples them. -/
def State.reset : State where
  pending := []
  powered := true
  resetCause := .powerOn
  ownAddress := 0
  ownSite := 0
  watchdogStrap := 0
  frameCount := 0
  stamp := 0
  boundaryDue := false
  owed := []
  circuits := Table.fill 480 Circuit.reset
  channels := Table.fill 480 Channel.reset
  groups := Table.fill 16 Group.reset
  spans := Table.fill 16 Span.reset
  port := FibrePort.reset
  map := CarriageMap.reset
  align := Alignment.reset
  pool := Pool.reset
  queue := []
  admitting := Admission.reset
  contexts := Table.fill 8 Ctx.reset
  peer := PeerExchange.reset
  faults := FaultUnit.reset
  linkA := LinkRec.reset
  linkB := LinkRec.reset
  out := Outputs.reset

end Sys2Proof.Machine
end

