-- ==== Sys2Proof/Machine/Checks.lean ====
section
/-! DEFINITION. Machine/Checks.lean: the two checks of R189 and the byte orders of R190. -/

namespace Sys2Proof.Machine

/-- One bit taken into a CRC-16 register (R189: generator x¹⁶ + x¹² + x⁵ + 1, most significant bit first). -/
def crc16Bit (r : BitVec 16) : BitVec 16 :=
  if r.msb then (r <<< 1) ^^^ 0x1021#16 else r <<< 1

/-- One byte taken into the top of a CRC-16 register (R189). -/
def crc16Byte (r : BitVec 16) (b : Byte) : BitVec 16 :=
  crc16Bit (crc16Bit (crc16Bit (crc16Bit (crc16Bit (crc16Bit (crc16Bit (crc16Bit
    (r ^^^ (b.setWidth 16 <<< 8)))))))))

/-- The CRC-16 of a list of bytes, the register starting at all ones (R189). -/
def crc16 (bytes : List Byte) : BitVec 16 := bytes.foldl crc16Byte 0xFFFF

/-- One bit of the CRC-8 (R189: generator x⁸ + x² + x + 1). -/
def crc8Bit (r : BitVec 8) : BitVec 8 :=
  if r.msb then (r <<< 1) ^^^ 0x07#8 else r <<< 1

def crc8Byte (r : BitVec 8) (b : Byte) : BitVec 8 :=
  crc8Bit (crc8Bit (crc8Bit (crc8Bit (crc8Bit (crc8Bit (crc8Bit (crc8Bit (r ^^^ b))))))))

/-- The CRC-8 of a list of bytes, the register starting at 0 (R189). -/
def crc8 (bytes : List Byte) : BitVec 8 := bytes.foldl crc8Byte 0

/-- A number in one byte. -/
def u8 (n : Nat) : List Byte := [BitVec.ofNat 8 n]

/-- A number in two bytes, high byte first (R190). -/
def u16 (n : Nat) : List Byte := [BitVec.ofNat 8 (n / 256), BitVec.ofNat 8 n]

/-- A number in three bytes, high byte first (R190). -/
def u24 (n : Nat) : List Byte := BitVec.ofNat 8 (n / 65536) :: u16 n

/-- A number in four bytes, high byte first (R190). -/
def u32 (n : Nat) : List Byte := u16 (n / 65536) ++ u16 n

/-- A signed number in two bytes, two's complement (R190). -/
def s16 (i : Int) : List Byte := u16 (BitVec.ofInt 16 i).toNat

/-- yes and on 1, no and off 0 (section 12.3). -/
def flag (b : Bool) : List Byte := u8 (if b then 1 else 0)

/-- An optional field: its presence byte, then its bytes, as 0 when it is absent (R190). -/
def optField {α : Type} (width : Nat) (f : α → List Byte) : Option α → List Byte
  | some a => 1 :: f a
  | none => 0 :: List.replicate width 0

/-- The number that two bytes hold, high byte first (R190). -/
def word16 (high low : Byte) : Nat := 256 * high.toNat + low.toNat

/-- Byte `i` of a frame. -/
def byteAt (bytes : List Byte) (i : Nat) : Byte := bytes.getD i 0

/-- A list of bytes with its CRC-16 appended, high byte first (R189). -/
def withCrc16 (bytes : List Byte) : List Byte := bytes ++ u16 (crc16 bytes).toNat

end Sys2Proof.Machine
end

