-- ==== Sys2Proof/Machine/Operands.lean ====
section
/-! DEFINITION. Machine/Operands.lean: the operand forms of commands and the byte forms of what the part sends:
enumeration codes (section 12.3, R190), the exchange word, the carriage frame, the response frame, the notice record. -/

namespace Sys2Proof.Machine

/-! ### Enumerations read from parameters; none is out of range (R10, R190) -/

/-- yes and on 1, no and off 0. -/
def readBool : Nat → Option Bool
  | 0 => some false
  | 1 => some true
  | _ => none

def readClass : Nat → Option TrafficClass
  | 0 => some .voice
  | 1 => some .data
  | _ => none

def readDirection : Nat → Option Direction
  | 0 => some .toFibre
  | 1 => some .toCopper
  | _ => none

def readPolicy : Nat → Option Policy
  | 0 => some .hitless
  | 1 => some .drain
  | 2 => some .forced
  | _ => none

/-- Span mode: true is IMMEDIATE (code 1), false DRAIN (code 0). -/
def readImmediate : Nat → Option Bool := readBool

/-- Fault kinds are numbered in the order of the kind table (section 12.2). -/
def readKind : Nat → Option FaultKind
  | 0 => some .fibreLos
  | 1 => some .fibreErr
  | 2 => some .peerSilent
  | 3 => some .mapMismatch
  | 4 => some .siteClash
  | 5 => some .copperLos
  | 6 => some .switchLos
  | 7 => some .markerLoss
  | _ => none

/-- A group target: one group, or 0xFF for all sixteen (section 12.3). -/
def readTarget (n : Nat) : Option (List Nat) :=
  if n < 16 then some [n] else if n = 0xFF then some (List.range 16) else none

/-- A four-bit code that a group may hold: 0 to 14 (R37, R190). -/
def readGroupCode (n : Nat) : Option Code := if n < 15 then some (BitVec.ofNat 4 n) else none

/-- A numeric setting clamped to its range (R175). -/
def clamp (low high n : Nat) : Nat := max low (min high n)

/-- CLAMPED where a value was clamped, else OK (R175). -/
def clampStatus (given written : List Nat) : Status := if given = written then .ok else .clamped

/-! ### Codes of enumerations in what the part sends -/

def TrafficClass.code : TrafficClass → Nat
  | .voice => 0 | .data => 1

def MigState.code : MigState → Nat
  | .copper => 0 | .migrating => 1 | .fibreProtected => 2 | .fibreOnly => 3 | .reverted => 4 | .locked => 5

def Path.code : Path → Nat
  | .copper => 0 | .fibre => 1

def Bridging.code : Bridging → Nat
  | .copper => 0 | .both => 1 | .fibre => 2

def CallState.code : CallState → Nat
  | .idle => 0 | .outSeized => 1 | .inSeized => 2 | .outAnswered => 3 | .inAnswered => 4
  | .clearing => 5 | .glare => 6 | .blocked => 7

def Policy.code : Policy → Nat
  | .hitless => 0 | .drain => 1 | .forced => 2

def SpanState.code : SpanState → Nat
  | .bypass => 0 | .drainIn => 1 | .inserted => 2 | .drainOut => 3

def Direction.code : Direction → Nat
  | .toFibre => 0 | .toCopper => 1

def Origin.code : Origin → Nat
  | .linkB => 0 | .auto => 1

def CtxState.code : CtxState → Nat
  | .free => 0 | .request => 1 | .measure => 2 | .allocate => 3 | .walkUp => 4 | .ready => 5
  | .switched => 6 | .aborting => 7

def Role.code : Role → Nat
  | .initiator => 0 | .responder => 1

/-- Section 12.2. -/
def Step.code : Step → Nat
  | .reqFibre => 1 | .reqCopper => 2 | .bridged => 3 | .ready => 4 | .switched => 5 | .abort => 6
  | .reject => 7 | .digest => 8

/-- Step codes 0 and 9 to 15 are no step (section 12.2). -/
def readStep : Nat → Option Step
  | 1 => some .reqFibre
  | 2 => some .reqCopper
  | 3 => some .bridged
  | 4 => some .ready
  | 5 => some .switched
  | 6 => some .abort
  | 7 => some .reject
  | 8 => some .digest
  | _ => none

/-- Section 12.2. -/
def FaultKind.code : FaultKind → Nat
  | .fibreLos => 0 | .fibreErr => 1 | .peerSilent => 2 | .mapMismatch => 3 | .siteClash => 4
  | .copperLos => 5 | .switchLos => 6 | .markerLoss => 7

/-- Section 12.2, the cause codes. -/
def Cause.code : Cause → Nat
  | .cancelled => 0x01 | .reset => 0x02 | .peerAbort => 0x03 | .peerReject => 0x04 | .glare => 0x05
  | .stepTimeout => 0x06 | .bridgeTimeout => 0x07 | .alignUnstable => 0x08 | .markerTimeout => 0x09
  | .poolTimeout => 0x0A | .fibreFault => 0x0B | .peerSilent => 0x0C | .copperFault => 0x0D
  | .deferredData => 0x0E | .queueFull => 0x0F | .noContext => 0x10 | .unmapped => 0x20
  | .notReady => 0x21 | .held => 0x22 | .state => 0x23 | .halted => 0x24
  | .faultOf k => 0x30 + k.code
  | .slotAssigned => 0x40 | .circuitMapped => 0x41 | .slotFree => 0x42 | .circuitInUse => 0x43

/-- A cause code as an exchange-word argument. -/
def Cause.byte (c : Cause) : Byte := BitVec.ofNat 8 c.code

def RxState.code : RxState → Nat
  | .unsynced => 0 | .syncWait => 1 | .hunt => 2 | .inFrame => 3 | .answering => 4

/-- Section 12.3, the status codes. -/
def Status.code : Status → Nat
  | .ok => 0x00 | .clamped => 0x01 | .badCommand => 0x10 | .badParam => 0x11 | .notPermitted => 0x12
  | .busy => 0x20 | .full => 0x21 | .notFound => 0x22 | .refusedState => 0x23 | .stillPresent => 0x24

/-- Section 12.4, the class codes. -/
def NoticeClass.code : NoticeClass → Nat
  | .seize => 0 | .clear => 1 | .unrecognised => 2 | .admitted => 3 | .completed => 4 | .aborted => 5
  | .deferred => 6 | .reverted => 7 | .autoQueued => 8 | .lockout => 9 | .faultSet => 10
  | .faultClear => 11 | .spanState => 12 | .mapApplied => 13 | .walkDone => 14 | .linkSilent => 15
  | .linkAlive => 16 | .poolWait => 17

/-- R178. -/
def resetCauseCode : ResetCause → Nat
  | .powerOn => 0 | .pin => 1

/-- R177: 0 for link A and 1 for link B. -/
def linkCode : Link → Nat
  | .a => 0 | .b => 1

/-! ### The bits of a character (R169, R190) -/

/-- The eight bits of a byte, least significant first: the order of a control link's line. -/
def lineBits (b : Byte) : List Bool := (List.range 8).map (fun i => b.getLsbD i)

/-- The byte that data bits in line order make; a missing bit is 0. -/
def byteOfLine (bits : List Bool) : Byte :=
  BitVec.ofNat 8 ((bits.take 8).foldr (fun b n => b.toNat + 2 * n) 0)

/-! ### The exchange word (section 12.2) -/

/-- The four bytes of an exchange word with its CRC-8 (section 12.2, R189). -/
def ExchangeWord.bytes (w : ExchangeWord) : List Byte :=
  let head : List Byte :=
    [BitVec.ofNat 8 (16 * w.step + 2 * w.site + w.slot / 256), BitVec.ofNat 8 w.slot, w.argument]
  head ++ [crc8 head]

/-- The fields of an exchange word from its bytes 0 to 2. -/
def ExchangeWord.read (b0 b1 b2 : Byte) : ExchangeWord where
  step := b0.toNat / 16
  site := b0.toNat / 2 % 8
  slot := 256 * (b0.toNat % 2) + b1.toNat
  argument := b2

/-- A DIGEST word carries the digest's high byte in the low 8 bits of its slot field and the low byte as its
argument (R132). -/
def digestWord (site : Nat) (digest : BitVec 16) : ExchangeWord where
  step := Step.digest.code
  site := site
  slot := digest.toNat / 256
  argument := digest.setWidth 8

/-- The digest that a DIGEST word carries; the slot field's top bit is not examined (R132). -/
def ExchangeWord.digest (w : ExchangeWord) : BitVec 16 :=
  BitVec.ofNat 16 (256 * (w.slot % 256) + w.argument.toNat)

/-! ### The carriage frame (section 12.1) -/

/-- Two codes in one byte, the lower-numbered slot in bits 7 to 4. -/
def packCodes : List Code → List Byte
  | c :: d :: rest => (c.setWidth 8 <<< 4 ||| d.setWidth 8) :: packCodes rest
  | [c] => [c.setWidth 8 <<< 4]
  | [] => []

/-- The two codes of each byte of a signalling block. -/
def unpackCodes : List Byte → List Code
  | b :: rest => (b >>> 4).setWidth 4 :: b.setWidth 4 :: unpackCodes rest
  | [] => []

/-- The 538 bytes of a carriage frame as sent (R58, section 12.1). -/
def CarriageFrame.bytes (f : CarriageFrame) : List Byte :=
  withCrc16 (u16 Config.alignmentWord ++ u16 (f.sequence % 4096) ++ f.word.bytes ++ packCodes f.codes ++ f.samples)

/-- The alignment word of a received frame is correct (R61). -/
def alignmentGood (bytes : List Byte) : Bool :=
  word16 (byteAt bytes 0) (byteAt bytes 1) == Config.alignmentWord

/-- The frame check of a received frame is good (R63, R189). -/
def frameCheckGood (bytes : List Byte) : Bool :=
  decide (bytes.length = 538)
    && (crc16 (bytes.take 536)).toNat == word16 (byteAt bytes 536) (byteAt bytes 537)

/-- The 12-bit sequence of a received frame; the four spare bits are not examined (R63). -/
def frameSequence (bytes : List Byte) : Nat := word16 (byteAt bytes 2) (byteAt bytes 3) % 4096

/-- The bits of a carriage frame as they go on the fibre, each byte most significant bit first (R190). -/
def CarriageFrame.bits (f : CarriageFrame) : List Bool := f.bytes.flatMap (fun b => (lineBits b).reverse)

/-! ### The response frame (section 12.3) -/

/-- The flags byte: bit 0 FAULT, bit 1 NOTICE, bit 2 OVERFLOW (section 12.3). -/
def Response.flags (r : Response) : Nat :=
  (if r.faultFlag then 1 else 0) + (if r.noticeFlag then 2 else 0) + (if r.overflowFlag then 4 else 0)

/-- The bytes of a response frame as sent (section 12.3). -/
def Response.bytes (r : Response) : List Byte :=
  withCrc16 (u8 r.status.code ++ u8 r.address ++ u8 r.flags ++ u8 r.data.length ++ r.data)

/-- The bits of a response as they go on the line: each byte a character of a low start bit, its bits least significant
first, and a high stop bit (R169, R190). -/
def Response.bits (r : Response) : List Bool := r.bytes.flatMap (fun b => false :: lineBits b ++ [true])

/-! ### The notice record (section 12.4) -/

def Subject.kindCode : Subject → Nat
  | .circuit _ => 1 | .span _ => 2 | .group _ => 3 | .context _ => 5 | .fault _ _ => 6

def Subject.number : Subject → Nat
  | .circuit n => n | .span n => n | .group n => n | .context n => n
  | .fault k scope => 256 * k.code + scope

/-- The 12 bytes of a notice as returned (section 12.4). -/
def Notice.bytes (n : Notice) : List Byte :=
  u8 n.sequence ++ u8 n.cls.code ++ u8 n.level ++ u16 n.stamp
    ++ u8 ((if n.subject.isSome then 1 else 0) + (if n.cause.isSome then 2 else 0)
        + (if n.value.isSome then 4 else 0))
    ++ (match n.subject with | some x => u8 x.kindCode ++ u16 x.number | none => [0, 0, 0])
    ++ (match n.cause with | some c => u8 c.code | none => [0])
    ++ (match n.value with | some v => u16 v.toNat | none => [0, 0])

/-! ### Fault records in one byte (section 12.3) -/

def Actions.code (a : Actions) : Nat :=
  (if a.revert then 1 else 0) + (if a.condition then 2 else 0) + (if a.abort then 4 else 0)
    + (if a.halt then 8 else 0)

/-- The actions byte; a set bit above bit 3 is no set of actions (section 12.3). -/
def readActions (n : Nat) : Option Actions :=
  if n < 16 then some ⟨n % 2 = 1, n / 2 % 2 = 1, n / 4 % 2 = 1, n / 8 % 2 = 1⟩ else none

/-- A fault record in the packed form of READ_FAULTS (section 12.3). -/
def FaultRecord.packed (r : FaultRecord) : Nat :=
  r.actions.code + (if r.enabled then 16 else 0) + (if r.live then 32 else 0)
    + (if r.latched then 64 else 0) + (if r.declared then 128 else 0)

end Sys2Proof.Machine
end

