-- ==== Sys2Proof/Machine/Ops.lean ====
section
/-! DEFINITION. Machine/Ops.lean: the named operations over the part's tables, the notices (chapter 11), the cell
pool's returns (R99), the advertisement table (R134 to R137) and the events owed at a boundary. -/

namespace Sys2Proof.Machine

/-! ### Reading and writing the tables -/

/-- The span a circuit lies on (R2). -/
def spanOf (circuit : Nat) : Nat := circuit / 30

/-- The circuits of a span, in ascending order (R2). -/
def circuitsOf (span : Nat) : List Nat := (List.range 30).map (fun c => 30 * span + c)

def State.circuit (s : State) (n : Nat) : Circuit := Table.at s.circuits Circuit.reset n

def State.setCircuit (s : State) (n : Nat) (c : Circuit) : State :=
  { s with circuits := Table.put s.circuits n c }

def State.modCircuit (s : State) (n : Nat) (f : Circuit → Circuit) : State := s.setCircuit n (f (s.circuit n))

def State.channel (s : State) (n : Nat) : Channel := Table.at s.channels Channel.reset n

def State.group (s : State) (n : Nat) : Group := Table.at s.groups Group.reset n

def State.setGroup (s : State) (n : Nat) (g : Group) : State := { s with groups := Table.put s.groups n g }

def State.modGroup (s : State) (n : Nat) (f : Group → Group) : State := s.setGroup n (f (s.group n))

/-- The group of a circuit. -/
def State.groupOf (s : State) (circuit : Nat) : Group := s.group (s.circuit circuit).group

def State.span (s : State) (n : Nat) : Span := Table.at s.spans Span.reset n

def State.setSpan (s : State) (n : Nat) (x : Span) : State := { s with spans := Table.put s.spans n x }

def State.modSpan (s : State) (n : Nat) (f : Span → Span) : State := s.setSpan n (f (s.span n))

def State.ctx (s : State) (n : Nat) : Ctx := Table.at s.contexts Ctx.reset n

def State.setCtx (s : State) (n : Nat) (x : Ctx) : State := { s with contexts := Table.put s.contexts n x }

def State.modCtx (s : State) (n : Nat) (f : Ctx → Ctx) : State := s.setCtx n (f (s.ctx n))

def State.link (s : State) : Link → LinkRec
  | .a => s.linkA
  | .b => s.linkB

def State.setLink (s : State) (l : Link) (k : LinkRec) : State :=
  match l with
  | .a => { s with linkA := k }
  | .b => { s with linkB := k }

def State.modLink (s : State) (l : Link) (f : LinkRec → LinkRec) : State := s.setLink l (f (s.link l))

/-- The circuit that the carriage map binds to a slot, if any (R73). -/
def State.boundTo (s : State) (slot : Nat) : Option Nat := Table.at s.map.entries none slot

/-- The eight contexts in ascending number. -/
def contextNumbers : List Nat := List.range 8

/-- A context is busy in every state other than FREE (R112). -/
def Ctx.busy (x : Ctx) : Bool := x.state != .free

/-- The busy context that holds a slot, if any (R141). -/
def State.holder (s : State) (slot : Nat) : Option Nat :=
  contextNumbers.find? (fun c => (s.ctx c).busy && (s.ctx c).slot == slot)

/-- The lowest-numbered FREE context, if any (R114, R118). -/
def State.freeContext (s : State) : Option Nat := contextNumbers.find? (fun c => !(s.ctx c).busy)

/-- A circuit stands in a queue entry (R11). -/
def State.queued (s : State) (circuit : Nat) : Bool := s.queue.any (fun e => e.circuit == circuit)

/-! ### Span arrangement (R40, R54) -/

/-- INSERTED and DRAIN_OUT: the span is cut (R40). -/
def SpanState.cut : SpanState → Bool
  | .bypass => false
  | .drainIn => false
  | .inserted => true
  | .drainOut => true

/-- "The span is INSERTED" of a migration test (R54). -/
def State.spanInserted (s : State) (circuit : Nat) : Bool := (s.span (spanOf circuit)).state == .inserted

/-! ### Receive paths (R86, R87) -/

def Circuit.line (c : Circuit) : Path → List (Option Byte)
  | .copper => c.copperLine
  | .fibre => c.fibreLine

def Circuit.setLine (c : Circuit) (p : Path) (l : List (Option Byte)) : Circuit :=
  match p with
  | .copper => { c with copperLine := l }
  | .fibre => { c with fibreLine := l }

/-- The added delay of a path (R86). -/
def Circuit.delay (c : Circuit) (p : Path) : Nat := (c.line p).length

/-- The sample a path delivered in the frame before. -/
def Circuit.lastOn (c : Circuit) : Path → Byte
  | .copper => c.copperLast
  | .fibre => c.fibreLast

/-- An insert: the sample delivered in the frame before is delivered again, and the delay rises by 1 (R87). -/
def Circuit.insertOn (c : Circuit) (p : Path) : Circuit := c.setLine p (some (c.lastOn p) :: c.line p)

/-- A slip: one sample is never delivered, and the delay falls by 1 (R87). -/
def Circuit.slipOn (c : Circuit) (p : Path) : Circuit := c.setLine p (c.line p).tail

/-- A preset: the delay line of `k` positions starts empty (R87, R96). -/
def Circuit.presetOn (c : Circuit) (p : Path) (k : Nat) : Circuit := c.setLine p (List.replicate k none)

/-- A drop: the delay falls to 0 at once (R87). -/
def Circuit.dropOn (c : Circuit) (p : Path) : Circuit := c.setLine p []

def Circuit.dropBoth (c : Circuit) : Circuit := (c.dropOn .copper).dropOn .fibre

/-! ### Notices (R182 to R187) -/

/-- An event as raised by a block, before any link's level is read (R182). -/
structure Event where
  cls : NoticeClass
  subject : Option Subject
  cause : Option Cause
  value : Option (BitVec 16)
deriving DecidableEq, Repr

/-- When the attention line is driven low (R187). -/
def LinkRec.wantsAttention (k : LinkRec) : Bool :=
  k.overflow || k.notices.any (fun n => decide (k.threshold ≤ n.level))

/-- The attention line takes its new state (R187). -/
def LinkRec.refresh (k : LinkRec) : LinkRec := { k with attention := k.wantsAttention }

/-- The level of a class in a link's table (R181). -/
def LinkRec.levelOf (k : LinkRec) (c : NoticeClass) : Nat := Table.at k.levels 0 c.code

/-- One link takes an offer under its own levels table (R184). -/
def LinkRec.offer (k : LinkRec) (stamp : Nat) (e : Event) : LinkRec :=
  if k.levelOf e.cls = 0 then k
  else if k.notices.length < Config.noticeLimit then
    LinkRec.refresh { k with
      notices := k.notices ++ [{ sequence := k.nextSequence, cls := e.cls, level := k.levelOf e.cls,
                                 stamp := stamp, subject := e.subject, cause := e.cause, value := e.value }]
      nextSequence := (k.nextSequence + 1) % 256 }
  else
    LinkRec.refresh { k with nextSequence := (k.nextSequence + 1) % 256, overflow := true }

/-- An event is offered to the notice queues of both links (R182). -/
def State.raise (s : State) (e : Event) : State :=
  { s with linkA := s.linkA.offer s.stamp e, linkB := s.linkB.offer s.stamp e }

/-- A number as a notice value (R183). -/
def valueOf (n : Nat) : Option (BitVec 16) := some (BitVec.ofNat 16 n)

/-! ### Cells (R99) -/

/-- Cells return to the pool. The pool's test of the wait list's head (R100) is the event POOL_SERVICE. -/
def State.returnCells (s : State) (k : Nat) : State := { s with pool := { s.pool with free := s.pool.free + k } }

/-! ### The advertisement table (R134 to R137) -/

def Advert.isLinger (a : Advert) : Bool :=
  match a.kind with
  | .linger _ _ => true
  | .context _ => false

def Advert.isOf (a : Advert) (context : Nat) : Bool :=
  match a.kind with
  | .context c => c == context
  | .linger _ _ => false

/-- The serial of a linger's setting; a context entry has none. -/
def Advert.serial? (a : Advert) : Option Nat :=
  match a.kind with
  | .linger _ n => some n
  | .context _ => none

/-- The place of the oldest linger: the smallest serial, and of equal ones the nearest the head (R135). `at_` is the
place of the list's head; `best` the oldest so far. -/
def oldestLinger : Nat → Option (Nat × Nat) → List Advert → Option Nat
  | _, best, [] => best.map Prod.fst
  | i, best, a :: rest =>
    match a.serial?, best with
    | some n, some (_, m) => oldestLinger (i + 1) (if n < m then some (i, n) else best) rest
    | some n, none => oldestLinger (i + 1) (some (i, n)) rest
    | none, _ => oldestLinger (i + 1) best rest

/-- An entry leaves the list; the position keeps the thing it named, or names what moves into its place (R137). -/
def PeerExchange.removeAt (p : PeerExchange) (i : Nat) : PeerExchange :=
  let rest := p.adverts.eraseIdx i
  { p with
    adverts := rest
    position :=
      match p.position with
      | none => none
      | some k => if i < k then some (k - 1) else if k < rest.length then some k else none }

/-- A new entry is made (R135): in the place of a linger for its slot, else at the end of the list, the oldest linger
leaving first when 16 are held. -/
def PeerExchange.make (p : PeerExchange) (a : Advert) : PeerExchange :=
  match p.adverts.findIdx? (fun x => x.isLinger && x.slot == a.slot) with
  | some i => { p with adverts := p.adverts.set i a }
  | none =>
    if p.adverts.length < Config.advertLimit then { p with adverts := p.adverts ++ [a] }
    else
      match oldestLinger 0 none p.adverts with
      | some i => let q := p.removeAt i; { q with adverts := q.adverts ++ [a] }
      | none => p

/-- A context entry is made for a context (R135). -/
def State.makeContextEntry (s : State) (context slot : Nat) (step : Step) : State :=
  { s with peer := s.peer.make { kind := .context context, slot := slot, step := step, argument := 0 } }

/-- A linger is made for a slot with linger count 32 (R135, R142, R144). -/
def State.makeLinger (s : State) (slot : Nat) (step : Step) (argument : Byte) : State :=
  { s with
    peer := { s.peer.make { kind := .linger Config.lingerSpan s.peer.serial, slot := slot, step := step,
                            argument := argument } with serial := s.peer.serial + 1 } }

/-- A context's entry takes a new step (R135). -/
def State.advertise (s : State) (context : Nat) (step : Step) (argument : Byte) : State :=
  { s with
    peer := { s.peer with
      adverts := s.peer.adverts.map (fun a =>
        if a.isOf context then { a with step := step, argument := argument } else a) } }

/-- A context's entry becomes a linger in its place, with linger count 32 (R135). -/
def State.beginLinger (s : State) (context : Nat) : State :=
  { s with
    peer := { s.peer with
      adverts := s.peer.adverts.map (fun a =>
        if a.isOf context then { a with kind := .linger Config.lingerSpan s.peer.serial } else a)
      serial := s.peer.serial + 1 } }

/-- The advertisement table holds a linger for the slot that `q` accepts. -/
def State.lingerFor (s : State) (slot : Nat) (q : Step → Bool) : Bool :=
  s.peer.adverts.any (fun a => a.isLinger && a.slot == slot && q a.step)

/-! ### Events owed at the present boundary (log entry 2) -/

/-- A boundary event is no longer owed. -/
def State.forget (s : State) (e : BoundaryEvent) : State := { s with owed := s.owed.filter (fun x => x != e) }

/-- A boundary event is taken by its row: it is carried out when it is owed at the present boundary, once. An event
that is not owed does not occur, and nothing changes (log entry 4). -/
def State.takeOwed (s : State) (e : BoundaryEvent) (perform : State → State) : State :=
  if s.owed.contains e then perform (s.forget e) else s

end Sys2Proof.Machine
end

