-- ==== Sys2Proof/Machine/Flags.lean ====
section
/-! DEFINITION. Machine/Flags.lean: the conditions and marks that other rules read: fault records, halt reasons,
peer presence, slot liveness, and the flags of a response. -/

namespace Sys2Proof.Machine

/-- The port kinds come first in the kind table (R150). -/
def FaultKind.isPort : FaultKind → Bool
  | .fibreLos => true
  | .fibreErr => true
  | .peerSilent => true
  | .mapMismatch => true
  | .siteClash => true
  | .copperLos => false
  | .switchLos => false
  | .markerLoss => false

/-- The actions a kind permits (R150). -/
def FaultKind.permitted : FaultKind → Actions
  | .fibreLos => ⟨true, true, true, true⟩
  | .fibreErr => ⟨true, false, true, true⟩
  | .peerSilent => ⟨true, false, true, true⟩
  | .mapMismatch => ⟨false, false, false, true⟩
  | .siteClash => ⟨false, false, false, true⟩
  | .copperLos => ⟨false, true, true, true⟩
  | .switchLos => ⟨false, false, true, true⟩
  | .markerLoss => ⟨false, false, false, true⟩

/-- Every action of the set is permitted. -/
def Actions.within (a b : Actions) : Bool :=
  (!a.revert || b.revert) && (!a.condition || b.condition) && (!a.abort || b.abort) && (!a.halt || b.halt)

/-- The place of a record among the 53 (R156); a port kind has no span. -/
def FaultKind.place (k : FaultKind) (span : Nat) : Nat :=
  if k.isPort then k.code else 5 + 16 * (k.code - 5) + span

/-- What stands for a record that does not exist: one that is not tracked. -/
def FaultRecord.absent : FaultRecord := ⟨false, ⟨false, false, false, false⟩, false, false, false⟩

def State.fault (s : State) (k : FaultKind) (span : Nat) : FaultRecord :=
  Table.at s.faults.records FaultRecord.absent (k.place span)

def State.setFault (s : State) (k : FaultKind) (span : Nat) (r : FaultRecord) : State :=
  { s with faults := { s.faults with records := Table.put s.faults.records (k.place span) r } }

/-- The five port kinds, in the order of the kind table. -/
def portKinds : List FaultKind := [.fibreLos, .fibreErr, .peerSilent, .mapMismatch, .siteClash]

/-- The three span kinds. -/
def spanKinds : List FaultKind := [.copperLos, .switchLos, .markerLoss]

/-- A kind's record is live and holds an action that `q` reads (R150: "live" is never live for a disabled kind). -/
def State.liveWith (s : State) (k : FaultKind) (span : Nat) (q : Actions → Bool) : Bool :=
  (s.fault k span).enabled && (s.fault k span).live && q (s.fault k span).actions

/-- The first port record with REVERT that is live, in the order of the kind table (R158, R162). -/
def State.liveRevert (s : State) : Option FaultKind := portKinds.find? (fun k => s.liveWith k 0 Actions.revert)

/-- The halt reason PORT_HALT (R112, R152). -/
def State.portHalt (s : State) : Bool := portKinds.any (fun k => s.liveWith k 0 Actions.halt)

/-- The span-halt test's condition (R113, R152). -/
def State.spanHalt (s : State) (span : Nat) : Bool := spanKinds.any (fun k => s.liveWith k span Actions.halt)

/-- Peer presence (R70). -/
def State.peerPresent (s : State) : Bool :=
  !s.port.los && (match s.port.wordAge with | some a => decide (a < s.peer.silentTime) | none => false)
    && !s.peer.silent

/-- The halt reason NO_CONTEXT (R112). -/
def State.noContext (s : State) : Bool := contextNumbers.all (fun c => (s.ctx c).busy)

/-- The halt reasons LINK_A_SILENT and LINK_B_SILENT (R112). -/
def State.linkASilent (s : State) : Bool := s.admitting.requireA && !s.linkA.alive
def State.linkBSilent (s : State) : Bool := s.admitting.requireB && !s.linkB.alive

/-- The four halt reasons that the responder checks read as HALTED (R112, R142). -/
def State.halted (s : State) : Bool := !s.peerPresent || s.portHalt || s.linkASilent || s.linkBSilent

/-- Admission is halted (R112). -/
def State.admissionHalted (s : State) : Bool := s.noContext || s.halted

/-- The received code of a slot, VACANT where there is no such slot (R57). -/
def State.slotCode (s : State) (slot : Nat) : Code := Table.at s.port.codes Config.vacant slot

/-- A slot is live while its received code is not VACANT (R69). -/
def State.slotLive (s : State) (slot : Nat) : Bool := s.slotCode slot != Config.vacant

/-- The FAULT flag of a response: any latched field is yes (R155). -/
def State.faultFlag (s : State) : Bool := (Table.toList s.faults.records).any FaultRecord.latched

/-- A call state is busy when it is any state other than IDLE and BLOCKED (R29). -/
def CallState.busy : CallState → Bool
  | .idle => false
  | .blocked => false
  | .outSeized => true
  | .inSeized => true
  | .outAnswered => true
  | .inAnswered => true
  | .clearing => true
  | .glare => true

/-- A response is built with the flags as they stand (R174). -/
def State.answer (s : State) (l : Link) (status : Status) (data : List Byte) : State :=
  s.modLink l (fun k => { k with response := some {
    status := status
    address := s.ownAddress
    faultFlag := s.faultFlag
    noticeFlag := !k.notices.isEmpty
    overflowFlag := k.overflow
    data := data } })

end Sys2Proof.Machine
end

