-- ==== Sys2Proof/Machine/Signalling.lean ====
section
/-! DEFINITION. Machine/Signalling.lean: persistence filters, call state and supervision (chapter 2), the drop of a
residual at IDLE (R105), and conditioning (R164, R33, R34). -/

namespace Sys2Proof.Machine

/-! ### Codes and meanings -/

/-- The meaning of a code among a group's four; none where the code is unrecognised (R26, R27). -/
def Group.meaning (g : Group) (c : Code) : Option Meaning :=
  if c = g.idle then some .idle
  else if c = g.seize then some .seize
  else if c = g.answer then some .answer
  else if c = g.block then some .block
  else none

/-- The meaning of an accepted code: BLOCK where it is none of the four (R28). -/
def Group.acceptedMeaning (g : Group) (c : Code) : Meaning := (g.meaning c).getD .block

/-- The call state of a forward and a backward meaning (R29). -/
def callTable : Meaning → Meaning → CallState
  | .idle, .idle => .idle
  | .idle, .seize => .inSeized
  | .idle, .answer => .clearing
  | .seize, .idle => .outSeized
  | .seize, .seize => .glare
  | .seize, .answer => .outAnswered
  | .answer, .idle => .clearing
  | .answer, .seize => .inAnswered
  | .answer, .answer => .clearing
  | .block, _ => .blocked
  | _, .block => .blocked

/-- The persistence value of an index, in superframes (R24). -/
def persistence : Nat → Nat
  | 0 => 0
  | 1 => 1
  | 2 => 2
  | 3 => 4
  | 4 => 8
  | 5 => 16
  | 6 => 32
  | _ => 64

/-! ### The filter -/

/-- A filter that holds a code as accepted, with no candidate and count 0. -/
def Filter.holding (c : Code) : Filter := { accepted := c, candidate := none, count := 0 }

/-- A filter takes a delivered code (R25). -/
def Filter.take (f : Filter) (c : Code) : Filter :=
  if c = f.accepted then Filter.holding f.accepted
  else if f.candidate = some c then { f with count := min 65 (f.count + 1) }
  else { f with candidate := some c, count := 1 }

/-- The persistence that governs a recognised candidate (R26). -/
def Group.persistenceFor (g : Group) : Meaning → Nat
  | .idle => persistence g.clearIndex
  | .seize => persistence g.seizeIndex
  | .answer => persistence g.seizeIndex
  | .block => persistence g.seizeIndex

/-- A recognised candidate whose count exceeds its persistence becomes the accepted code (R26); an unrecognised one is
never accepted (R27). -/
def Filter.accept (f : Filter) (g : Group) : Filter :=
  match f.candidate with
  | none => f
  | some c =>
    match g.meaning c with
    | none => f
    | some m => if g.persistenceFor m < f.count then Filter.holding c else f

/-- The boundary at which an unrecognised candidate's count becomes one more than the clear persistence (R27). -/
def Filter.reports (f : Filter) (g : Group) (c : Code) : Bool :=
  let after := f.take c
  after.candidate == some c && (g.meaning c).isNone
    && after.count == persistence g.clearIndex + 1
    && !(f.candidate == some c && f.count == after.count)

/-- A filter at a boundary: it takes the delivered code and tests the candidate, or, where its path delivers no code,
is left as it was (R23, R25, R26). -/
def Filter.supervise (f : Filter) (g : Group) : Option Code → Filter
  | none => f
  | some c => (f.take c).accept g

/-! ### Call state -/

/-- The call state that a circuit's two accepted codes give (R29). -/
def State.derivedCall (s : State) (n : Nat) : CallState :=
  callTable ((s.groupOf n).acceptedMeaning (s.circuit n).forward.accepted)
    ((s.groupOf n).acceptedMeaning (s.circuit n).backward.accepted)

/-- The counts of a group at a change of call state (R30). -/
def Group.countChange (g : Group) (old new : CallState) : Group :=
  if old.busy then (if new.busy then g else { g with busyCount := g.busyCount - 1 })
  else if new.busy then
    { g with
      busyCount := g.busyCount + 1
      seizureCount := if old = .idle then (g.seizureCount + 1) % 65536 else g.seizureCount }
  else g

/-- The notice of a change of call state (R30, R31): SEIZE with the new state, CLEAR with the state that was left. -/
def callNotice (n : Nat) (old new : CallState) : Option Event :=
  if old = .idle ∧ new.busy then
    some { cls := .seize, subject := some (.circuit n), cause := none, value := valueOf new.code }
  else if old.busy ∧ new = .idle then
    some { cls := .clear, subject := some (.circuit n), cause := none, value := valueOf old.code }
  else none

def State.raiseIf (s : State) : Option Event → State
  | some e => s.raise e
  | none => s

/-- A circuit's residual is dropped and its cells return; the residual path keeps its value (R105). -/
def State.dropResidual (s : State) (n : Nat) : State :=
  (s.modCircuit n (fun c => { c.dropOn c.residualPath with residual := 0, cellsHeld := 0 })).returnCells
    (s.circuit n).cellsHeld

/-- The drop of a residual at a change to IDLE, with its WALK_DONE (R32, R105). -/
def State.dropAtIdle (s : State) (n : Nat) : State :=
  if (s.circuit n).residual = 0 then s
  else (s.dropResidual n).raise
    { cls := .walkDone, subject := some (.circuit n), cause := none, value := valueOf (s.circuit n).cellsHeld }

/-- The call state of a circuit changes: counts, notice, and the hand-over to the Alignment Engine at IDLE
(R30, R31, R32). -/
def State.changeCall (s : State) (n : Nat) (new : CallState) : State :=
  let old := (s.circuit n).call
  let s1 := (s.modCircuit n (fun c => { c with call := new })).modGroup (s.circuit n).group
    (fun g => g.countChange old new)
  let s2 := s1.raiseIf (callNotice n old new)
  if new = .idle then s2.dropAtIdle n else s2

/-- The derivation of an equipped circuit's call state (R29): nothing changes where the state is already held. -/
def State.deriveCall (s : State) (n : Nat) : State :=
  if s.derivedCall n = (s.circuit n).call then s else s.changeCall n (s.derivedCall n)

/-! ### Supervision at a boundary (R22, R23) -/

/-- The forward code that the switch side delivers (R22, R23). -/
def State.forwardCode (s : State) (n : Nat) : Option Code :=
  if (s.span (spanOf n)).switch.los then none else some (s.channel n).switch.code

/-- The backward code that the selected path delivers (R22, R23); a circuit with no slot has no fibre path (R7). -/
def State.backwardCode (s : State) (n : Nat) : Option Code :=
  match (s.circuit n).receive with
  | .copper => if (s.span (spanOf n)).line.los then none else some (s.channel n).line.code
  | .fibre => if s.port.los then none else (s.circuit n).slot.map s.slotCode

/-- The UNRECOGNISED notice of one filter (R27). -/
def unrecognisedNotice (n : Nat) (c : Code) (backward : Bool) : Event :=
  { cls := .unrecognised, subject := some (.circuit n), cause := none,
    value := valueOf (c.toNat + (if backward then 16 else 0)) }

/-- The notice a filter raises at this boundary, if any. -/
def Filter.notice (f : Filter) (g : Group) (n : Nat) (backward : Bool) : Option Code → Option Event
  | some c => if f.reports g c then some (unrecognisedNotice n c backward) else none
  | none => none

/-- One equipped circuit at a boundary: both filters take their codes, the UNRECOGNISED notices come first, then the
call state is derived (R22 to R31). While conditioned, the backward filter takes no codes and holds the group's
conditioning code at every boundary (R33; log entry 29 for a filter that SET_GROUP had started at the IDLE code). -/
def State.superviseCircuit (s : State) (n : Nat) : State :=
  if (s.circuit n).equipped then
    let c := s.circuit n
    let g := s.groupOf n
    let fwd := s.forwardCode n
    let bwd := if c.conditioned then none else s.backwardCode n
    let s1 := s.modCircuit n (fun c => { c with
      forward := c.forward.supervise g fwd
      backward := if c.conditioned then Filter.holding g.conditioning else c.backward.supervise g bwd })
    let s2 := (s1.raiseIf (c.forward.notice g n false fwd)).raiseIf (c.backward.notice g n true bwd)
    s2.deriveCall n
  else s

/-- The supervision of a boundary, in ascending circuit number (R31). -/
def State.supervise (s : State) : State := (List.range 480).foldl State.superviseCircuit s

/-! ### Conditioning (R164) -/

/-- Copper down: the COPPER_LOS record of the span is live with CONDITION (R164). -/
def State.copperDown (s : State) (span : Nat) : Bool := s.liveWith .copperLos span Actions.condition

/-- Fibre down: the FIBRE_LOS record is live with CONDITION (R164). -/
def State.fibreDown (s : State) : Bool := s.liveWith .fibreLos 0 Actions.condition

/-- The circuit's slot is live; a circuit with no slot has none (R69). -/
def State.ownSlotLive (s : State) (n : Nat) : Bool :=
  match (s.circuit n).slot with
  | some k => s.slotLive k
  | none => false

/-- Whether R164's table finds the circuit without a usable receive path. -/
def State.pathless (s : State) (n : Nat) : Bool :=
  match (s.circuit n).state with
  | .copper => s.copperDown (spanOf n)
  | .reverted => s.copperDown (spanOf n)
  | .locked => s.copperDown (spanOf n)
  | .migrating =>
    match (s.circuit n).receive with
    | .copper => s.copperDown (spanOf n)
    | .fibre => s.fibreDown
  | .fibreProtected => s.copperDown (spanOf n) && s.fibreDown
  | .fibreOnly => s.fibreDown || !s.ownSlotLive n

/-- Whether a circuit is to be conditioned: equipped, on a cut span, and pathless (R164). -/
def State.wantsConditioning (s : State) (n : Nat) : Bool :=
  (s.circuit n).equipped && (s.span (spanOf n)).state.cut && s.pathless n

/-- Conditioning is evaluated for a circuit (R164). At its start the backward filter takes the conditioning code and
the call state is derived (R33); at its end the filter keeps what it holds (R34). -/
def State.recondition (s : State) (n : Nat) : State :=
  if s.wantsConditioning n = (s.circuit n).conditioned then s
  else if (s.circuit n).conditioned then s.modCircuit n (fun c => { c with conditioned := false })
  else
    (s.modCircuit n (fun c => { c with
      conditioned := true
      backward := Filter.holding (s.groupOf n).conditioning })).deriveCall n

/-- Conditioning is evaluated for a list of circuits. -/
def State.reconditionAll (s : State) (ns : List Nat) : State := ns.foldl State.recondition s

/-- All circuits, in ascending number. -/
def allCircuits : List Nat := List.range 480

end Sys2Proof.Machine
end

