-- ==== Sys2Proof/Machine/Queue.lean ====
section
/-! DEFINITION. Machine/Queue.lean: the migration queue's re-entry (R111) and the admission tests (R113). -/

namespace Sys2Proof.Machine

/-- The age of an entry, by its stamp (R111). -/
def entryAge (now stamp : Nat) : Nat := (now + 65536 - stamp % 65536) % 65536

/-- A re-entering entry is placed directly in front of the first entry whose age is smaller than its own, else at the
tail (R111); with its position. `i` is the place of the list's head. -/
def placeByAge (now : Nat) (e : Entry) : Nat → List Entry → List Entry × Nat
  | i, [] => ([e], i)
  | i, x :: rest =>
    if entryAge now x.stamp < entryAge now e.stamp then (e :: x :: rest, i)
    else ((x :: (placeByAge now e (i + 1) rest).1), (placeByAge now e (i + 1) rest).2)

/-- An entry re-enters the queue, with the position it takes; none where the queue is full and the entry is discarded
(R111). -/
def State.reenter (s : State) (e : Entry) : State × Option Nat :=
  if s.queue.length < Config.queueLimit then
    ({ s with queue := (placeByAge s.stamp e 0 s.queue).1 }, some (placeByAge s.stamp e 0 s.queue).2)
  else (s, none)

/-- A parked entry re-enters; where it is discarded, an ABORTED notice with cause QUEUE_FULL is raised (R111). -/
def State.reenterParked (s : State) : Option Entry → State
  | none => s
  | some e =>
    match s.reenter e with
    | (s1, some _) => s1
    | (s1, none) =>
      s1.raise { cls := .aborted, subject := some (.circuit e.circuit), cause := some .queueFull, value := none }

/-- The tests of R113, in the order of its table. -/
inductive AdmissionTest where
  | span | spanHalt | state | frozen | lockedOut | held | residual | slotBusy | idleWait
deriving DecidableEq, Repr

/-- A position in the table of R113 (R190). -/
def AdmissionTest.code : AdmissionTest → Nat
  | .span => 0 | .spanHalt => 1 | .state => 2 | .frozen => 3 | .lockedOut => 4 | .held => 5
  | .residual => 6 | .slotBusy => 7 | .idleWait => 8

/-- The state test of R113. -/
def Direction.admits : Direction → MigState → Bool
  | .toFibre, .copper => true
  | .toFibre, .reverted => true
  | .toFibre, .migrating => false
  | .toFibre, .fibreProtected => false
  | .toFibre, .fibreOnly => false
  | .toFibre, .locked => false
  | .toCopper, .fibreProtected => true
  | .toCopper, .copper => false
  | .toCopper, .migrating => false
  | .toCopper, .fibreOnly => false
  | .toCopper, .reverted => false
  | .toCopper, .locked => false

/-- Some context in ABORTING holds the slot (R113, R79). -/
def State.abortingHolds (s : State) (slot : Nat) : Bool :=
  contextNumbers.any (fun c => (s.ctx c).state == .aborting && (s.ctx c).slot == slot)

/-- Whether an entry passes a test (R113). -/
def State.passes (s : State) (e : Entry) : AdmissionTest → Bool
  | .span => s.spanInserted e.circuit
  | .spanHalt => !s.spanHalt (spanOf e.circuit)
  | .state => e.direction.admits (s.circuit e.circuit).state
  | .frozen => !(s.groupOf e.circuit).frozen
  | .lockedOut => e.direction == .toCopper || !(s.groupOf e.circuit).lockedOut
  | .held => !(s.circuit e.circuit).held
  | .residual => (s.circuit e.circuit).residual == 0
  | .slotBusy =>
    match (s.circuit e.circuit).slot with
    | some k => !s.abortingHolds k
    | none => true
  | .idleWait =>
    !((s.groupOf e.circuit).policy == .drain || e.idleOnly) || (s.circuit e.circuit).call == .idle

/-- The tests in order (R113). -/
def admissionTests : List AdmissionTest :=
  [.span, .spanHalt, .state, .frozen, .lockedOut, .held, .residual, .slotBusy, .idleWait]

/-- The first test an entry fails, if any (R113, R131). -/
def State.firstFailing (s : State) (e : Entry) : Option AdmissionTest :=
  admissionTests.find? (fun t => !s.passes e t)

end Sys2Proof.Machine
end

