-- ==== Sys2Proof/Machine/Contexts.lean ====
section
/-! DEFINITION. Machine/Contexts.lean: the migration contexts (chapter 7): starting, preparing, switching, completing,
aborting, deferring and returning, with the settlement of delays and cells (R102, R103, R106). -/

namespace Sys2Proof.Machine

/-! ### Paths and states of a circuit (R5, R86) -/

/-- The path the receive selection names when a context of this direction begins (R86). -/
def Direction.currentPath : Direction → Path
  | .toFibre => .copper
  | .toCopper => .fibre

/-- The other path (R86). -/
def Direction.targetPath : Direction → Path
  | .toFibre => .fibre
  | .toCopper => .copper

/-- R5: the receive selection of a state; a circuit in MIGRATING keeps what it has. -/
def MigState.receiveFor (old : Path) : MigState → Path
  | .copper => .copper
  | .migrating => old
  | .fibreProtected => .fibre
  | .fibreOnly => .fibre
  | .reverted => .copper
  | .locked => .copper

/-- R5: the transmit bridging of a state. -/
def MigState.transmitFor : MigState → Bridging
  | .copper => .copper
  | .migrating => .both
  | .fibreProtected => .both
  | .fibreOnly => .fibre
  | .reverted => .both
  | .locked => .both

/-- A circuit takes a state, with the receive selection and bridging of R5. -/
def Circuit.enter (c : Circuit) (st : MigState) : Circuit :=
  { c with state := st, receive := st.receiveFor c.receive, transmit := st.transmitFor }

/-- The state REVERTED is LOCKED in a locked-out group (R160). -/
def State.lockedState (s : State) (circuit : Nat) (st : MigState) : MigState :=
  if st = .reverted ∧ (s.groupOf circuit).lockedOut then .locked else st

/-! ### Starting (R114, R117, R118, R119) -/

/-- A context is taken for a circuit: role, direction, circuit, slot, origin state and policy are set and everything
else is cleared (R114, R118). -/
def State.newCtx (s : State) (role : Role) (direction : Direction) (circuit slot : Nat) : Ctx :=
  { Ctx.reset with
    role := role
    direction := direction
    circuit := circuit
    slot := slot
    origin := (s.circuit circuit).state
    policy := (s.groupOf circuit).policy }

/-- The circuit becomes MIGRATING in a context (R5, R114, R118). -/
def State.migrate (s : State) (circuit context : Nat) : State :=
  s.modCircuit circuit (fun c => { c.enter .migrating with context := some context })

/-- The step that an initiator advertises (R114). -/
def Direction.requestStep : Direction → Step
  | .toFibre => .reqFibre
  | .toCopper => .reqCopper

/-- Admission of an entry into a FREE context (R114). -/
def State.admitEntry (s : State) (e : Entry) (context : Nat) : State :=
  let slot := ((s.circuit e.circuit).slot).getD 0
  let x := { s.newCtx .initiator e.direction e.circuit slot with
    state := .request, served := some e, stepRunning := true }
  let s1 := { s with queue := s.queue.filter (fun y => y.circuit != e.circuit) }
  let s2 := (s1.setCtx context x).migrate e.circuit context
  let s3 := s2.makeContextEntry context slot e.direction.requestStep
  let s4 := s3.raise
    { cls := .admitted, subject := some (.circuit e.circuit), cause := none, value := valueOf context }
  s4.recondition e.circuit

/-- A context enters MEASURE and advertises BRIDGED; its step timer stops and its bridge timer is 0 (R117, R145). The
attempt, or READY under FORCED, begins by the event ATTEMPT_START. -/
def State.enterMeasure (s : State) (context : Nat) : State :=
  (s.modCtx context (fun x => { x with
    state := .measure, stepRunning := false, bridgeTimer := 0, begun := false })).advertise context .bridged 0

/-- The last confirmed peer step is READY or SWITCHED (R121). -/
def Ctx.peerReady (x : Ctx) : Bool :=
  match x.lastStep with
  | some (.ready, _) => true
  | some (.switched, _) => true
  | _ => false

/-- The last confirmed peer step is SWITCHED (R122). -/
def Ctx.peerSwitched (x : Ctx) : Bool :=
  match x.lastStep with
  | some (.switched, _) => true
  | _ => false

/-- A context enters READY and advertises READY (R135); a switch is due at once where the peer's READY or SWITCHED is
already confirmed (R121), and else the step timer runs from 0 (R123). -/
def State.enterReady (s : State) (context : Nat) : State :=
  (s.modCtx context (fun x => { x with
    state := .ready
    stepTimer := 0
    stepRunning := !x.peerReady
    switchDue := x.peerReady })).advertise context .ready 0

/-- An attempt begins with the present settings (R90). -/
def State.beginAttempt (s : State) (context number : Nat) : State :=
  s.modCtx context (fun x => { x with
    attempt := number
    attemptN := s.align.n
    attemptLimit := s.align.spreadLimit
    start := s.frameCount
    elapsed := 0
    n := 0
    sum := 0
    min := none
    max := none
    running := true
    begun := true })

/-! ### Settling delays and cells -/

/-- A context leaves the wait list; a new head waits from 0 (R100, R101). -/
def State.leaveWaitList (s : State) (context : Nat) : State :=
  { s with pool := { s.pool with
      waitList := s.pool.waitList.filter (fun c => c != context)
      waitCount := if s.pool.waitList.head? = some context then 0 else s.pool.waitCount } }

/-- Before the switch: the preset is dropped; the current path's delay stays as the circuit's residual where the call
is busy, and is dropped otherwise (R106). -/
def State.settleUnswitched (s : State) (context : Nat) : State :=
  let x := s.ctx context
  let c := s.circuit x.circuit
  let k := c.delay x.direction.currentPath
  if k = 0 ∨ !c.call.busy then
    ((s.modCircuit x.circuit Circuit.dropBoth).modCtx context (fun x => { x with cells := 0 })).returnCells x.cells
  else
    ((s.modCircuit x.circuit (fun c => { c.dropOn x.direction.targetPath with
        residual := k, residualPath := x.direction.currentPath, cellsHeld := k + 2 })).modCtx context
      (fun x => { x with cells := 0 })).returnCells (x.cells - (k + 2))

/-- Both added delays are dropped and every cell of the context and of the circuit returns (R106, R127). -/
def State.settleAll (s : State) (context : Nat) : State :=
  let x := s.ctx context
  let c := s.circuit x.circuit
  ((s.modCircuit x.circuit (fun c => { c.dropBoth with residual := 0, cellsHeld := 0 })).modCtx context
    (fun x => { x with cells := 0 })).returnCells (x.cells + c.cellsHeld)

/-! ### Leaving a context -/

/-- A context becomes FREE and keeps the circuit, slot, accumulators, E and abort cause of its last use (R115). DESIGN CHOICE
(log entry 9): so do its switched mark, timers, abort count, last confirmed peer step and peer-entry mark, which R115 does
not name among the kept fields. -/
def Ctx.freed (x : Ctx) : Ctx :=
  { x with
    state := .free, served := none, parked := none, running := false, begun := false, stepRunning := false,
    switchDue := false, idleOnly := false, returnPending := false, deferred := false, resetPending := false }

/-- Boundary events that concern a context's present use are no longer owed. -/
def State.forgetContext (s : State) (context : Nat) : State :=
  (((s.forget (.switch context)).forget (.stepTimeout context)).forget (.bridgeTimeout context))

/-- The value of an ABORTED notice: the context number, plus 256 times the peer's cause code (R124). -/
def abortValue (context : Nat) (peerCause : Option Byte) : Option (BitVec 16) :=
  valueOf (context + (match peerCause with | some b => 256 * b.toNat | none => 0))

/-- The ABORTED notice of a context (R124). -/
def State.raiseAborted (s : State) (context : Nat) : State :=
  s.raise { cls := .aborted, subject := some (.circuit (s.ctx context).circuit),
            cause := (s.ctx context).abortCause,
            value := abortValue context (s.ctx context).peerCause }

/-- A deferral's served entry re-enters with its idle-only mark set and a DEFERRED notice; with no served entry or no
room, an ABORTED notice is raised (R126). -/
def State.reenterServed (s : State) (context : Nat) : State :=
  match (s.ctx context).served with
  | none => s.raiseAborted context
  | some e =>
    match s.reenter { e with idleOnly := true } with
    | (s1, some p) =>
      s1.raise { cls := .deferred, subject := some (.circuit e.circuit), cause := some .deferredData,
                 value := valueOf p }
    | (s1, none) => s1.raiseAborted context

/-- The circuit leaves its context without completing: it returns to its origin state (LOCKED in a locked-out group),
its context field becomes absent, its last abort cause is the context's, the served entry is discarded or re-enters,
and a parked entry re-enters (R124, R126, R160). -/
def State.leaveContext (s : State) (context : Nat) : State :=
  let x := s.ctx context
  let st := s.lockedState x.circuit x.origin
  let s1 := s.modCircuit x.circuit (fun c => { c.enter st with context := none, lastAbort := x.abortCause })
  let s2 := if x.deferred then s1.reenterServed context else s1
  let s3 := s2.modCtx context (fun x => { x with served := none, parked := none, returnPending := false })
  (s3.reenterParked x.parked).recondition x.circuit

/-- The return after an abort after the switch: the residual is dropped, and the circuit leaves the context (R106,
R124). -/
def State.makeReturn (s : State) (context : Nat) : State :=
  let n := (s.ctx context).circuit
  let s1 := (s.modCircuit n (fun c => { c.dropBoth with residual := 0, cellsHeld := 0 })).returnCells
    (s.circuit n).cellsHeld
  s1.leaveContext context

/-! ### Aborts (R124, R126, R127) -/

/-- The fields of a context that enters ABORTING (R124). -/
def Ctx.abortWith (x : Ctx) (cause : Cause) (peerCause : Option Byte) (deferred : Bool) : Ctx :=
  { x with
    state := .aborting
    abortCause := some cause
    peerCause := peerCause
    abortCount := 0
    running := false
    begun := true
    stepRunning := false
    switchDue := false
    idleOnly := false
    returnPending := x.switched
    deferred := deferred }

/-- A context is aborted with a cause; a deferral is an abort whose notice comes when the circuit leaves (R124, R126).
DESIGN CHOICE (log entry 15): its ABORTED notice is offered before that of a parked entry which finds the queue full at the
same event. -/
def State.abortWith (s : State) (context : Nat) (cause : Cause) (peerCause : Option Byte) (deferred : Bool) : State :=
  let s1 := (s.leaveWaitList context).forgetContext context
  let s2 := if (s.ctx context).switched then s1 else s1.settleUnswitched context
  let s3 := (s2.modCtx context (fun x => x.abortWith cause peerCause deferred)).advertise context .abort cause.byte
  let s4 := if deferred then s3 else s3.raiseAborted context
  if (s.ctx context).switched then s4 else s4.leaveContext context

/-- A context that is busy and not in ABORTING is aborted; the FREE and the ABORTING one are not reached (R124). -/
def State.abort (s : State) (context : Nat) (cause : Cause) (peerCause : Option Byte := none) : State :=
  if (s.ctx context).state = .free ∨ (s.ctx context).state = .aborting then s
  else s.abortWith context cause peerCause false

/-- A deferral (R126). -/
def State.defer (s : State) (context : Nat) : State :=
  if (s.ctx context).state = .free ∨ (s.ctx context).state = .aborting then s
  else s.abortWith context .deferredData none true

/-- A to-copper context ended by fault: the circuit goes to COPPER at once (R127). DESIGN CHOICE (log entry 15): its ABORTED
notice is offered before that of a parked entry which finds the queue full at the same event. -/
def State.endByFault (s : State) (context : Nat) : State :=
  let x := s.ctx context
  let s1 := (s.leaveWaitList context).forgetContext context
  let s2 := s1.settleAll context
  let s3 := (s2.modCtx context (fun x => { x.abortWith .fibreFault none false with
      returnPending := false, served := none, parked := none })).advertise context .abort Cause.fibreFault.byte
  let s4 := s3.modCircuit x.circuit
    (fun c => { c.enter .copper with context := none, lastAbort := some .fibreFault })
  let s5 := s4.raiseAborted context
  (s5.reenterParked x.parked).recondition x.circuit

/-! ### The switch (R102, R103, R121) -/

/-- The delays and cells at a switch of a busy call (R102). -/
def State.busySwitch (s : State) (context : Nat) : State :=
  let x := s.ctx context
  if 0 < x.lead.getD 0 then
    (s.modCircuit x.circuit (fun c => { c with
      residual := (x.lead.getD 0).toNat, residualPath := x.direction.targetPath, cellsHeld := x.cells })).modCtx
      context (fun x => { x with cells := 0 })
  else
    ((s.modCircuit x.circuit (fun c => { c.dropOn x.direction.currentPath with residual := 0 })).modCtx context
      (fun x => { x with cells := 0 })).returnCells x.cells

/-- The delays and cells at a switch of a call that is not busy (R103). -/
def State.idleSwitch (s : State) (context : Nat) : State :=
  let x := s.ctx context
  ((s.modCircuit x.circuit (fun c => { c.dropBoth with residual := 0 })).modCtx context
    (fun x => { x with cells := 0 })).returnCells x.cells

/-- The switch of a context in READY whose switch is due: deferred where it is an idle-only switch with a busy call,
and made otherwise (R121). A completion that follows at once is the event CONTEXT_COMPLETION (R122). -/
def State.makeSwitch (s : State) (context : Nat) : State :=
  let x := s.ctx context
  let c := s.circuit x.circuit
  if x.state = .ready ∧ x.switchDue then
    if x.idleOnly ∧ c.call.busy then s.defer context
    else
      let s1 := if c.call.busy then s.busySwitch context else s.idleSwitch context
      let s2 := s1.modCircuit x.circuit (fun c => { c with receive := x.direction.targetPath })
      let s3 := (s2.modCtx context (fun x => { x with
        state := .switched, switched := true, switchDue := false, idleOnly := false,
        stepTimer := 0, stepRunning := true })).advertise context .switched 0
      s3.recondition x.circuit
  else s

/-! ### Completion (R122) -/

/-- A completion is due: the context is in SWITCHED and its last confirmed peer step is SWITCHED. In SWITCHED that step
is confirmed by the event that completes the context, by a confirmation or before the switch or an age-out (R121,
R122). -/
def Ctx.completionDue (x : Ctx) : Bool := x.state == .switched && x.peerSwitched

/-- The state a completed move leaves (R122). -/
def Direction.finalState : Direction → MigState
  | .toFibre => .fibreProtected
  | .toCopper => .copper

/-- E as a notice value; absent under FORCED (R122, R183). -/
def leadValue (lead : Option Int) : Option (BitVec 16) := lead.map (BitVec.ofInt 16)

/-- A context completes (R122). -/
def State.complete (s : State) (context : Nat) : State :=
  let x := s.ctx context
  let s1 := s.modCircuit x.circuit (fun c => { c.enter x.direction.finalState with context := none })
  let s2 := (s1.forgetContext context).modCtx context Ctx.freed
  let s3 := (s2.reenterParked x.parked).raise
    { cls := .completed, subject := some (.circuit x.circuit), cause := none, value := leadValue x.lead }
  (s3.beginLinger context).recondition x.circuit

def State.completeIfDue (s : State) (context : Nat) : State :=
  if (s.ctx context).completionDue then s.complete context else s

/-! ### The end of ABORTING (R125, R129) -/

/-- The test of R125. -/
def Ctx.mayEnd (x : Ctx) : Bool :=
  (match x.lastStep with | some (.abort, _) => x.peerEntry | _ => false) || !x.peerEntry || decide (32 ≤ x.abortCount)

/-- At a boundary, a context in ABORTING first makes a pending return and then, where it may end, becomes FREE with an
ABORT linger (R125). After a migration reset it becomes FREE without the test; its advertisement is a linger already
(R129). -/
def State.endAborting (s : State) (context : Nat) : State :=
  if (s.ctx context).state = .aborting then
    let s1 := if (s.ctx context).returnPending then s.makeReturn context else s
    if (s1.ctx context).resetPending then s1.modCtx context Ctx.freed
    else if (s1.ctx context).mayEnd then (s1.beginLinger context).modCtx context Ctx.freed
    else s1
  else s

/-- The return at the first boundary after an abort after the switch (R124). -/
def State.returnIfPending (s : State) (context : Nat) : State :=
  if (s.ctx context).state = .aborting ∧ (s.ctx context).returnPending then s.makeReturn context else s

end Sys2Proof.Machine
end

