-- ==== Sys2Proof/Machine/Faults.lean ====
section
/-! DEFINITION. Machine/Faults.lean: what a declaration, a clearing and a change of policy do to a fault record
(R151 to R154), reversion, lockout and return to fibre (R157 to R163). -/

namespace Sys2Proof.Machine

/-- The scope of a record: PORT (0x40) or its span (section 12.3). -/
def FaultKind.scope (k : FaultKind) (span : Nat) : Nat := if k.isPort then 0x40 else span

/-- A FAULT_SET or FAULT_CLEAR notice (R151). -/
def faultEvent (cls : NoticeClass) (k : FaultKind) (span : Nat) : Event :=
  { cls := cls, subject := some (.fault k (k.scope span)), cause := none, value := none }

/-- A record is live; a disabled one never is (R150). -/
def State.isLive (s : State) (k : FaultKind) (span : Nat) : Bool := (s.fault k span).enabled && (s.fault k span).live

/-! ### The actions -/

/-- A fault reaches the contexts that are busy and not in ABORTING; a span fault those whose circuit is on its span
(R153). -/
def State.faultReaches (s : State) (k : FaultKind) (span context : Nat) : Bool :=
  (s.ctx context).state != .free && (s.ctx context).state != .aborting
    && (k.isPort || spanOf (s.ctx context).circuit == span)

/-- The end of a context that a port fault reaches (R127); `cause` is that of a to-fibre context. -/
def State.endByPort (s : State) (context : Nat) (cause : Cause) : State :=
  match (s.ctx context).direction with
  | .toFibre => s.abort context cause
  | .toCopper => s.endByFault context

/-- The end of a context that a copper fault reaches (R127). -/
def State.endByCopper (s : State) (context : Nat) : State :=
  match (s.ctx context).direction with
  | .toFibre => if (s.ctx context).state = .switched then s else s.abort context .copperFault
  | .toCopper => s.abort context .copperFault

/-- The table of R127. Kinds that do not permit ABORT end no context. -/
def State.faultEnds (s : State) (k : FaultKind) (context : Nat) : State :=
  match k with
  | .fibreLos => s.endByPort context .fibreFault
  | .fibreErr => s.endByPort context .fibreFault
  | .peerSilent => s.endByPort context .peerSilent
  | .copperLos => s.endByCopper context
  | .switchLos => s.endByCopper context
  | .mapMismatch => s
  | .siteClash => s
  | .markerLoss => s

/-- ABORT at a becoming-live, in ascending context number (R153). -/
def State.faultAbort (s : State) (k : FaultKind) (span : Nat) : State :=
  contextNumbers.foldl (fun t c => if t.faultReaches k span c then t.faultEnds k c else t) s

/-- A revert is made pending; the first cause is kept (R157). -/
def State.pendRevert (s : State) (k : FaultKind) : State :=
  { s with faults := { s.faults with
      revertPending := match s.faults.revertPending with | some c => some c | none => some k } }

/-- The fibre-health count is set to 0 (R162). -/
def State.healthZero (s : State) : State := { s with faults := { s.faults with health := 0 } }

/-- The circuits whose conditioning a record is an input of (R164). -/
def FaultKind.conditions (k : FaultKind) (span : Nat) : List Nat :=
  match k with
  | .fibreLos => allCircuits
  | .copperLos => circuitsOf span
  | .fibreErr => []
  | .peerSilent => []
  | .mapMismatch => []
  | .siteClash => []
  | .switchLos => []
  | .markerLoss => []

/-- An enabled record becomes live: its marks, the FAULT_SET notice, ABORT and REVERT in this order, and CONDITION
from the same event (R151, R164; log entry 16). -/
def State.becomeLive (s : State) (k : FaultKind) (span : Nat) : State :=
  let r := s.fault k span
  let s1 := s.setFault k span { r with live := true, latched := true }
  let s2 := s1.raise (faultEvent .faultSet k span)
  let s3 := if r.actions.abort then s2.faultAbort k span else s2
  let s4 := if r.actions.revert then (s3.pendRevert k).healthZero else s3
  s4.reconditionAll (k.conditions span)

/-- At the event at which a span's COPPER_LOS ceases to be live, a live port record with REVERT makes a revert
pending (R158). -/
def State.copperReturns (s : State) : State :=
  match s.liveRevert with
  | some k => s.pendRevert k
  | none => s

/-- A detecting block declares its condition (R151). -/
def State.declare (s : State) (k : FaultKind) (span : Nat) : State :=
  let r := s.fault k span
  let s1 := s.setFault k span { r with declared := true }
  if r.enabled then s1.becomeLive k span else s1

/-- What follows when a record ceases to be live: COPPER_LOS may pend a revert (R158), and conditioning is evaluated
(R164). -/
def State.ceaseLive (s : State) (k : FaultKind) (span : Nat) : State :=
  (if k = .copperLos then s.copperReturns else s).reconditionAll (k.conditions span)

/-- A detecting block clears its condition (R151). -/
def State.clearFault (s : State) (k : FaultKind) (span : Nat) : State :=
  let r := s.fault k span
  if r.enabled then
    ((s.setFault k span { r with declared := false, live := false }).raise
      (faultEvent .faultClear k span)).ceaseLive k span
  else s.setFault k span { r with declared := false }

/-- SET_FAULT_POLICY acts on one record (R154). -/
def State.setPolicy (s : State) (k : FaultKind) (enabled : Bool) (acts : Actions) (span : Nat) : State :=
  let r := s.fault k span
  if enabled then
    let s1 := s.setFault k span { r with enabled := true, actions := acts }
    if r.enabled then
      let s2 := if r.live ∧ acts.revert ∧ !r.actions.revert then s1.healthZero else s1
      s2.reconditionAll (k.conditions span)
    else if r.declared then s1.becomeLive k span
    else s1
  else
    let s1 := s.setFault k span { r with enabled := false, actions := acts, live := false, latched := false }
    if r.enabled ∧ r.live then s1.ceaseLive k span else s1.reconditionAll (k.conditions span)

/-! ### Reversion (R157 to R160) -/

/-- A circuit is taken by a pending revert: in FIBRE_PROTECTED, on a span whose COPPER_LOS record is not live
(R157, R158). -/
def State.reverts (s : State) (n : Nat) : Bool :=
  (s.circuit n).state == .fibreProtected && !s.isLive .copperLos (spanOf n)

/-- One circuit is reverted (R157). -/
def State.revertCircuit (s : State) (k : FaultKind) (n : Nat) : State :=
  let cells := (s.circuit n).cellsHeld
  let st := s.lockedState n .reverted
  let s1 := (s.modCircuit n (fun c =>
      { (c.dropOn .fibre).enter st with residual := 0, cellsHeld := 0 })).returnCells cells
  (s1.raise { cls := .reverted, subject := some (.circuit n), cause := some (.faultOf k),
              value := valueOf cells }).recondition n

/-- The circuits of a group in one state take another (R160, R161). -/
def State.restate (s : State) (group : Nat) (old new : MigState) : State :=
  { s with circuits := Table.mapIdx s.circuits (fun _ c =>
      if c.group = group ∧ c.state = old then { c with state := new } else c) }

/-- A group's revert count and window timer at a counting (R159). -/
def Group.countRevert (g : Group) : Group :=
  if g.revertCount < 15 then
    { g with
      revertCount := g.revertCount + 1
      windowTimer := match g.windowTimer with | some t => some t | none => some g.lockoutWindow }
  else g

/-- A counted group is to be locked out (R160). -/
def Group.locksOut (g : Group) : Bool :=
  !g.lockedOut && g.lockoutLimit != 0 && decide (g.lockoutLimit ≤ g.revertCount)

/-- A group is counted once and locked out where its count stands at its limit (R159, R160). -/
def State.countRevert (s : State) (group : Nat) : State :=
  let s1 := s.modGroup group Group.countRevert
  if (s1.group group).locksOut then
    ((s1.modGroup group (fun g => { g with lockedOut := true })).restate group .reverted .locked).raise
      { cls := .lockout, subject := some (.group group), cause := none,
        value := valueOf (s1.group group).revertCount }
  else s1

/-- The sixteen groups, in ascending number. -/
def allGroups : List Nat := List.range 16

/-- The pending revert is made: the circuits in ascending number, then each group with a reverted circuit counted
once (R157, R159). -/
def State.makeRevert (s : State) : State :=
  match s.faults.revertPending with
  | none => s
  | some k =>
    let taken := allCircuits.filter s.reverts
    let s1 := taken.foldl (fun t n => t.revertCircuit k n) s
    let counted := allGroups.filter (fun g => taken.any (fun n => (s.circuit n).group == g))
    let s2 := counted.foldl State.countRevert s1
    { s2 with faults := { s2.faults with revertPending := none } }

/-! ### Slow ticks (R159, R162, R163) -/

/-- A window expires (R159). -/
def State.expireWindow (s : State) (group : Nat) : State :=
  s.modGroup group (fun g => { g with revertCount := 0, windowTimer := none })

/-- A group's window timer would fall to 0 at a slow tick (R159). -/
def Group.windowEnds (g : Group) : Bool :=
  match g.windowTimer with
  | some t => decide (t ≤ 1)
  | none => false

/-- A running window timer falls by 1; one that would fall to 0 expires by the event WINDOW_EXPIRY (R159), and
stands until then (log entry 35, DESIGN CHOICE). -/
def Group.tickWindow (g : Group) : Group :=
  if g.windowEnds then g else { g with windowTimer := g.windowTimer.map (fun t => t - 1) }

/-- A group qualifies for auto-return (R163). -/
def State.qualifies (s : State) (group : Nat) : Bool :=
  (s.group group).autoReturn && !(s.group group).lockedOut
    && decide ((s.group group).recoveryHold ≤ s.faults.health)

/-- A REVERTED circuit of a qualifying group is queued, where the queue has room (R163). -/
def State.autoQueue (s : State) (n : Nat) : State :=
  if s.queue.length < Config.queueLimit ∧ !s.queued n then
    State.raise { s with queue := s.queue ++ [{ circuit := n, direction := .toFibre, origin := .auto,
                                                idleOnly := false, stamp := s.stamp }] }
      { cls := .autoQueued, subject := some (.circuit n), cause := none, value := valueOf s.queue.length }
  else s

/-- Auto-return (R163). -/
def State.autoReturn (s : State) : State :=
  (allCircuits.filter (fun n => (s.circuit n).state == .reverted && s.qualifies (s.circuit n).group)).foldl
    State.autoQueue s

/-- A slow tick: the window timers, the fibre-health count, auto-return, in this order (R159, R162, R163). The
windows that end are owed as WINDOW_EXPIRY. -/
def State.makeSlowTick (s : State) : State :=
  let ending := allGroups.filter (fun g => (s.group g).windowEnds)
  let s1 := { s with
    groups := Table.mapIdx s.groups (fun _ g => g.tickWindow)
    owed := s.owed ++ ending.map BoundaryEvent.windowExpiry
    faults := { s.faults with health := if s.liveRevert.isSome then 0 else min 255 (s.faults.health + 1) } }
  s1.autoReturn

end Sys2Proof.Machine
end

