-- ==== Sys2Proof/Machine/Spans.lean ====
section
/-! DEFINITION. Machine/Spans.lean: the change of a span between relay-through and cut (R52, R53), and what its two
receivers do with a copper frame (R44, R45, R47, R48). -/

namespace Sys2Proof.Machine

/-! ### Changing the span state -/

/-- The SPAN_STATE notice of a span in a state (section 3.5). -/
def spanEvent (span : Nat) (st : SpanState) : Event :=
  { cls := .spanState, subject := some (.span span), cause := none, value := valueOf st.code }

/-- A span becomes cut (R53); its first frame after this event begins the insertion of markers (R46). -/
def State.becomeCut (s : State) (span : Nat) : State :=
  (s.modSpan span (fun x => { x with state := .inserted, relay := true, marking := false, lossCount := 0 })).reconditionAll
    (circuitsOf span)

/-- A declared MARKER_LOSS clears, with the clearing handed to the Fault Unit (R48). -/
def State.clearMarkerLoss (s : State) (span : Nat) : State :=
  if (s.span span).markerLoss then
    (s.modSpan span (fun x => { x with markerLoss := false })).clearFault .markerLoss span
  else s

/-- A span becomes relay-through, and marker insertion stops (R46, R53). -/
def State.becomeThrough (s : State) (span : Nat) : State :=
  ((s.modSpan span (fun x => { x with state := .bypass, relay := false, marking := false, lossCount := 0 })).clearMarkerLoss
    span).reconditionAll (circuitsOf span)

/-- A span takes a new state, with the effects of R53 where its relay moves, and a SPAN_STATE notice. A drain that
was owed at the present boundary is no longer owed. -/
def State.moveSpan (s : State) (span : Nat) (new : SpanState) : State :=
  let old := (s.span span).state
  let s0 := s.forget (.drainComplete span)
  let s1 :=
    if old.cut = new.cut then s0.modSpan span (fun x => { x with state := new })
    else if new.cut then s0.becomeCut span
    else s0.becomeThrough span
  s1.raise (spanEvent span new)

/-- The state a completed drain leaves, and none where no drain is pending (R52). -/
def SpanState.drained : SpanState → Option SpanState
  | .bypass => none
  | .drainIn => some .inserted
  | .inserted => none
  | .drainOut => some .bypass

/-- The number of equipped circuits of a span whose call state is not IDLE (R52, R56). -/
def State.notIdle (s : State) (span : Nat) : Nat :=
  ((circuitsOf span).filter (fun n => (s.circuit n).equipped && (s.circuit n).call != .idle)).length

/-- The drain test of one span, with its completion (R52). -/
def State.drainTest (s : State) (span : Nat) : State :=
  match (s.span span).state.drained with
  | none => s
  | some new => if s.notIdle span = 0 then s.moveSpan span new else s

/-! ### Receiving copper frames -/

/-- The run count and status after a framing slot is examined (R44). -/
def Framing.examine (f : Framing) (correct : Bool) : Framing :=
  let good := (correct :: f.good).take 16
  if f.los then
    if correct then
      if 3 ≤ f.run + 1 then { los := false, run := 0, good := good } else { f with run := f.run + 1, good := good }
    else { f with run := 0, good := good }
  else if correct then { f with run := 0, good := good }
  else if 4 ≤ f.run + 1 then { los := true, run := 0, good := good }
  else { f with run := f.run + 1, good := good }

/-- All the frames that carried a code had correct patterns (R44; log entry 11). -/
def arrivalComplete (x : CodeArrival) (f : Framing) : Bool := x.parts.all (fun k => f.good.getD k false)

/-- The code that completes for a channel with a frame; the later entry stands where a frame names two. -/
def completedCode (f : Framing) (codes : List CodeArrival) (channel : Nat) : Option Code :=
  (codes.reverse.find? (fun x => x.channel == channel && arrivalComplete x f)).map CodeArrival.code

/-- What a correct frame recovers for a channel (R44). -/
def Recovered.recover (r : Recovered) (f : Framing) (samples : List Byte) (codes : List CodeArrival)
    (channel : Nat) : Recovered :=
  { r with
    sample := samples.getD (channel - 1) r.sample
    code := (completedCode f codes channel).getD r.code }

/-- One channel at one side after a frame: recovery from a correct frame, and at a declaration of loss the code that
stood is held (R42, R43, R44). -/
def Recovered.step (r : Recovered) (f : Framing) (correct lost : Bool) (samples : List Byte)
    (codes : List CodeArrival) (channel : Nat) : Recovered :=
  let r1 := if correct then r.recover f samples codes channel else r
  if lost then { r1 with held := r1.code } else r1

/-- The channel of a circuit within its span (R2). -/
def channelOf (circuit : Nat) : Nat := circuit % 30 + 1

/-- The spare-bit history after a frame (R47). -/
def historyAfter (history : List Bool) (correct spare lost : Bool) : List Bool :=
  if lost then []
  else if correct then (if history.length < 7 then history ++ [spare] else history.tail ++ [spare])
  else []

/-- A copper marker is recognised at a frame (R47). -/
def isCopperMarker (history : List Bool) (correct spare : Bool) : Bool :=
  correct && spare && decide (history.length = 7) && history.all (fun b => !b)

def Span.framing (x : Span) : Side → Framing
  | .line => x.line
  | .switch => x.switch

def Span.setFraming (x : Span) (side : Side) (f : Framing) : Span :=
  match side with
  | .line => { x with line := f }
  | .switch => { x with switch := f }

def Channel.modSide (x : Channel) (side : Side) (f : Recovered → Recovered) : Channel :=
  match side with
  | .line => { x with line := f x.line }
  | .switch => { x with switch := f x.switch }

/-- The condition a side declares (R45). -/
def lossKind : Side → FaultKind
  | .line => .copperLos
  | .switch => .switchLos

/-- The records of a span and of its channels after a frame at one side (R44, R47). -/
def State.recordCopper (s : State) (side : Side) (span : Nat) (correct spare : Bool) (samples : List Byte)
    (codes : List CodeArrival) : State :=
  let old := (s.span span).framing side
  let new := old.examine correct
  let lost := !old.los && new.los
  let s1 := { s with channels := Table.mapIdx s.channels (fun n x =>
    if spanOf n = span then x.modSide side (fun r => r.step new correct lost samples codes (channelOf n)) else x) }
  s1.modSpan span (fun x =>
    match side with
    | .line => { x.setFraming side new with history := historyAfter x.history correct spare lost }
    | .switch => x.setFraming side new)

/-- A change of framing status is handed to the Fault Unit (R45). -/
def State.handLoss (s : State) (side : Side) (span : Nat) (before after : Bool) : State :=
  if before = after then s
  else if after then s.declare (lossKind side) span
  else s.clearFault (lossKind side) span

/-- The marker test of a frame finds no marker: the count rises where the span is cut and the peer is present, to at most
1024, and once in a frame (R48; log entry 19). -/
def Span.missMarker (x : Span) (present : Bool) : Span :=
  if x.tested then x
  else { x with
    tested := true
    lossCount := if x.state.cut ∧ present then min Config.markerLossLimit (x.lossCount + 1) else x.lossCount }

/-- A span's frame carried no marker (R48). -/
def State.missMarker (s : State) (span : Nat) : State := s.modSpan span (fun x => x.missMarker s.peerPresent)

/-- The span record at a recognised marker (R47, R48). -/
def State.markSpan (s : State) (span : Nat) : State :=
  (s.modSpan span (fun x => { x with tc := some s.frameCount, tested := true, lossCount := 0 })).clearMarkerLoss span

/-- MARKER_LOSS is due on a span (R48). -/
def Span.lossDue (x : Span) : Bool := x.state.cut && decide (Config.markerLossLimit ≤ x.lossCount) && !x.markerLoss

/-- MARKER_LOSS is declared where it is due (R48). -/
def State.declareMarkerLoss (s : State) (span : Nat) : State :=
  if (s.span span).lossDue then
    (s.modSpan span (fun x => { x with markerLoss := true })).declare .markerLoss span
  else s

end Sys2Proof.Machine
end

