-- ==== Sys2Proof/Machine/Alignment.lean ====
section
/-! DEFINITION. Machine/Alignment.lean: differential delay, measurement attempts, the lead, the cell pool's service
and the walks (chapter 6). -/

namespace Sys2Proof.Machine

/-! ### Differential delay (R88, R91) -/

/-- D of a copper marker at local frame count `tc` and a fibre marker at `tf` (R88). -/
def differentialDelay (tc tf : Nat) : Int :=
  let x := (tc + 4096 - tf % 4096) % 512
  if x ≤ 255 then (x : Int) else (x : Int) - 512

/-- A running attempt takes a D (R91). -/
def Ctx.takeD (x : Ctx) (d : Int) : Ctx :=
  { x with
    n := x.n + 1
    sum := x.sum + d
    min := match x.min with | some m => some (if d < m then d else m) | none => some d
    max := match x.max with | some m => some (if m < d then d else m) | none => some d }

/-- An attempt is running for a context on the span and has not reached its N (R88, R91). -/
def Ctx.measuresOn (x : Ctx) (span : Nat) : Bool :=
  x.state == .measure && x.running && decide (x.n < x.attemptN) && spanOf x.circuit == span

/-- D is handed to every attempt that is running on the span (R88). -/
def State.handD (s : State) (span : Nat) (d : Int) : State :=
  { s with contexts := Table.mapIdx s.contexts (fun _ x => if x.measuresOn span then x.takeD d else x) }

/-- A recognised copper marker at the Alignment Engine: D is formed where tf is present (R88, R89). -/
def State.formD (s : State) (span : Nat) : State :=
  match s.port.tf with
  | some tf => s.handD span (differentialDelay s.frameCount tf)
  | none => s

/-! ### The end of an attempt (R92, R94, R95) -/

/-- M: S / N rounded half away from zero (R94). -/
def meanOf (sum : Int) (n : Nat) : Int := sum.sign * (((2 * sum.natAbs + n) / (2 * n) : Nat) : Int)

/-- E from M (R94). -/
def Direction.leadOf : Direction → Int → Int
  | .toFibre, m => m
  | .toCopper, m => -m

/-- max − min of an attempt; 0 where none was taken. -/
def Ctx.spread (x : Ctx) : Int := x.max.getD 0 - x.min.getD 0

/-- The cell need of a context that goes to ALLOCATE (R95). -/
def Ctx.need (x : Ctx) : Nat := (x.lead.getD 0).natAbs + 2

/-- A measurement's completion is due: the running attempt's n has reached its N (R91, R92). -/
def Ctx.measurementDue (x : Ctx) : Bool := x.state == .measure && x.running && decide (x.attemptN ≤ x.n)

/-- A context enters ALLOCATE and joins the wait list; POOL_WAIT is raised unless the event POOL_SERVICE serves it at
once (R95, R100, R101). -/
def State.enterAllocate (s : State) (context : Nat) : State :=
  let need := (s.ctx context).need
  let s1 := s.modCtx context (fun x => { x with state := .allocate })
  let s2 := { s1 with pool := { s1.pool with
    waitList := s1.pool.waitList ++ [context]
    waitCount := if s1.pool.waitList.isEmpty then 0 else s1.pool.waitCount } }
  if s.pool.waitList.isEmpty ∧ need ≤ s.pool.free then s2
  else s2.raise { cls := .poolWait, subject := some (.context context), cause := none, value := valueOf need }

/-- A context with its E fixed goes on as the table of R95 says; the circuit's class is read now. -/
def State.prepareSwitch (s : State) (context : Nat) : State :=
  let e := (s.ctx context).lead.getD 0
  if e = 0 then s.enterReady context
  else if e < 0 ∧ (s.circuit (s.ctx context).circuit).cls = .data then
    (s.modCtx context (fun x => { x with idleOnly := true })).enterReady context
  else s.enterAllocate context

/-- The end of an attempt (R92). -/
def State.endAttempt (s : State) (context : Nat) : State :=
  let x := s.ctx context
  if x.spread ≤ (x.attemptLimit : Int) then
    (s.modCtx context (fun y => { y with
      running := false
      lead := some (y.direction.leadOf (meanOf y.sum y.attemptN)) })).prepareSwitch context
  else if x.attempt < 3 then s.beginAttempt context (x.attempt + 1)
  else s.abort context .alignUnstable

def State.measureIfDue (s : State) (context : Nat) : State :=
  if (s.ctx context).measurementDue then s.endAttempt context else s

/-! ### The start of attempt 1 (R90, R119) -/

/-- The context is in MEASURE, its attempt 1 has not begun, and its slot is live. -/
def State.attemptDue (s : State) (context : Nat) : Bool :=
  (s.ctx context).state == .measure && !(s.ctx context).begun && s.slotLive (s.ctx context).slot

/-- Attempt 1 begins under HITLESS and DRAIN; under FORCED the context enters READY with E absent (R90, R119). -/
def State.startAttempt (s : State) (context : Nat) : State :=
  let s1 := s.forget (.bridgeTimeout context)
  match (s.ctx context).policy with
  | .hitless => s1.beginAttempt context 1
  | .drain => s1.beginAttempt context 1
  | .forced => (s1.modCtx context (fun x => { x with begun := true })).enterReady context

def State.startIfDue (s : State) (context : Nat) : State :=
  if s.attemptDue context then s.startAttempt context else s

/-- The frames an attempt may last (R93). -/
def Ctx.attemptFrames (x : Ctx) : Nat := (x.attemptN + 2) * 512

/-- The timeout of a running attempt is due (R93). -/
def Ctx.markerTimeoutDue (x : Ctx) : Bool :=
  x.state == .measure && x.running && decide (x.attemptFrames ≤ x.elapsed)

def State.markerTimeoutIfDue (s : State) (context : Nat) : State :=
  if (s.ctx context).markerTimeoutDue then s.abort context .markerTimeout else s

/-! ### The cell pool (R100) -/

/-- The free count covers the need of the head of the wait list. -/
def State.poolDue (s : State) : Bool :=
  match s.pool.waitList with
  | [] => false
  | c :: _ => decide ((s.ctx c).need ≤ s.pool.free)

/-- The head is served: its cells, its preset and READY, or WALK_UP (R96, R98, R100). -/
def State.serve (s : State) (context : Nat) : State :=
  let x := s.ctx context
  let s1 := { s with pool := { free := s.pool.free - x.need, waitList := s.pool.waitList.tail, waitCount := 0 } }
  let s2 := s1.modCtx context (fun y => { y with cells := x.need })
  if 0 < x.lead.getD 0 then
    (s2.modCircuit x.circuit (fun c => c.presetOn x.direction.targetPath (x.lead.getD 0).toNat)).enterReady context
  else s2.modCtx context (fun y => { y with state := .walkUp })

/-- Heads are served in turn while the free count covers their need; at most `k` of them. -/
def State.servicePool (s : State) : Nat → State
  | 0 => s
  | k + 1 =>
    match s.pool.waitList with
    | [] => s
    | c :: _ => if s.poolDue then State.servicePool (s.serve c) k else s

/-- The wait list holds at most eight contexts (R100). -/
def State.serviceAll (s : State) : State := s.servicePool 8

/-- The pool-wait timeout of the head is due (R101). -/
def State.poolTimeoutDue (s : State) : Bool :=
  !s.pool.waitList.isEmpty && decide (s.align.poolTimeout < s.pool.waitCount)

/-- The head is aborted with POOL_TIMEOUT where its timeout is due (R101). -/
def State.poolTimeoutIfDue (s : State) : State :=
  match s.pool.waitList with
  | [] => s
  | c :: _ => if s.poolTimeoutDue then s.abort c .poolTimeout else s

/-! ### Walks (R97, R98, R104) -/

/-- An insert of a circuit's context in WALK_UP; at −E the context enters READY (R98). -/
def State.walkInsert (s : State) (n context : Nat) : State :=
  let x := s.ctx context
  let s1 := s.modCircuit n (fun c => c.insertOn x.direction.currentPath)
  if (x.lead.getD 0).natAbs ≤ (s1.circuit n).delay x.direction.currentPath then s1.enterReady context else s1

/-- A slip of a VOICE circuit's residual (R104, R105). -/
def State.walkSlip (s : State) (n : Nat) : State :=
  let c := s.circuit n
  let back := if c.residual = 1 then c.cellsHeld else 1
  let s1 := (s.modCircuit n (fun c => { c.slipOn c.residualPath with
    residual := c.residual - 1, cellsHeld := c.cellsHeld - back })).returnCells back
  if c.residual = 1 then
    s1.raise { cls := .walkDone, subject := some (.circuit n), cause := none, value := valueOf back }
  else s1

/-- What a walk slot of a circuit does. -/
def State.walkCircuit (s : State) (n : Nat) : State :=
  let c := s.circuit n
  match c.context with
  | some k =>
    if (s.ctx k).state = .walkUp then s.walkInsert n k
    else if 0 < c.residual ∧ c.cls = .voice then s.walkSlip n else s
  | none => if 0 < c.residual ∧ c.cls = .voice then s.walkSlip n else s

/-- The walk slot of a boundary: the circuits whose number mod W is the walk counter, in ascending number; then the
counter advances (R97). DESIGN CHOICE (log entry 3): the pool serves its head after the whole slot, so a context that a slip
of the slot lets be served makes its first insert at the next walk slot (R98 lets either come first). -/
def State.walk (s : State) : State :=
  let s1 := (allCircuits.filter (fun n => n % s.align.walkInterval == s.align.walkCounter)).foldl
    State.walkCircuit s
  { s1 with align := { s1.align with walkCounter := (s.align.walkCounter + 1) % s.align.walkInterval } }

end Sys2Proof.Machine
end

