-- ==== Sys2Proof/Machine/Map.lean ====
section
/-! DEFINITION. Machine/Map.lean: the apply of the staging list (R79, R80), the map digest (R82, R189) and its
comparison with the peer's (R83). -/

namespace Sys2Proof.Machine

/-! ### The digest -/

/-- One byte of the mask, the lowest-numbered slot in the most significant bit (R189). -/
def maskByte (a b c d e f g h : Bool) : Byte :=
  BitVec.ofNat 8 (128 * a.toNat + 64 * b.toNat + 32 * c.toNat + 16 * d.toNat + 8 * e.toNat + 4 * f.toNat
    + 2 * g.toNat + h.toNat)

/-- The mask of the map, eight slots to a byte (R189). -/
def maskBytes : List Bool → List Byte
  | a :: b :: c :: d :: e :: f :: g :: h :: rest => maskByte a b c d e f g h :: maskBytes rest
  | _ => []

/-- The digest of a map: the CRC-16 of its mask (R82, R189). -/
def digestOf (entries : Vector (Option Nat) 512) : BitVec 16 :=
  crc16 (maskBytes ((Table.toList entries).map Option.isSome))

/-! ### The apply -/

/-- A slot is bound to a circuit, or freed, in the entry and in the reverse link together (R73). -/
def State.bind (s : State) (slot circuit : Nat) : State :=
  { s.modCircuit circuit (fun c => { c with slot := some slot }) with
    map := { s.map with entries := Table.put s.map.entries slot (some circuit) } }

def State.unbind (s : State) (slot circuit : Nat) : State :=
  { s.modCircuit circuit (fun c => { c with slot := none }) with
    map := { s.map with entries := Table.put s.map.entries slot none } }

/-- The circuit of a slot may be released (R79). -/
def State.releasable (s : State) (slot circuit : Nat) : Bool :=
  (s.circuit circuit).state == .copper && !s.queued circuit && (s.circuit circuit).context.isNone
    && !s.abortingHolds slot

/-- Why an edit fails against the working copy `w`, if it does (R79). -/
def State.editFails (w : State) : Edit → Option Cause
  | .assign slot circuit =>
    if (w.boundTo slot).isSome then some .slotAssigned
    else if (w.circuit circuit).slot.isSome then some .circuitMapped
    else none
  | .release slot =>
    match w.boundTo slot with
    | none => some .slotFree
    | some n => if w.releasable slot n then none else some .circuitInUse

/-- An edit that passes is made in the working copy (R79). -/
def State.makeEdit (w : State) : Edit → State
  | .assign slot circuit => w.bind slot circuit
  | .release slot =>
    match w.boundTo slot with
    | none => w
    | some n => w.unbind slot n

/-- The edits judged in list order against the working copy: the copy with all of them made, or the first that
fails, with its position and reason (R79). -/
def State.judge (w : State) (position : Nat) : List Edit → State ⊕ (Nat × Cause × Edit)
  | [] => .inl w
  | e :: rest =>
    match w.editFails e with
    | some c => .inr (position, c, e)
    | none => State.judge (w.makeEdit e) (position + 1) rest

/-- An edit as response data: its form, its slot and, for an ASSIGN, its circuit (R85). -/
def Edit.bytes : Edit → List Byte
  | .assign slot circuit => u8 0 ++ u16 slot ++ u16 circuit
  | .release slot => u8 1 ++ u16 slot

/-- The circuits whose slot an apply has changed, in ascending number. -/
def slotChanges (s w : State) : List Nat :=
  allCircuits.filter (fun n => (s.circuit n).slot != (w.circuit n).slot)

/-- A successful apply: `w` is the working copy with every edit made (R80, R82, R83). -/
def State.adopt (s w : State) : State :=
  let d := digestOf w.map.entries
  let s1 := { w with map := { w.map with
    staging := [], ownDigest := d, run := if d = s.map.ownDigest then s.map.run else 0 } }
  (s1.raise { cls := .mapApplied, subject := none, cause := none, value := some d }).reconditionAll
    (slotChanges s w)

/-- The apply: its state, its status and its response data (R79, R80). -/
def State.applyEdits (s : State) : State × Status × List Byte :=
  match s.judge 0 s.map.staging with
  | .inl w => (s.adopt w, .ok, u8 s.map.staging.length ++ u16 (digestOf w.map.entries).toNat)
  | .inr (position, reason, e) => (s, .refusedState, u8 position ++ u8 reason.code ++ e.bytes)

/-- The pending apply is made, and link B answers, or, where its response was cancelled, leaves ANSWERING (R78, R80,
R174). DESIGN CHOICE (log entry 30): the response and its flags are taken at this event, before any event of the same
boundary that is taken later. -/
def State.makeApply (s : State) : State :=
  if s.map.applyPending then
    let r := s.applyEdits
    let s1 : State := { r.1 with map := { r.1.map with applyPending := false, applyAnswer := false } }
    if s.map.applyAnswer then s1.answer .b r.2.1 r.2.2
    else if s1.linkB.rx = .answering then s1.modLink .b (fun k => { k with rx := .hunt })
    else s1
  else s

/-! ### Comparison with the peer's digest (R83) -/

/-- A DIGEST word is compared with the own digest (R83). -/
def State.takeDigest (s : State) (d : BitVec 16) : State :=
  let m := s.map
  if m.mismatch then
    if d = m.ownDigest then
      if 3 ≤ m.run + 1 then
        State.clearFault { s with map := { m with peerDigest := some d, mismatch := false, run := 0 } } .mapMismatch 0
      else { s with map := { m with peerDigest := some d, run := m.run + 1 } }
    else { s with map := { m with peerDigest := some d, run := 0 } }
  else if d = m.ownDigest then { s with map := { m with peerDigest := some d, run := 0 } }
  else if 3 ≤ m.run + 1 then
    State.declare { s with map := { m with peerDigest := some d, mismatch := true, run := 0 } } .mapMismatch 0
  else { s with map := { m with peerDigest := some d, run := m.run + 1 } }

end Sys2Proof.Machine
end

