-- ==== Sys2Proof/Machine/Exchange.lean ====
section
/-! DEFINITION. Machine/Exchange.lean: what the Peer Exchange does with a valid exchange word (chapter 8), and what a
context does with a confirmed peer step (R116, R117, R118, R145). -/

namespace Sys2Proof.Machine

/-! ### The peer view (R139, R140) -/

/-- The entry of the peer view for a slot. -/
def State.viewEntry (s : State) (slot : Nat) : Option ViewEntry := s.peer.view.find? (fun e => e.slot == slot)

/-- The view is kept in ascending slot order, the order in which it is read (R149). -/
def insertView (e : ViewEntry) : List ViewEntry → List ViewEntry
  | [] => [e]
  | x :: rest => if e.slot < x.slot then e :: x :: rest else x :: insertView e rest

/-- An entry of a word's slot after the word (R139). -/
def ViewEntry.sight (e : ViewEntry) (step : Step) (w : ExchangeWord) : ViewEntry :=
  { e with
    step := step
    argument := w.argument
    site := w.site
    seen := if e.step = step then min 255 (e.seen + 1) else 1
    age := 0 }

/-- A new entry from a word (R139). -/
def ViewEntry.first (step : Step) (w : ExchangeWord) : ViewEntry :=
  { slot := w.slot, step := step, argument := w.argument, site := w.site, seen := 1, age := 0 }

/-- A word updates the peer view, or is ignored and counted where the table is full (R139). -/
def State.updateView (s : State) (step : Step) (w : ExchangeWord) : State :=
  let p := s.peer
  if (s.viewEntry w.slot).isSome then
    { s with peer := { p with view := p.view.map (fun e => if e.slot = w.slot then e.sight step w else e) } }
  else if p.view.length < Config.viewLimit then
    { s with peer := { p with view := insertView (ViewEntry.first step w) p.view } }
  else { s with peer := { p with viewFull := min 65535 (p.viewFull + 1) } }

/-- An entry is confirmed while its seen count is 2 or more (R139). -/
def ViewEntry.confirmed (e : ViewEntry) : Bool := decide (2 ≤ e.seen)

/-- An entry's removal by age is due (R140). -/
def ViewEntry.agedOut (e : ViewEntry) : Bool := decide (Config.ageLimit ≤ e.age)

/-- An entry whose age has reached 96 is removed, and the removal is handed to the slot's busy context (R116, R140). -/
def State.ageOut (s : State) (slot : Nat) : State :=
  match s.viewEntry slot with
  | some e =>
    if e.agedOut then
      let s1 := { s with peer := { s.peer with view := s.peer.view.filter (fun x => x.slot != slot) } }
      match s1.holder slot with
      | some c => s1.modCtx c (fun x => { x with peerEntry := false })
      | none => s1
    else s
  | none => s

/-! ### Peer conditions (R146, R147) -/

/-- A declaration of PEER_SILENT is due (R146). -/
def State.silentDue (s : State) : Bool :=
  !s.peer.silent && (match s.port.wordAge with | some a => decide (s.peer.silentTime ≤ a) | none => false)

/-- PEER_SILENT is declared where it is due (R146). -/
def State.declareSilentIfDue (s : State) : State :=
  if s.silentDue then State.declare { s with peer := { s.peer with silent := true } } .peerSilent 0 else s

/-- A valid word clears PEER_SILENT (R146). -/
def State.clearSilent (s : State) : State :=
  if s.peer.silent then State.clearFault { s with peer := { s.peer with silent := false } } .peerSilent 0 else s

/-- The site of a valid word is judged (R147). -/
def State.judgeSite (s : State) (site : Nat) : State :=
  let p := s.peer
  if p.clash then
    if site = s.ownSite then { s with peer := { p with clashRun := 0 } }
    else if 3 ≤ p.clashRun + 1 then
      State.clearFault { s with peer := { p with clash := false, clashRun := 0 } } .siteClash 0
    else { s with peer := { p with clashRun := p.clashRun + 1 } }
  else if site = s.ownSite then State.declare { s with peer := { p with clash := true } } .siteClash 0
  else s

/-! ### Confirmed steps at a context (R116, R117, R126, R145) -/

/-- The direction a request asks for (R118). -/
def Step.requested : Step → Option Direction
  | .reqFibre => some .toFibre
  | .reqCopper => some .toCopper
  | .bridged => none
  | .ready => none
  | .switched => none
  | .abort => none
  | .reject => none
  | .digest => none

/-- A confirmed peer ABORT: a deferral where it carries DEFERRED_DATA to a context with a served entry (R116, R126). -/
def State.peerAborts (s : State) (context : Nat) (argument : Byte) : State :=
  if argument = Cause.deferredData.byte ∧ (s.ctx context).served.isSome then s.defer context
  else s.abort context .peerAbort (some argument)

/-- A context in REQUEST becomes the responder (R145). -/
def State.becomeResponder (s : State) (context : Nat) : State :=
  (s.modCtx context (fun x => { x with role := .responder })).enterMeasure context

/-- Glare: a confirmed REQ of direction `d` from site `site` meets a context in REQUEST (R145). -/
def State.glare (s : State) (context : Nat) (d : Direction) (site : Nat) : State :=
  if site < s.ownSite then s
  else if s.ownSite < site ∧ (s.ctx context).direction = d then s.becomeResponder context
  else s.abort context .glare

/-- A switch becomes due: the step timer stops (R121). -/
def State.makeDue (s : State) (context : Nat) : State :=
  s.modCtx context (fun x => { x with switchDue := true, stepRunning := false })

/-- A context records a confirmed step and argument and sets its peer-entry mark (R116; log entry 13). -/
def State.record (s : State) (context : Nat) (step : Step) (argument : Byte) : State :=
  s.modCtx context (fun x => { x with lastStep := some (step, argument), peerEntry := true })

/-- What a context does by its state with a confirmed step (the table of R116). A completion that the step makes due is
the event CONTEXT_COMPLETION (R122). -/
def State.actOn (s : State) (context : Nat) (step : Step) (argument : Byte) (site : Nat) : State :=
  match (s.ctx context).state, step with
  | .request, .bridged => s.enterMeasure context
  | .request, .abort => s.peerAborts context argument
  | .request, .reject => s.abort context .peerReject (some argument)
  | .request, .reqFibre => s.glare context .toFibre site
  | .request, .reqCopper => s.glare context .toCopper site
  | .measure, .abort => s.peerAborts context argument
  | .measure, .reject => s.abort context .peerReject (some argument)
  | .allocate, .abort => s.peerAborts context argument
  | .allocate, .reject => s.abort context .peerReject (some argument)
  | .walkUp, .abort => s.peerAborts context argument
  | .walkUp, .reject => s.abort context .peerReject (some argument)
  | .ready, .ready => s.makeDue context
  | .ready, .switched => s.makeDue context
  | .ready, .abort => s.peerAborts context argument
  | .ready, .reject => s.abort context .peerReject (some argument)
  | .switched, .abort => s.peerAborts context argument
  | .switched, .reject => s.abort context .peerReject (some argument)
  | _, _ => s

/-- A confirmation is handed to the context that holds the slot (R116, R141). -/
def State.confirm (s : State) (context : Nat) (e : ViewEntry) : State :=
  (s.record context e.step e.argument).actOn context e.step e.argument e.site

/-! ### Steps that no local context takes (R141 to R144) -/

/-- The responder checks on a slot's circuit after check 1 (R142). -/
def State.circuitRejects (s : State) (d : Direction) (n : Nat) : Option Cause :=
  let c := s.circuit n
  let g := s.groupOf n
  if !c.equipped || !s.spanInserted n then some .notReady
  else if c.held || g.frozen || (d == .toFibre && g.lockedOut) then some .held
  else if !d.admits c.state then some .state
  else if c.residual != 0 then some .state
  else if s.halted then some .halted
  else if s.noContext then some .noContext
  else none

/-- The reject cause of a request, if any check fails (R142). -/
def State.rejects (s : State) (d : Direction) (slot : Nat) : Option Cause :=
  match s.boundTo slot with
  | none => some .unmapped
  | some n => s.circuitRejects d n

/-- A request is accepted into a FREE context (R118). -/
def State.accept (s : State) (d : Direction) (slot circuit context : Nat) : State :=
  let entry := s.queue.find? (fun e => e.circuit == circuit)
  let same := entry.filter (fun e => e.direction == d)
  let other := entry.filter (fun e => e.direction != d)
  let s1 := { s with queue := s.queue.filter (fun e => e.circuit != circuit) }
  let s2 := s1.setCtx context { s.newCtx .responder d circuit slot with served := same, parked := other }
  let s3 := ((s2.migrate circuit context).makeContextEntry context slot .bridged).enterMeasure context
  (s3.raise { cls := .admitted, subject := some (.circuit circuit), cause := none,
              value := valueOf (context + 8) }).recondition circuit

/-- The responder checks of a confirmed request, with their REJECT or their acceptance (R142). -/
def State.judgeRequest (s : State) (d : Direction) (slot : Nat) : State :=
  match s.rejects d slot, s.boundTo slot, s.freeContext with
  | some cause, _, _ => s.makeLinger slot .reject cause.byte
  | none, some n, some context => s.accept d slot n context
  | none, _, _ => s

/-- The answer to a confirmed step for a slot that no busy context holds (R141, R144). -/
def State.answerStep (s : State) (slot : Nat) (step : Step) : State :=
  match step with
  | .reqFibre => if s.lingerFor slot (fun x => x == .abort) then s else s.judgeRequest .toFibre slot
  | .reqCopper => if s.lingerFor slot (fun x => x == .abort) then s else s.judgeRequest .toCopper slot
  | .bridged => stale s slot
  | .ready => stale s slot
  | .switched => stale s slot
  | .abort => s
  | .reject => s
  | .digest => s
where
  /-- A stale step is answered unless a linger for the slot stands (R144). -/
  stale (s : State) (slot : Nat) : State :=
    if s.lingerFor slot (fun _ => true) then s else s.makeLinger slot .abort Cause.noContext.byte

/-- A sighting that leaves the slot's entry confirmed is dispatched (R141). -/
def State.dispatchSighting (s : State) (slot : Nat) : State :=
  match s.viewEntry slot with
  | some e =>
    if e.confirmed then
      match s.holder slot with
      | some c => s.confirm c e
      | none => s.answerStep slot e.step
    else s
  | none => s

/-! ### A valid word (R65, R138) -/

/-- A word with a step updates the view and is dispatched (R138, 4 and 5). -/
def State.takeStep (s : State) (step : Step) (w : ExchangeWord) : State :=
  (s.updateView step w).dispatchSighting w.slot

/-- The Peer Exchange takes a valid word (R138). -/
def State.exchangeWord (s : State) (w : ExchangeWord) : State :=
  let s1 := s.judgeSite w.site
  match readStep w.step with
  | none => s1
  | some .digest => s1.takeDigest w.digest
  | some step => s1.takeStep step w

/-- A valid word at the port: the word age becomes 0 and PEER_SILENT clears, then the Peer Exchange takes it (R65,
R146). -/
def State.validWord (s : State) (w : ExchangeWord) : State :=
  (State.clearSilent { s with port := { s.port with wordAge := some 0 } }).exchangeWord w

end Sys2Proof.Machine
end

