-- ==== Sys2Proof/Machine/Fibre.lean ====
section
/-! DEFINITION. Machine/Fibre.lean: the receiver of the Fibre Port (R61 to R66, R68, R69). -/

namespace Sys2Proof.Machine

/-- The 512 samples of a received frame (section 12.1). -/
def frameSamples (bytes : List Byte) : List Byte := (bytes.drop 24).take 512

/-- The 32 codes of a received frame's signalling block (section 12.1). -/
def frameCodes (bytes : List Byte) : List Code := unpackCodes ((bytes.drop 8).take 16)

/-- A frame's samples are delivered; only an assigned slot's sample reaches a circuit, when it is taken (R63, R64). -/
def FibrePort.deliver (p : FibrePort) (bytes : List Byte) : FibrePort :=
  { p with samples := Table.mapIdx p.samples (fun i x => (frameSamples bytes).getD i x) }

/-- The signalling block of a good frame replaces the codes of its 32 slots (R63). -/
def FibrePort.refresh (p : FibrePort) (bytes : List Byte) : FibrePort :=
  { p with codes := Table.mapIdx p.codes (fun i c =>
      if i / 32 = frameSequence bytes % 16 then (frameCodes bytes).getD (i % 32) c else c) }

/-- A fibre marker is a good frame whose sequence is a multiple of 512 (R68). -/
def FibrePort.mark (p : FibrePort) (bytes : List Byte) (now : Nat) : FibrePort :=
  if frameSequence bytes % 512 = 0 then { p with tf := some now } else p

/-- The circuits in FIBRE_ONLY, whose conditioning reads the liveness of their slots (R164). -/
def State.fibreOnly (s : State) : List Nat := allCircuits.filter (fun n => (s.circuit n).state == .fibreOnly)

/-- The exchange word of a good frame is checked and handed on (R65). -/
def State.checkWord (s : State) (bytes : List Byte) : State :=
  if crc8 ((bytes.drop 4).take 3) = byteAt bytes 7 then
    s.validWord (ExchangeWord.read (byteAt bytes 4) (byteAt bytes 5) (byteAt bytes 6))
  else { s with port := { s.port with wordChecks := min 65535 (s.port.wordChecks + 1) } }

/-- A good frame: samples, signalling block, marker, exchange word (R63). -/
def State.goodFrame (s : State) (bytes : List Byte) : State :=
  let s1 := { s with port := ((s.port.deliver bytes).refresh bytes).mark bytes s.frameCount }
  (s1.reconditionAll s1.fibreOnly).checkWord bytes

/-- An errored frame (R64). The window count stays at 8000 (R57; log entry 35, DESIGN CHOICE). -/
def State.erroredFrame (s : State) (bytes : List Byte) : State :=
  let p := s.port.deliver bytes
  { s with port := { p with
      erroredFrames := (p.erroredFrames + 1) % 4294967296
      windowCount := min 8000 (p.windowCount + 1) } }

/-- A frame with a correct alignment word, received while aligned, is good or errored (R63, R64). -/
def State.judgeFrame (s : State) (bytes : List Byte) : State :=
  if frameCheckGood bytes then s.goodFrame bytes else s.erroredFrame bytes

/-- FIBRE_LOS is declared (R61, R62). -/
def State.loseFibre (s : State) : State :=
  let s1 := { s with port := { s.port with
    los := true
    run := 0
    trial := none
    position := none
    heldCodes := s.port.codes
    codes := Table.fill 512 Config.vacant
    samples := Table.fill 512 0xFF
    tf := none
    lossMark := true } }
  let s2 := s1.declare .fibreLos 0
  s2.reconditionAll s2.fibreOnly

/-- FIBRE_LOS clears, and the frame that clears it is processed (R61, R62). -/
def State.regainFibre (s : State) (position : Nat) (bytes : List Byte) : State :=
  (State.clearFault { s with port := { s.port with
    los := false
    run := 0
    trial := none
    position := some position } } .fibreLos 0).judgeFrame bytes

/-! ### The bit stream (R61, R190)

A bit of the stream is named by its place in the bytes of the local frame before followed by those of the present one, each
byte most significant bit first. A frame position is such a place modulo 4304, the bits of a frame: the place of the frame's
first bit within a local frame (log entry 12). -/

/-- The byte that `k` bits of `a` after its first ones, and the first bits of `b`, make. -/
def joinBits (k : Nat) (a b : Byte) : Byte := BitVec.ofNat 8 ((256 * a.toNat + b.toNat) >>> (8 - k))

/-- The bytes of a stream from its bit `k` on, `k` below 8. -/
def shiftBits (k : Nat) : List Byte → List Byte
  | [] => []
  | [a] => [joinBits k a 0]
  | a :: b :: rest => joinBits k a b :: shiftBits k (b :: rest)

/-- The frame whose first bit is bit `i` of a stream. -/
def frameAt (stream : List Byte) (i : Nat) : List Byte := (shiftBits (i % 8) (stream.drop (i / 8))).take 538

/-- A frame of bits (R61). -/
def frameBits : Nat := 4304

/-- The place in the stream of the frame at a position that arrives in the present local frame: the one whose last byte
arrives in it. `before` are the bytes of the local frame before. -/
def arrivalAt (before : List Byte) (position : Nat) : Nat := if position = 0 then 8 * before.length else position

/-- The first place at which a frame arriving in the present local frame can begin. -/
def firstArrival (before : List Byte) : Nat := 8 * before.length + 1 - frameBits

/-- The places from `i` on at which a frame that arrives in the present local frame can begin. -/
def arrivalsFrom (stream : List Byte) (i : Nat) : List Nat := List.range' i (8 * stream.length + 1 - frameBits - i)

/-- What a hunt finds: the place of an alignment word makes a trial position with run count 1; where none is found, the hunt
goes on in the next local frame (R61). -/
def FibrePort.found (p : FibrePort) : Option Nat → FibrePort
  | some k => { p with trial := some (k % frameBits), run := 1 }
  | none => { p with trial := none, run := 0 }

/-- The receiver hunts from a bit of the stream on, and takes the first alignment word (R61). -/
def State.hunt (s : State) (stream : List Byte) (i : Nat) : State :=
  { s with port := s.port.found ((arrivalsFrom stream i).find? (fun k => alignmentGood (frameAt stream k))) }

/-- The receiver aligned at a position examines its alignment word (R61): a frame with a correct word is judged, one with a
wrong word is errored, and the 4th consecutive wrong word loses the fibre and begins the hunt at the next bit. -/
def State.receiveAligned (s : State) (stream : List Byte) (i : Nat) : State :=
  if alignmentGood (frameAt stream i) then
    State.judgeFrame { s with port := { s.port with run := 0 } } (frameAt stream i)
  else if 4 ≤ s.port.run + 1 then s.loseFibre.hunt stream (i + 1)
  else State.erroredFrame { s with port := { s.port with run := s.port.run + 1 } } (frameAt stream i)

/-- The receiver with a trial position examines its alignment word (R61): the third consecutive correct word regains the
fibre, and a wrong one resumes the hunt at the bit after it. -/
def State.receiveTrial (s : State) (stream : List Byte) (position i : Nat) : State :=
  if alignmentGood (frameAt stream i) then
    if 3 ≤ s.port.run + 1 then s.regainFibre position (frameAt stream i)
    else { s with port := { s.port with run := s.port.run + 1 } }
  else s.hunt stream (i + 1)

/-- The bits of one local frame arrive: those from bit `position` of `bytes` on (R61). -/
def State.receiveCarriage (s : State) (position : Nat) (bytes : List Byte) : State :=
  let before := s.port.stream
  let present := frameAt bytes position
  let stream := before ++ present
  let u := { s with port := { s.port with stream := present } }
  if s.port.los then
    match s.port.trial with
    | none => u.hunt stream (firstArrival before)
    | some p => u.receiveTrial stream p (arrivalAt before p)
  else
    match s.port.position with
    | none => u
    | some p => u.receiveAligned stream (arrivalAt before p)

/-! ### The errored-frame window (R66) -/

/-- The judgement of a window that ends (R66). -/
def State.judgeWindow (s : State) : State :=
  let p := s.port
  if p.lossMark then s
  else if p.threshold ≤ p.windowCount then
    if p.err then s else State.declare { s with port := { p with err := true } } .fibreErr 0
  else if p.err then State.clearFault { s with port := { p with err := false } } .fibreErr 0
  else s

/-- The end of a window, where its position has reached 500 (R66). -/
def State.endWindow (s : State) : State :=
  if Config.windowLength ≤ s.port.windowPosition then
    let s1 := s.judgeWindow
    { s1 with port := { s1.port with windowPosition := 0, windowCount := 0, lossMark := s1.port.los } }
  else s

end Sys2Proof.Machine
end

