-- ==== Sys2Proof/Machine/Settle.lean ====
section
/-! DEFINITION. Machine/Settle.lean: the events that the rules put at the same event as their cause, settled before
anything else is taken (log entry 3), and how a row of the table and a controller command are taken (R10, R173). -/

namespace Sys2Proof.Machine

/-- What of a context falls due at the same event as its cause: a completion (R122), the start of attempt 1 (R90) and
the end of an attempt (R92), with the pool's service before each (R100). -/
def State.settleContext (s : State) (context : Nat) : State :=
  (((s.serviceAll.completeIfDue context).startIfDue context).measureIfDue context)

/-- Everything that falls due at the same event as its cause (log entry 3). -/
def State.settle (s : State) : State :=
  (contextNumbers.foldl State.settleContext s.declareSilentIfDue).serviceAll

/-- Nothing of a context falls due at once. -/
def State.quietAt (s : State) (context : Nat) : Bool :=
  !(s.ctx context).completionDue && !s.attemptDue context && !(s.ctx context).measurementDue

/-- Nothing falls due at once: `settle` changes nothing (`settle_of_quiet`). -/
def State.quiet (s : State) : Bool := !s.silentDue && !s.poolDue && contextNumbers.all s.quietAt

/-- A row of the table at a powered part: what falls due at once is settled, then the row acts. Without power nothing
happens (R55; log entry 20). -/
def State.event (s : State) (act : State → State) : State := if s.powered then act s.settle else s

/-- An event of the present boundary: carried out when it is owed, once (log entries 2 and 4). -/
def State.owedEvent (s : State) (e : BoundaryEvent) (act : State → State) : State :=
  s.event (fun t => t.takeOwed e act)

/-! ### Controller commands (R10, R173, R174) -/

/-- A command's outcome at its owning block: the state it leaves, the status and the response data. -/
structure Reply where
  state : State
  status : Status
  data : List Byte
deriving DecidableEq, Repr

/-- Carried out as asked, or clamped, with its data. -/
def State.done (s : State) (status : Status) (data : List Byte) : Reply := ⟨s, status, data⟩

/-- Refused: nothing changes (R175). -/
def State.refuse (s : State) (status : Status) : Reply := ⟨s, status, []⟩

/-- The roles of section 10.6. -/
inductive CommandRole where
  | switch | transport | either
deriving DecidableEq, Repr

/-- The command is permitted to the role of the link (R173, check 2): link A is the switch role, link B the transport
role. -/
def CommandRole.permits : CommandRole → Link → Bool
  | .switch, .a => true
  | .switch, .b => false
  | .transport, .a => false
  | .transport, .b => true
  | .either, _ => true

/-- A pending apply keeps link B closed (R174). -/
def State.closed (s : State) (l : Link) : Bool := l == .b && s.map.applyPending

/-- A link takes frames: it holds a bit rate and is not answering (R169, R171, R174). -/
def RxState.listens : RxState → Bool
  | .unsynced => false
  | .syncWait => false
  | .hunt => true
  | .inFrame => true
  | .answering => false

/-- A command arrives at its block: the part has an address of its own (R178), and the command is the one the link has
handed over, or it comes directly to a link that takes frames (log entries 6 and 26). -/
def State.takes (s : State) (l : Link) (i : Instr) : Bool :=
  s.ownAddress != 63
    && ((s.link l).handed == some i
      || ((s.link l).handed.isNone && (s.link l).rx.listens && !s.closed l))

/-- The receive state while a command is answered: ANSWERING, but a link that has no rate stays as it is (R169,
R174). -/
def RxState.answer : RxState → RxState
  | .unsynced => .unsynced
  | .syncWait => .syncWait
  | .hunt => .answering
  | .inFrame => .answering
  | .answering => .answering

/-- The link's record as its command is taken (R173, R174). -/
def LinkRec.taken (k : LinkRec) : LinkRec :=
  { k with handed := none, response := none, rx := k.rx.answer, buffer := [] }

/-- A link's command is answered: the link has taken it, and the response is built with the flags as they stand (R173,
R174). -/
def State.respond (s : State) (l : Link) (status : Status) (data : List Byte) : State :=
  (s.modLink l LinkRec.taken).answer l status data

/-- A command is taken: its role is checked, its block carries it out or refuses it, and it is answered (R173, R174). A
command that no open link carries is lost. -/
def State.command (s : State) (l : Link) (role : CommandRole) (i : Instr) (body : State → Reply) : State :=
  s.event (fun t =>
    if t.takes l i then
      if role.permits l then (body t).state.respond l (body t).status (body t).data
      else t.respond l .notPermitted []
    else t)

end Sys2Proof.Machine
end

