-- ==== Sys2Proof/Machine/Circuits.lean ====
section
/-! DEFINITION. Machine/Circuits.lean: the commands on circuits and groups (R12 to R18, R20, R21) and SET_SIGNALLING
(R37, R38). Each has its body, at the owning block, and its meaning. -/

namespace Sys2Proof.Machine

/-- A circuit identity is in range (R10). -/
def circuitOk (n : Nat) : Bool := decide (n < 480)

/-- A circuit with both filters at a group's IDLE code (R12, R13, R15). -/
def Circuit.idleFilters (c : Circuit) (idle : Code) : Circuit :=
  { c with forward := Filter.holding idle, backward := Filter.holding idle }

/-! ### EQUIP (R12) -/

/-- A circuit's record after EQUIP (R12). -/
def Circuit.equip (c : Circuit) (group : Nat) (cls : TrafficClass) (idle : Code) : Circuit :=
  { c.idleFilters idle with equipped := true, group := group, cls := cls, call := .idle, lastAbort := none }

def State.equip (s : State) (circuit group : Nat) (cls : TrafficClass) : State :=
  (s.modCircuit circuit (fun c => c.equip group cls (s.group group).idle)).recondition circuit

def State.bodyEquip (s : State) (circuit group cls : Nat) : Reply :=
  if circuitOk circuit ∧ group < 16 then
    match readClass cls with
    | some k => if (s.circuit circuit).equipped then s.refuse .refusedState else (s.equip circuit group k).done .ok []
    | none => s.refuse .badParam
  else s.refuse .badParam

def State.cmdEquip (s : State) (l : Link) (circuit group cls : Nat) : State :=
  s.command l .switch (.equip l circuit group cls) (fun t => t.bodyEquip circuit group cls)

/-- EQUIP (R12). -/
def execEquip (l : Link) (circuit group cls : Nat) (s : State) : Host.Outcome State Fault Refusal :=
  .next (s.cmdEquip l circuit group cls)

/-! ### UNEQUIP (R13) -/

/-- The drop of a residual that UNEQUIP makes, where there is one (R13). -/
def Circuit.dropForUnequip (c : Circuit) : Circuit :=
  if c.residual = 0 then c else { c.dropOn c.residualPath with residual := 0, residualPath := .copper, cellsHeld := 0 }

/-- A circuit's record after UNEQUIP (R13). -/
def Circuit.unequip (c : Circuit) (idle : Code) : Circuit :=
  { c.dropForUnequip.idleFilters idle with equipped := false, call := .idle, conditioned := false }

def State.unequip (s : State) (circuit : Nat) : State :=
  let c := s.circuit circuit
  ((s.modCircuit circuit (fun c => c.unequip (s.group c.group).idle)).modGroup c.group
    (fun g => if c.call.busy then { g with busyCount := g.busyCount - 1 } else g)).returnCells
    (if c.residual = 0 then 0 else c.cellsHeld)

def State.bodyUnequip (s : State) (circuit : Nat) : Reply :=
  if circuitOk circuit then
    if !(s.circuit circuit).equipped || (s.circuit circuit).state != .copper || s.queued circuit then
      s.refuse .refusedState
    else (s.unequip circuit).done .ok []
  else s.refuse .badParam

def State.cmdUnequip (s : State) (l : Link) (circuit : Nat) : State :=
  s.command l .switch (.unequip l circuit) (fun t => t.bodyUnequip circuit)

/-- UNEQUIP (R13). -/
def execUnequip (l : Link) (circuit : Nat) (s : State) : Host.Outcome State Fault Refusal :=
  .next (s.cmdUnequip l circuit)

/-! ### SET_CLASS (R14) -/

def State.bodySetClass (s : State) (circuit cls : Nat) : Reply :=
  if circuitOk circuit then
    match readClass cls with
    | some k =>
      if (s.circuit circuit).state != .copper || s.queued circuit || (s.circuit circuit).residual != 0 then
        s.refuse .refusedState
      else (s.modCircuit circuit (fun c => { c with cls := k })).done .ok []
    | none => s.refuse .badParam
  else s.refuse .badParam

def State.cmdSetClass (s : State) (l : Link) (circuit cls : Nat) : State :=
  s.command l .switch (.setClass l circuit cls) (fun t => t.bodySetClass circuit cls)

/-- SET_CLASS (R14). -/
def execSetClass (l : Link) (circuit cls : Nat) (s : State) : Host.Outcome State Fault Refusal :=
  .next (s.cmdSetClass l circuit cls)

/-! ### SET_GROUP (R15) -/

/-- A circuit's record in its new group: an equipped one takes the group's IDLE code in both filters (R15). DEDUCED
(log entry 29): that holds of a conditioned circuit too, whose backward filter then takes the new group's conditioning code at
the next boundary (R33, `State.superviseCircuit`). -/
def Circuit.regroup (c : Circuit) (group : Nat) (idle : Code) : Circuit :=
  if c.equipped then { c.idleFilters idle with group := group } else { c with group := group }

def State.bodySetGroup (s : State) (circuit group : Nat) : Reply :=
  if circuitOk circuit ∧ group < 16 then
    let c := s.circuit circuit
    if c.state != .copper || s.queued circuit || c.residual != 0 || (c.equipped && c.call != .idle) then
      s.refuse .refusedState
    else if group = c.group then s.done .ok []
    else (s.modCircuit circuit (fun c => c.regroup group (s.group group).idle)).done .ok []
  else s.refuse .badParam

def State.cmdSetGroup (s : State) (l : Link) (circuit group : Nat) : State :=
  s.command l .switch (.setGroup l circuit group) (fun t => t.bodySetGroup circuit group)

/-- SET_GROUP (R15). -/
def execSetGroup (l : Link) (circuit group : Nat) (s : State) : Host.Outcome State Fault Refusal :=
  .next (s.cmdSetGroup l circuit group)

/-! ### HOLD and UNHOLD (R16) -/

def State.bodySetHeld (s : State) (circuit : Nat) (held : Bool) : Reply :=
  if circuitOk circuit then (s.modCircuit circuit (fun c => { c with held := held })).done .ok []
  else s.refuse .badParam

def State.cmdHold (s : State) (l : Link) (circuit : Nat) : State :=
  s.command l .switch (.hold l circuit) (fun t => t.bodySetHeld circuit true)

/-- HOLD (R16). -/
def execHold (l : Link) (circuit : Nat) (s : State) : Host.Outcome State Fault Refusal :=
  .next (s.cmdHold l circuit)

def State.cmdUnhold (s : State) (l : Link) (circuit : Nat) : State :=
  s.command l .switch (.unhold l circuit) (fun t => t.bodySetHeld circuit false)

/-- UNHOLD (R16). -/
def execUnhold (l : Link) (circuit : Nat) (s : State) : Host.Outcome State Fault Refusal :=
  .next (s.cmdUnhold l circuit)

/-! ### FREEZE and THAW (R17) -/

/-- The records of some groups changed. -/
def State.modGroups (s : State) (targets : List Nat) (f : Group → Group) : State :=
  { s with groups := Table.mapIdx s.groups (fun i g => if targets.contains i then f g else g) }

def State.bodySetFrozen (s : State) (target : Nat) (frozen : Bool) : Reply :=
  match readTarget target with
  | some gs => (s.modGroups gs (fun g => { g with frozen := frozen })).done .ok []
  | none => s.refuse .badParam

def State.cmdFreeze (s : State) (l : Link) (target : Nat) : State :=
  s.command l .switch (.freeze l target) (fun t => t.bodySetFrozen target true)

/-- FREEZE (R17). -/
def execFreeze (l : Link) (target : Nat) (s : State) : Host.Outcome State Fault Refusal :=
  .next (s.cmdFreeze l target)

def State.cmdThaw (s : State) (l : Link) (target : Nat) : State :=
  s.command l .switch (.thaw l target) (fun t => t.bodySetFrozen target false)

/-- THAW (R17). -/
def execThaw (l : Link) (target : Nat) (s : State) : Host.Outcome State Fault Refusal :=
  .next (s.cmdThaw l target)

/-! ### SET_MIGRATION (R18) -/

/-- The migration settings of a group. -/
structure MigrationSettings where
  policy : Policy
  autoReturn : Bool
  recoveryHold : Nat
  lockoutLimit : Nat
  lockoutWindow : Nat
deriving DecidableEq, Repr

def Group.withMigration (g : Group) (m : MigrationSettings) : Group :=
  { g with
    policy := m.policy
    autoReturn := m.autoReturn
    recoveryHold := m.recoveryHold
    lockoutLimit := m.lockoutLimit
    lockoutWindow := m.lockoutWindow }

/-- The five values as written (R18). -/
def MigrationSettings.bytes (m : MigrationSettings) : List Byte :=
  u8 m.policy.code ++ flag m.autoReturn ++ u8 m.recoveryHold ++ u8 m.lockoutLimit ++ u8 m.lockoutWindow

def State.bodySetMigration (s : State) (target policy autoReturn hold limit window : Nat) : Reply :=
  match readTarget target, readPolicy policy, readBool autoReturn with
  | some gs, some p, some a =>
    let m : MigrationSettings :=
      { policy := p, autoReturn := a, recoveryHold := clamp 1 255 hold, lockoutLimit := clamp 0 15 limit,
        lockoutWindow := clamp 1 255 window }
    (s.modGroups gs (fun g => g.withMigration m)).done
      (clampStatus [hold, limit, window] [m.recoveryHold, m.lockoutLimit, m.lockoutWindow]) m.bytes
  | _, _, _ => s.refuse .badParam

def State.cmdSetMigration (s : State) (l : Link) (target policy autoReturn hold limit window : Nat) : State :=
  s.command l .transport (.setMigration l target policy autoReturn hold limit window)
    (fun t => t.bodySetMigration target policy autoReturn hold limit window)

/-- SET_MIGRATION (R18). -/
def execSetMigration (l : Link) (target policy autoReturn hold limit window : Nat) (s : State) :
    Host.Outcome State Fault Refusal :=
  .next (s.cmdSetMigration l target policy autoReturn hold limit window)

/-! ### READ_CIRCUITS and READ_GROUP (R20, R21) -/

/-- A filter as read (R20). -/
def Filter.bytes (f : Filter) : List Byte :=
  u8 f.accepted.toNat ++ optField 1 (fun (c : Code) => u8 c.toNat) f.candidate ++ u8 f.count

/-- One circuit as READ_CIRCUITS returns it (R20; log entry 17). -/
def State.circuitBytes (s : State) (n : Nat) : List Byte :=
  let c := s.circuit n
  u16 n
    ++ (flag c.equipped ++ flag c.held ++ u8 c.cls.code ++ u8 c.group)
    ++ (u8 c.state.code ++ optField 1 u8 c.context ++ u8 c.receive.code ++ u8 c.transmit.code)
    ++ optField 2 u16 c.slot
    ++ optField 1 (fun (e : Entry) => u8 e.direction.code) (s.queue.find? (fun e => e.circuit == n))
    ++ (c.forward.bytes ++ c.backward.bytes)
    ++ (u8 c.call.code ++ flag c.conditioned)
    ++ (u16 c.residual ++ u8 c.residualPath.code ++ u16 c.cellsHeld)
    ++ optField 1 (fun (x : Cause) => u8 x.code) c.lastAbort

/-- The numbers of up to `most` records from `first`, those at `limit` and above left out (R175). -/
def recordsFrom (first count most limit : Nat) : List Nat :=
  ((List.range (min count most)).map (fun i => first + i)).filter (fun i => decide (i < limit))

def State.bodyReadCircuits (s : State) (first count : Nat) : Reply :=
  if circuitOk first ∧ count ≠ 0 then s.done .ok ((recordsFrom first count 7 480).flatMap s.circuitBytes)
  else s.refuse .badParam

def State.cmdReadCircuits (s : State) (l : Link) (first count : Nat) : State :=
  s.command l .either (.readCircuits l first count) (fun t => t.bodyReadCircuits first count)

/-- READ_CIRCUITS (R20). -/
def execReadCircuits (l : Link) (first count : Nat) (s : State) : Host.Outcome State Fault Refusal :=
  .next (s.cmdReadCircuits l first count)

/-- A group as READ_GROUP returns it (R21). DEDUCED (log entry 17): the window timer is an optional field, absent while it
is stopped. -/
def Group.bytes (g : Group) : List Byte :=
  (u8 g.idle.toNat ++ u8 g.seize.toNat ++ u8 g.answer.toNat ++ u8 g.block.toNat)
    ++ (u8 g.seizeIndex ++ u8 g.clearIndex ++ u8 g.conditioning.toNat ++ [g.quiet])
    ++ (u8 g.policy.code ++ flag g.autoReturn ++ u8 g.recoveryHold ++ u8 g.lockoutLimit ++ u8 g.lockoutWindow)
    ++ (flag g.frozen ++ flag g.lockedOut ++ u8 g.revertCount)
    ++ optField 1 u8 g.windowTimer
    ++ (u16 g.seizureCount ++ u16 g.busyCount)

def State.bodyReadGroup (s : State) (group : Nat) : Reply :=
  if group < 16 then s.done .ok (s.group group).bytes else s.refuse .badParam

def State.cmdReadGroup (s : State) (l : Link) (group : Nat) : State :=
  s.command l .either (.readGroup l group) (fun t => t.bodyReadGroup group)

/-- READ_GROUP (R21). -/
def execReadGroup (l : Link) (group : Nat) (s : State) : Host.Outcome State Fault Refusal :=
  .next (s.cmdReadGroup l group)

/-! ### SET_SIGNALLING (R37, R38) -/

/-- The eight signalling values of a group. -/
structure SignallingSettings where
  idle : Code
  seize : Code
  answer : Code
  block : Code
  seizeIndex : Nat
  clearIndex : Nat
  conditioning : Code
  quiet : Byte
deriving DecidableEq, Repr

def Group.withSignalling (g : Group) (m : SignallingSettings) : Group :=
  { g with
    idle := m.idle
    seize := m.seize
    answer := m.answer
    block := m.block
    seizeIndex := m.seizeIndex
    clearIndex := m.clearIndex
    conditioning := m.conditioning
    quiet := m.quiet }

/-- The eight values as written (R38). -/
def SignallingSettings.bytes (m : SignallingSettings) : List Byte :=
  (u8 m.idle.toNat ++ u8 m.seize.toNat ++ u8 m.answer.toNat ++ u8 m.block.toNat)
    ++ (u8 m.seizeIndex ++ u8 m.clearIndex ++ u8 m.conditioning.toNat ++ [m.quiet])

/-- The four codes are distinct (R37). -/
def SignallingSettings.distinct (m : SignallingSettings) : Bool :=
  m.idle != m.seize && m.idle != m.answer && m.idle != m.block && m.seize != m.answer && m.seize != m.block
    && m.answer != m.block

/-- The parameters of SET_SIGNALLING; none where a code or an index is out of range or two codes are equal (R37). -/
def readSignalling (idle seize answer block seizeIndex clearIndex conditioning quiet : Nat) :
    Option SignallingSettings :=
  match readGroupCode idle, readGroupCode seize, readGroupCode answer, readGroupCode block,
      readGroupCode conditioning with
  | some i, some z, some a, some b, some c =>
    let m : SignallingSettings :=
      { idle := i, seize := z, answer := a, block := b, seizeIndex := seizeIndex, clearIndex := clearIndex,
        conditioning := c, quiet := BitVec.ofNat 8 quiet }
    if seizeIndex < 8 ∧ clearIndex < 8 ∧ m.distinct ∧ quiet < 256 then some m else none
  | _, _, _, _, _ => none

/-- An equipped circuit of a target group has a call state other than IDLE (R37). -/
def State.signallingBusy (s : State) (targets : List Nat) : Bool :=
  (Table.toList s.circuits).any (fun c => c.equipped && c.call != .idle && targets.contains c.group)

/-- An equipped circuit's filters under new signalling (R38). -/
def Circuit.resignal (c : Circuit) (m : SignallingSettings) : Circuit :=
  { c with
    forward := Filter.holding m.idle
    backward := Filter.holding (if c.conditioned then m.conditioning else m.idle) }

/-- The equipped circuits of some groups, in ascending number. -/
def State.membersOf (s : State) (targets : List Nat) : List Nat :=
  allCircuits.filter (fun n => (s.circuit n).equipped && targets.contains (s.circuit n).group)

/-- The new values reach the groups and their equipped circuits (R38). -/
def State.setSignalling (s : State) (targets : List Nat) (m : SignallingSettings) : State :=
  (s.membersOf targets).foldl (fun t n => (t.modCircuit n (fun c => c.resignal m)).deriveCall n)
    (s.modGroups targets (fun g => g.withSignalling m))

def State.bodySetSignalling (s : State)
    (target idle seize answer block seizeIndex clearIndex conditioning quiet : Nat) : Reply :=
  match readTarget target, readSignalling idle seize answer block seizeIndex clearIndex conditioning quiet with
  | some gs, some m => if s.signallingBusy gs then s.refuse .refusedState else (s.setSignalling gs m).done .ok m.bytes
  | _, _ => s.refuse .badParam

def State.cmdSetSignalling (s : State) (l : Link)
    (target idle seize answer block seizeIndex clearIndex conditioning quiet : Nat) : State :=
  s.command l .switch (.setSignalling l target idle seize answer block seizeIndex clearIndex conditioning quiet)
    (fun t => t.bodySetSignalling target idle seize answer block seizeIndex clearIndex conditioning quiet)

/-- SET_SIGNALLING (R37, R38). -/
def execSetSignalling (l : Link)
    (target idle seize answer block seizeIndex clearIndex conditioning quiet : Nat) (s : State) :
    Host.Outcome State Fault Refusal :=
  .next (s.cmdSetSignalling l target idle seize answer block seizeIndex clearIndex conditioning quiet)

end Sys2Proof.Machine
end

