-- ==== Sys2Proof/Machine/SpanCommands.lean ====
section
/-! DEFINITION. Machine/SpanCommands.lean: the span commands (R49 to R51, R56), the drain at a boundary (R52), a
received copper frame (R44) and MARKER_LOSS (R48). -/

namespace Sys2Proof.Machine

/-! ### INSERT_SPAN (R49) -/

/-- What INSERT_SPAN makes of a span state; none where it is refused (R49). -/
def SpanState.insert : SpanState → Bool → Option SpanState
  | .bypass, false => some .drainIn
  | .bypass, true => some .inserted
  | .drainIn, false => some .drainIn
  | .drainIn, true => some .inserted
  | .inserted, _ => some .inserted
  | .drainOut, _ => none

/-- A span takes the state a command gives it; a command accepted without a change raises no notice (section 3.5). -/
def State.takeSpan (s : State) (span : Nat) (new : SpanState) : State :=
  if (s.span span).state = new then s else s.moveSpan span new

def State.bodyInsertSpan (s : State) (span mode : Nat) : Reply :=
  if span < 16 then
    match readImmediate mode with
    | some immediate =>
      match (s.span span).state.insert immediate with
      | some new => (s.takeSpan span new).done .ok (u8 new.code)
      | none => s.done .refusedState (u8 (s.span span).state.code)
    | none => s.refuse .badParam
  else s.refuse .badParam

def State.cmdInsertSpan (s : State) (l : Link) (span mode : Nat) : State :=
  s.command l .switch (.insertSpan l span mode) (fun t => t.bodyInsertSpan span mode)

/-- INSERT_SPAN (R49). -/
def execInsertSpan (l : Link) (span mode : Nat) (s : State) : Host.Outcome State Fault Refusal :=
  .next (s.cmdInsertSpan l span mode)

/-! ### BYPASS_SPAN (R50) -/

/-- A circuit keeps its span from bypass (R50). -/
def State.holdsSpan (s : State) (immediate : Bool) (n : Nat) : Bool :=
  (s.circuit n).state != .copper || s.queued n || (s.circuit n).context.isSome
    || (immediate && (s.circuit n).residual != 0)

/-- What BYPASS_SPAN makes of a span state; none where it is refused (R50). -/
def SpanState.toBypass : SpanState → Bool → Option SpanState
  | .bypass, _ => some .bypass
  | .drainIn, _ => none
  | .inserted, false => some .drainOut
  | .inserted, true => some .bypass
  | .drainOut, false => some .drainOut
  | .drainOut, true => some .bypass

def State.bodyBypassSpan (s : State) (span mode : Nat) : Reply :=
  if span < 16 then
    match readImmediate mode with
    | some immediate =>
      if (circuitsOf span).any (s.holdsSpan immediate) then s.refuse .refusedState
      else
        match (s.span span).state.toBypass immediate with
        | some new => (s.takeSpan span new).done .ok []
        | none => s.refuse .refusedState
    | none => s.refuse .badParam
  else s.refuse .badParam

def State.cmdBypassSpan (s : State) (l : Link) (span mode : Nat) : State :=
  s.command l .switch (.bypassSpan l span mode) (fun t => t.bodyBypassSpan span mode)

/-- BYPASS_SPAN (R50). -/
def execBypassSpan (l : Link) (span mode : Nat) (s : State) : Host.Outcome State Fault Refusal :=
  .next (s.cmdBypassSpan l span mode)

/-! ### CANCEL_SPAN (R51) -/

/-- The state a cancelled drain returns to; none where no drain is pending (R51). -/
def SpanState.cancelled : SpanState → Option SpanState
  | .bypass => none
  | .drainIn => some .bypass
  | .inserted => none
  | .drainOut => some .inserted

def State.bodyCancelSpan (s : State) (span : Nat) : Reply :=
  if span < 16 then
    match (s.span span).state.cancelled with
    | some old => (s.moveSpan span old).done .ok []
    | none => s.done .refusedState (u8 (s.span span).state.code)
  else s.refuse .badParam

def State.cmdCancelSpan (s : State) (l : Link) (span : Nat) : State :=
  s.command l .switch (.cancelSpan l span) (fun t => t.bodyCancelSpan span)

/-- CANCEL_SPAN (R51). -/
def execCancelSpan (l : Link) (span : Nat) (s : State) : Host.Outcome State Fault Refusal :=
  .next (s.cmdCancelSpan l span)

/-! ### READ_SPAN (R56) -/

/-- A framing status as read: 1 in loss, and the run count. -/
def Framing.bytes (f : Framing) : List Byte := flag f.los ++ u8 f.run

/-- A span as READ_SPAN returns it (R56). DEDUCED (log entry 17): the line side stands before the switch side, as in R40's
table. -/
def State.spanBytes (s : State) (span : Nat) : List Byte :=
  let x := s.span span
  (u8 x.state.code ++ flag x.relay) ++ (x.line.bytes ++ x.switch.bytes)
    ++ (flag x.markerLoss ++ u16 x.lossCount) ++ optField 2 u16 x.tc ++ u8 (s.notIdle span)

def State.bodyReadSpan (s : State) (span : Nat) : Reply :=
  if span < 16 then s.done .ok (s.spanBytes span) else s.refuse .badParam

def State.cmdReadSpan (s : State) (l : Link) (span : Nat) : State :=
  s.command l .either (.readSpan l span) (fun t => t.bodyReadSpan span)

/-- READ_SPAN (R56). -/
def execReadSpan (l : Link) (span : Nat) (s : State) : Host.Outcome State Fault Refusal :=
  .next (s.cmdReadSpan l span)

/-! ### DRAIN_COMPLETE (R52) -/

/-- The drain of a span is tested where it is owed. The drains of one boundary complete in ascending span number, so
those owed for lower spans are tested first (R52). -/
def State.takeDrains (s : State) (span : Nat) : State :=
  if s.owed.contains (.drainComplete span) then
    (List.range (span + 1)).foldl (fun t k => t.takeOwed (.drainComplete k) (fun u => u.drainTest k)) s
  else s

/-- DRAIN_COMPLETE (R52). -/
def execDrainComplete (span : Nat) (s : State) : Host.Outcome State Fault Refusal :=
  .next (s.event (fun t => t.takeDrains span))

/-! ### COPPER_FRAME_RECEIVE (R44, R45, R47, R48, R88) -/

/-- One received copper frame: the records, the change of framing status handed to the Fault Unit, and, on the line
side, the marker test (R44, R45, R47, R48). -/
def State.receiveCopper (s : State) (side : Side) (span : Nat) (pattern : BitVec 7) (spare : Bool)
    (samples : List Byte) (codes : List CodeArrival) : State :=
  let correct := pattern == Config.framingPattern
  let marker := isCopperMarker (s.span span).history correct spare
  let s1 := s.recordCopper side span correct spare samples codes
  let before := ((s.span span).framing side).los
  let after := ((s1.span span).framing side).los
  match side with
  | .switch => s1.handLoss side span before after
  | .line =>
    if marker then ((s1.handLoss side span before after).markSpan span).formD span
    else (s1.missMarker span).handLoss side span before after

/-- COPPER_FRAME_RECEIVE (R44); there is no span above 15. DESIGN CHOICE (log entry 11): a side for which no row comes in a
local frame examines nothing in that frame. -/
def execCopperFrameReceive (side : Side) (span : Nat) (pattern : BitVec 7) (spare : Bool) (samples : List Byte)
    (codes : List CodeArrival) (s : State) : Host.Outcome State Fault Refusal :=
  .next (s.event (fun t => if span < 16 then t.receiveCopper side span pattern spare samples codes else t))

/-- MARKER_LOSS (R48): it is declared where it is due. -/
def execMarkerLoss (span : Nat) (s : State) : Host.Outcome State Fault Refusal :=
  .next (s.event (fun t => t.declareMarkerLoss span))

end Sys2Proof.Machine
end

