-- ==== Sys2Proof/Machine/MapCommands.lean ====
section
/-! DEFINITION. Machine/MapCommands.lean: the received carriage frame (R61), the end of a window (R66),
SET_FIBRE_THRESHOLD (R67), and the commands of the carriage map (R76 to R80, R84, R85). -/

namespace Sys2Proof.Machine

/-! ### The Fibre Port -/

/-- CARRIAGE_FRAME_RECEIVE (R61). -/
def execCarriageFrameReceive (position : Nat) (bytes : List Byte) (s : State) : Host.Outcome State Fault Refusal :=
  .next (s.event (fun t => t.receiveCarriage position bytes))

/-- WINDOW_END (R66). -/
def execWindowEnd (s : State) : Host.Outcome State Fault Refusal :=
  .next (s.owedEvent .windowEnd State.endWindow)

def State.bodySetFibreThreshold (s : State) (threshold : Nat) : Reply :=
  let v := clamp 1 8000 threshold
  State.done { s with port := { s.port with threshold := v } } (clampStatus [threshold] [v]) (u16 v)

def State.cmdSetFibreThreshold (s : State) (l : Link) (threshold : Nat) : State :=
  s.command l .transport (.setFibreThreshold l threshold) (fun t => t.bodySetFibreThreshold threshold)

/-- SET_FIBRE_THRESHOLD (R67). -/
def execSetFibreThreshold (l : Link) (threshold : Nat) (s : State) : Host.Outcome State Fault Refusal :=
  .next (s.cmdSetFibreThreshold l threshold)

/-! ### Staging (R76, R77) -/

/-- An edit is appended, or the list is full (R76). -/
def State.stage (s : State) (e : Edit) : Reply :=
  if s.map.staging.length < Config.stagingLimit then
    State.done { s with map := { s.map with staging := s.map.staging ++ [e] } } .ok
      (u8 s.map.staging.length ++ u8 (s.map.staging.length + 1))
  else s.refuse .full

def State.bodyStageAssign (s : State) (slot circuit : Nat) : Reply :=
  if slot < 512 ∧ circuitOk circuit then s.stage (.assign slot circuit) else s.refuse .badParam

def State.cmdStageAssign (s : State) (l : Link) (slot circuit : Nat) : State :=
  s.command l .transport (.stageAssign l slot circuit) (fun t => t.bodyStageAssign slot circuit)

/-- STAGE_ASSIGN (R76). -/
def execStageAssign (l : Link) (slot circuit : Nat) (s : State) : Host.Outcome State Fault Refusal :=
  .next (s.cmdStageAssign l slot circuit)

def State.bodyStageRelease (s : State) (slot : Nat) : Reply :=
  if slot < 512 then s.stage (.release slot) else s.refuse .badParam

def State.cmdStageRelease (s : State) (l : Link) (slot : Nat) : State :=
  s.command l .transport (.stageRelease l slot) (fun t => t.bodyStageRelease slot)

/-- STAGE_RELEASE (R76). -/
def execStageRelease (l : Link) (slot : Nat) (s : State) : Host.Outcome State Fault Refusal :=
  .next (s.cmdStageRelease l slot)

def State.bodyDiscardStaging (s : State) : Reply :=
  State.done { s with map := { s.map with staging := [] } } .ok (u8 s.map.staging.length)

def State.cmdDiscardStaging (s : State) (l : Link) : State :=
  s.command l .transport (.discardStaging l) State.bodyDiscardStaging

/-- DISCARD_STAGING (R77). -/
def execDiscardStaging (l : Link) (s : State) : Host.Outcome State Fault Refusal :=
  .next (s.cmdDiscardStaging l)

/-! ### The apply (R78, R80) -/

/-- APPLY_MAP records the pending apply and holds its response back (R78). From link A it is refused (R75). -/
def State.cmdApplyMap (s : State) (l : Link) : State :=
  s.event (fun t =>
    if t.takes l (.applyMap l) then
      if CommandRole.transport.permits l then
        State.modLink { t with map := { t.map with applyPending := true, applyAnswer := true } } l LinkRec.taken
      else t.respond l .notPermitted []
    else t)

/-- APPLY_MAP (R78). -/
def execApplyMap (l : Link) (s : State) : Host.Outcome State Fault Refusal :=
  .next (s.cmdApplyMap l)

/-- MAP_APPLY (R80): the first superframe boundary after APPLY_MAP makes the apply. -/
def execMapApply (s : State) : Host.Outcome State Fault Refusal :=
  .next (s.owedEvent .mapApply State.makeApply)

/-! ### READ_MAP and READ_STAGING (R84, R85) -/

/-- One map entry as READ_MAP returns it (R84). DEDUCED (log entry 17): its circuit is an optional field, absent where the slot
is free. -/
def State.mapEntryBytes (s : State) (slot : Nat) : List Byte :=
  u16 slot ++ optField 2 u16 (s.boundTo slot) ++ u8 (s.slotCode slot).toNat ++ flag (s.slotLive slot)

def State.bodyReadMap (s : State) (first count : Nat) : Reply :=
  if first < 512 ∧ count ≠ 0 then
    s.done .ok (u16 s.map.ownDigest.toNat
      ++ optField 2 (fun (d : BitVec 16) => u16 d.toNat) s.map.peerDigest
      ++ (flag s.map.mismatch ++ u8 s.map.run ++ flag s.map.applyPending)
      ++ (recordsFrom first count 16 512).flatMap s.mapEntryBytes)
  else s.refuse .badParam

def State.cmdReadMap (s : State) (l : Link) (first count : Nat) : State :=
  s.command l .either (.readMap l first count) (fun t => t.bodyReadMap first count)

/-- READ_MAP (R84). -/
def execReadMap (l : Link) (first count : Nat) (s : State) : Host.Outcome State Fault Refusal :=
  .next (s.cmdReadMap l first count)

def State.bodyReadStaging (s : State) : Reply :=
  s.done .ok (u8 s.map.staging.length ++ flag s.map.applyPending ++ s.map.staging.flatMap Edit.bytes)

def State.cmdReadStaging (s : State) (l : Link) : State :=
  s.command l .either (.readStaging l) State.bodyReadStaging

/-- READ_STAGING (R85). -/
def execReadStaging (l : Link) (s : State) : Host.Outcome State Fault Refusal :=
  .next (s.cmdReadStaging l)

end Sys2Proof.Machine
end

