-- ==== Sys2Proof/Machine/AlignCommands.lean ====
section
/-! DEFINITION. Machine/AlignCommands.lean: SET_ALIGNMENT (R107) and the events of the Alignment Engine and the Cell
Pool (R90, R92, R93, R97, R100, R101). -/

namespace Sys2Proof.Machine

/-! ### SET_ALIGNMENT (R107) -/

/-- The settings as written; a different W sets the walk counter to 0 (R97, R107). -/
def Alignment.set (a : Alignment) (n spread walk timeout : Nat) : Alignment :=
  { n := n
    spreadLimit := spread
    walkInterval := walk
    poolTimeout := timeout
    walkCounter := if walk = a.walkInterval then a.walkCounter else 0 }

def State.bodySetAlignment (s : State) (n spread walk timeout : Nat) : Reply :=
  let n' := clamp 4 32 n
  let spread' := clamp 0 15 spread
  let walk' := clamp 4 255 walk
  let timeout' := clamp 1 60000 timeout
  State.done { s with align := s.align.set n' spread' walk' timeout' }
    (clampStatus [n, spread, walk, timeout] [n', spread', walk', timeout'])
    (u8 n' ++ u8 spread' ++ u16 walk' ++ u16 timeout')

def State.cmdSetAlignment (s : State) (l : Link) (n spread walk timeout : Nat) : State :=
  s.command l .transport (.setAlignment l n spread walk timeout) (fun t => t.bodySetAlignment n spread walk timeout)

/-- SET_ALIGNMENT (R107). -/
def execSetAlignment (l : Link) (n spread walk timeout : Nat) (s : State) : Host.Outcome State Fault Refusal :=
  .next (s.cmdSetAlignment l n spread walk timeout)

/-! ### Events -/

/-- ATTEMPT_START (R90): attempt 1 of a context begins where it is due. Like the other rows of events that fall due
with their cause, it settles the pool's service and nothing else before it (log entry 3). -/
def execAttemptStart (context : Nat) (s : State) : Host.Outcome State Fault Refusal :=
  .next (if s.powered then s.serviceAll.startIfDue context else s)

/-- MEASUREMENT_COMPLETE (R92): the running attempt of a context ends where its n has reached its N. -/
def execMeasurementComplete (context : Nat) (s : State) : Host.Outcome State Fault Refusal :=
  .next (if s.powered then s.serviceAll.measureIfDue context else s)

/-- POOL_SERVICE (R100): the heads of the wait list are served in turn while the free count covers their need. -/
def execPoolService (s : State) : Host.Outcome State Fault Refusal :=
  .next (if s.powered then s.serviceAll else s)

/-- MARKER_TIMEOUT (R93). -/
def execMarkerTimeout (context : Nat) (s : State) : Host.Outcome State Fault Refusal :=
  .next (s.event (fun t => t.markerTimeoutIfDue context))

/-- WALK_SLOT (R97). -/
def execWalkSlot (s : State) : Host.Outcome State Fault Refusal :=
  .next (s.owedEvent .walkSlot State.walk)

/-- POOL_TIMEOUT (R101). -/
def execPoolTimeout (s : State) : Host.Outcome State Fault Refusal :=
  .next (s.owedEvent .poolTimeout State.poolTimeoutIfDue)

end Sys2Proof.Machine
end

