-- ==== Sys2Proof/Machine/QueueCommands.lean ====
section
/-! DEFINITION. Machine/QueueCommands.lean: the commands on the migration queue and admission (R109, R110, R113, R114,
R130, R131). -/

namespace Sys2Proof.Machine

/-! ### REQUEST (R109) -/

/-- The state checks of REQUEST in order; none where every check passes (R109). -/
def State.requestRefused (s : State) (circuit : Nat) (d : Direction) : Option Status :=
  let c := s.circuit circuit
  if !c.equipped || !s.spanInserted circuit then some .refusedState
  else if s.queued circuit || c.context.isSome then some .busy
  else if !d.admits c.state then some .refusedState
  else if d == .toFibre && c.slot.isNone then some .notFound
  else if Config.queueLimit ≤ s.queue.length then some .full
  else none

/-- The entry that REQUEST appends (R109). -/
def State.newEntry (s : State) (circuit : Nat) (d : Direction) : Entry :=
  { circuit := circuit, direction := d, origin := .linkB, idleOnly := false, stamp := s.stamp }

def State.bodyRequest (s : State) (circuit direction : Nat) : Reply :=
  if circuitOk circuit then
    match readDirection direction with
    | some d =>
      match s.requestRefused circuit d with
      | some st => s.refuse st
      | none =>
        State.done { s with queue := s.queue ++ [s.newEntry circuit d] } .ok
          (u8 s.queue.length ++ u8 (s.queue.length + 1))
    | none => s.refuse .badParam
  else s.refuse .badParam

def State.cmdRequest (s : State) (l : Link) (circuit direction : Nat) : State :=
  s.command l .transport (.request l circuit direction) (fun t => t.bodyRequest circuit direction)

/-- REQUEST (R109). -/
def execRequest (l : Link) (circuit direction : Nat) (s : State) : Host.Outcome State Fault Refusal :=
  .next (s.cmdRequest l circuit direction)

/-! ### CANCEL_REQUEST (R110) -/

/-- A removed entry's direction and origin (R110). -/
def Entry.cancelled (e : Entry) : List Byte := u8 e.direction.code ++ u8 e.origin.code

/-- The parked entry of a circuit's context, with the context (R110). -/
def State.parkedOf (s : State) (circuit : Nat) : Option (Nat × Entry) :=
  match (s.circuit circuit).context with
  | some k => (s.ctx k).parked.map (fun e => (k, e))
  | none => none

def State.bodyCancelRequest (s : State) (circuit : Nat) : Reply :=
  if circuitOk circuit then
    match s.queue.find? (fun e => e.circuit == circuit) with
    | some e =>
      State.done { s with queue := s.queue.filter (fun x => x.circuit != circuit) } .ok e.cancelled
    | none =>
      match s.parkedOf circuit with
      | some (k, e) => (s.modCtx k (fun x => { x with parked := none })).done .ok e.cancelled
      | none => s.refuse .notFound
  else s.refuse .badParam

def State.cmdCancelRequest (s : State) (l : Link) (circuit : Nat) : State :=
  s.command l .transport (.cancelRequest l circuit) (fun t => t.bodyCancelRequest circuit)

/-- CANCEL_REQUEST (R110). -/
def execCancelRequest (l : Link) (circuit : Nat) (s : State) : Host.Outcome State Fault Refusal :=
  .next (s.cmdCancelRequest l circuit)

/-! ### ADMISSION (R112 to R114) -/

/-- The first entry that passes every test (R113). -/
def State.firstAdmissible (s : State) : Option Entry := s.queue.find? (fun e => (s.firstFailing e).isNone)

/-- One admission: nothing while a halt reason holds, else the first entry that passes every test (R112, R113). -/
def State.makeAdmission (s : State) : State :=
  if s.admissionHalted then s
  else
    match s.firstAdmissible, s.freeContext with
    | some e, some context => s.admitEntry e context
    | _, _ => s

/-- ADMISSION (R113). -/
def execAdmission (s : State) : Host.Outcome State Fault Refusal :=
  .next (s.owedEvent .admission State.makeAdmission)

/-! ### SET_ADMISSION (R130) -/

def State.bodySetAdmission (s : State) (requireA requireB bridge step : Nat) : Reply :=
  match readBool requireA, readBool requireB with
  | some a, some b =>
    let bridge' := clamp 10 2000 bridge
    let step' := clamp 50 2000 step
    State.done { s with admitting := { requireA := a, requireB := b, bridgeTimeout := bridge', stepTimeout := step' } }
      (clampStatus [bridge, step] [bridge', step']) (flag a ++ flag b ++ u16 bridge' ++ u16 step')
  | _, _ => s.refuse .badParam

def State.cmdSetAdmission (s : State) (l : Link) (requireA requireB bridge step : Nat) : State :=
  s.command l .transport (.setAdmission l requireA requireB bridge step)
    (fun t => t.bodySetAdmission requireA requireB bridge step)

/-- SET_ADMISSION (R130). -/
def execSetAdmission (l : Link) (requireA requireB bridge step : Nat) (s : State) :
    Host.Outcome State Fault Refusal :=
  .next (s.cmdSetAdmission l requireA requireB bridge step)

/-! ### READ_QUEUE (R131) -/

/-- One queue entry as READ_QUEUE returns it (R131). DEDUCED (log entry 17): the first failing test is an optional field,
absent where the entry fails none. -/
def State.entryBytes (s : State) (position : Nat) : List Byte :=
  match s.queue[position]? with
  | some e =>
    u8 position ++ u16 e.circuit ++ u8 e.direction.code ++ u8 e.origin.code ++ flag e.idleOnly ++ u16 e.stamp
      ++ optField 1 (fun (t : AdmissionTest) => u8 t.code) (s.firstFailing e)
  | none => []

def State.bodyReadQueue (s : State) (first count : Nat) : Reply :=
  if first < 64 ∧ count ≠ 0 then
    s.done .ok (u8 s.queue.length ++ (recordsFrom first count 16 s.queue.length).flatMap s.entryBytes)
  else s.refuse .badParam

def State.cmdReadQueue (s : State) (l : Link) (first count : Nat) : State :=
  s.command l .either (.readQueue l first count) (fun t => t.bodyReadQueue first count)

/-- READ_QUEUE (R131). -/
def execReadQueue (l : Link) (first count : Nat) (s : State) : Host.Outcome State Fault Refusal :=
  .next (s.cmdReadQueue l first count)

end Sys2Proof.Machine
end

