-- ==== Sys2Proof/Machine/ContextCommands.lean ====
section
/-! DEFINITION. Machine/ContextCommands.lean: the commands on contexts (R128, R129, R131) and their events (R119, R121
to R125). -/

namespace Sys2Proof.Machine

/-! ### ABORT_CONTEXT (R128) -/

def State.bodyAbortContext (s : State) (context : Nat) : Reply :=
  if context < 8 then
    let x := s.ctx context
    if x.state = .free then s.refuse .notFound
    else if x.state = .aborting then
      s.done .refusedState (match x.abortCause with | some c => u8 c.code | none => [])
    else (s.abort context .cancelled).done .ok (u16 x.circuit ++ u8 x.state.code)
  else s.refuse .badParam

def State.cmdAbortContext (s : State) (l : Link) (context : Nat) : State :=
  s.command l .transport (.abortContext l context) (fun t => t.bodyAbortContext context)

/-- ABORT_CONTEXT (R128). -/
def execAbortContext (l : Link) (context : Nat) (s : State) : Host.Outcome State Fault Refusal :=
  .next (s.cmdAbortContext l context)

/-! ### RESET_MIGRATION (R129, R136) -/

/-- The contexts that a migration reset aborts. -/
def State.running (s : State) : List Nat :=
  contextNumbers.filter (fun c => (s.ctx c).state != .free && (s.ctx c).state != .aborting)

/-- Served and parked entries are discarded (R129; log entry 14). -/
def State.discardEntries (s : State) : State :=
  { s with contexts := Table.mapIdx s.contexts (fun _ x => { x with served := none, parked := none }) }

/-- Every advertisement becomes an ABORT linger with cause RESET in its place, and the peer view is emptied (R129,
R136, R139). -/
def PeerExchange.resetMigration (p : PeerExchange) : PeerExchange :=
  { p with
    adverts := p.adverts.map (fun a =>
      { a with kind := .linger Config.lingerSpan p.serial, step := .abort, argument := Cause.reset.byte })
    serial := p.serial + 1
    view := [] }

/-- A context after a migration reset: FREE where its circuit has returned, else ABORTING up to the return (R129). -/
def Ctx.resetMigration (x : Ctx) : Ctx :=
  if x.state = .free then x
  else if x.returnPending then { x with resetPending := true }
  else x.freed

/-- A migration reset (R129). -/
def State.resetMigration (s : State) : State :=
  let s1 := s.running.foldl (fun t c => t.abort c .reset) s.discardEntries
  { s1 with
    queue := []
    pool := { s1.pool with waitList := [], waitCount := 0 }
    peer := s1.peer.resetMigration
    contexts := Table.mapIdx s1.contexts (fun _ x => x.resetMigration) }

/-- The response's number of contexts ended is that of the contexts the command aborts. DESIGN CHOICE (log entry 32): a
context that was already in ABORTING is not counted, though the command makes it FREE (R129). -/
def State.bodyResetMigration (s : State) : Reply :=
  s.resetMigration.done .ok (u8 s.running.length ++ u8 s.queue.length)

def State.cmdResetMigration (s : State) (l : Link) : State :=
  s.command l .transport (.resetMigration l) State.bodyResetMigration

/-- RESET_MIGRATION (R129). -/
def execResetMigration (l : Link) (s : State) : Host.Outcome State Fault Refusal :=
  .next (s.cmdResetMigration l)

/-! ### READ_CONTEXT (R131) -/

/-- The accumulators of the current attempt (section 6.3). -/
def Ctx.attemptBytes (x : Ctx) : List Byte :=
  (u8 x.attempt ++ u8 x.attemptN ++ u8 x.attemptLimit) ++ (u16 x.start ++ u16 x.elapsed)
    ++ (u8 x.n ++ s16 x.sum) ++ (optField 2 s16 x.min ++ optField 2 s16 x.max)

def Entry.servedBytes (e : Entry) : List Byte := u8 e.origin.code ++ u16 e.stamp ++ flag e.idleOnly
def Entry.parkedBytes (e : Entry) : List Byte :=
  u8 e.direction.code ++ u8 e.origin.code ++ u16 e.stamp ++ flag e.idleOnly

/-- The fields of R115, in the order of its table. DEDUCED (log entry 33): the origin state is sent as its place among the six
states of R2, which defines the enumeration (COPPER 0, FIBRE_PROTECTED 2, REVERTED 4), not among the three that R115
names. -/
def Ctx.bytes (x : Ctx) : List Byte :=
  (u8 x.state.code ++ u8 x.role.code ++ u8 x.direction.code ++ u16 x.circuit ++ u16 x.slot)
    ++ (u8 x.origin.code ++ u8 x.policy.code) ++ x.attemptBytes ++ optField 2 s16 x.lead
    ++ (u16 x.cells ++ flag x.switched) ++ (u16 x.stepTimer ++ u16 x.bridgeTimer ++ u8 x.abortCount)
    ++ optField 2 (fun (p : Step × Byte) => u8 p.1.code ++ [p.2]) x.lastStep ++ flag x.peerEntry
    ++ optField 4 Entry.servedBytes x.served ++ optField 5 Entry.parkedBytes x.parked
    ++ optField 1 (fun (c : Cause) => u8 c.code) x.abortCause

/-- The place of a context in the wait list (R131). -/
def State.waitPosition (s : State) (context : Nat) : Option Nat :=
  s.pool.waitList.findIdx? (fun c => c == context)

/-- A context's wait count: the head's count, and 0 behind the head (R101). -/
def State.waitCountOf (s : State) (context : Nat) : Option Nat :=
  (s.waitPosition context).map (fun i => if i = 0 then s.pool.waitCount else 0)

/-- The step a context is advertising (R131). -/
def State.advertised (s : State) (context : Nat) : Option Step :=
  (s.peer.adverts.find? (fun a => a.isOf context)).map Advert.step

/-- A context as READ_CONTEXT returns it (R131). DEDUCED (log entry 33): the step it is advertising is sent as an optional
field with a presence byte, absent where the context has no entry in the advertisement table. -/
def State.contextBytes (s : State) (context : Nat) : List Byte :=
  let c := s.circuit (s.ctx context).circuit
  (s.ctx context).bytes
    ++ (optField 1 u8 (s.waitPosition context) ++ optField 2 u16 (s.waitCountOf context))
    ++ (u16 (c.delay .copper) ++ u16 (c.delay .fibre))
    ++ optField 1 (fun (t : Step) => u8 t.code) (s.advertised context)

def State.bodyReadContext (s : State) (context : Nat) : Reply :=
  if context < 8 then s.done .ok (s.contextBytes context) else s.refuse .badParam

def State.cmdReadContext (s : State) (l : Link) (context : Nat) : State :=
  s.command l .either (.readContext l context) (fun t => t.bodyReadContext context)

/-- READ_CONTEXT (R131). -/
def execReadContext (l : Link) (context : Nat) (s : State) : Host.Outcome State Fault Refusal :=
  .next (s.cmdReadContext l context)

/-! ### Events of the contexts -/

/-- SWITCH (R121). -/
def execSwitch (context : Nat) (s : State) : Host.Outcome State Fault Refusal :=
  .next (s.owedEvent (.switch context) (fun t => t.makeSwitch context))

/-- CONTEXT_COMPLETION (R122). -/
def execContextCompletion (context : Nat) (s : State) : Host.Outcome State Fault Refusal :=
  .next (if s.powered then s.serviceAll.completeIfDue context else s)

/-- ABORT_RETURN (R124). -/
def execAbortReturn (context : Nat) (s : State) : Host.Outcome State Fault Refusal :=
  .next (s.owedEvent (.abortReturn context) (fun t => t.returnIfPending context))

/-- ABORTING_END (R125). -/
def execAbortingEnd (context : Nat) (s : State) : Host.Outcome State Fault Refusal :=
  .next (s.owedEvent (.abortingEnd context) (fun t => t.endAborting context))

/-- A bridge timeout is due (R119). -/
def State.bridgeTimeoutDue (s : State) (context : Nat) : Bool :=
  (s.ctx context).state == .measure && !(s.ctx context).begun
    && decide (s.admitting.bridgeTimeout ≤ (s.ctx context).bridgeTimer)

def State.bridgeTimeoutIfDue (s : State) (context : Nat) : State :=
  if s.bridgeTimeoutDue context then s.abort context .bridgeTimeout else s

/-- BRIDGE_TIMEOUT (R119). -/
def execBridgeTimeout (context : Nat) (s : State) : Host.Outcome State Fault Refusal :=
  .next (s.owedEvent (.bridgeTimeout context) (fun t => t.bridgeTimeoutIfDue context))

/-- A step timeout is due (R123). -/
def State.stepTimeoutDue (s : State) (context : Nat) : Bool :=
  (s.ctx context).stepRunning && decide (s.admitting.stepTimeout ≤ (s.ctx context).stepTimer)

def State.stepTimeoutIfDue (s : State) (context : Nat) : State :=
  if s.stepTimeoutDue context then s.abort context .stepTimeout else s

/-- STEP_TIMEOUT (R123). -/
def execStepTimeout (context : Nat) (s : State) : Host.Outcome State Fault Refusal :=
  .next (s.owedEvent (.stepTimeout context) (fun t => t.stepTimeoutIfDue context))

end Sys2Proof.Machine
end

