-- ==== Sys2Proof/Machine/PeerCommands.lean ====
section
/-! DEFINITION. Machine/PeerCommands.lean: the events and commands of the Peer Exchange (R136, R140, R146, R148,
R149). -/

namespace Sys2Proof.Machine

/-- AGE_OUT (R140). -/
def execAgeOut (slot : Nat) (s : State) : Host.Outcome State Fault Refusal :=
  .next (s.event (fun t => t.ageOut slot))

/-- PEER_SILENT (R146). -/
def execPeerSilent (s : State) : Host.Outcome State Fault Refusal :=
  .next (if s.powered then s.declareSilentIfDue else s)

/-! ### LINGER_EXPIRY (R136) -/

/-- An entry is a linger whose count has reached 0. -/
def Advert.expired (a : Advert) : Bool :=
  match a.kind with
  | .linger n _ => n == 0
  | .context _ => false

/-- The slot's linger is removed where its count has reached 0 (R136, R137). -/
def State.expireLinger (s : State) (slot : Nat) : State :=
  match s.peer.adverts.findIdx? (fun a => a.slot == slot && a.expired) with
  | some i => { s with peer := s.peer.removeAt i }
  | none => s

/-- LINGER_EXPIRY (R136). -/
def execLingerExpiry (slot : Nat) (s : State) : Host.Outcome State Fault Refusal :=
  .next (s.owedEvent (.lingerExpiry slot) (fun t => t.expireLinger slot))

/-! ### SET_PEER_SILENT_TIME (R148) -/

def State.bodySetPeerSilentTime (s : State) (time : Nat) : Reply :=
  let v := clamp 10 1000 time
  (State.declareSilentIfDue { s with peer := { s.peer with silentTime := v } }).done (clampStatus [time] [v]) (u16 v)

def State.cmdSetPeerSilentTime (s : State) (l : Link) (time : Nat) : State :=
  s.command l .transport (.setPeerSilentTime l time) (fun t => t.bodySetPeerSilentTime time)

/-- SET_PEER_SILENT_TIME (R148). -/
def execSetPeerSilentTime (l : Link) (time : Nat) (s : State) : Host.Outcome State Fault Refusal :=
  .next (s.cmdSetPeerSilentTime l time)

/-! ### READ_PEER (R149) -/

/-- An advertisement as READ_PEER returns it: a context entry gives its number, a linger its count (R149). -/
def Advert.bytes (a : Advert) : List Byte :=
  match a.kind with
  | .context c => u8 0 ++ u8 c ++ u16 a.slot ++ u8 a.step.code ++ [a.argument]
  | .linger n _ => u8 1 ++ u16 a.slot ++ u8 a.step.code ++ [a.argument] ++ u8 n

/-- A peer view entry as READ_PEER returns it (R149). -/
def ViewEntry.bytes (e : ViewEntry) : List Byte :=
  u16 e.slot ++ u8 e.step.code ++ [e.argument] ++ u8 e.site ++ u8 e.seen ++ u8 e.age ++ flag e.confirmed

/-- What both parts return first (R149): the position of DIGEST is the number of entries. -/
def State.peerHead (s : State) : List Byte :=
  (u8 s.ownSite ++ u16 s.peer.silentTime ++ flag s.peer.silent ++ flag s.peer.clash ++ u8 s.peer.clashRun)
    ++ (u8 (s.peer.adverts.length + 1) ++ u8 (s.peer.position.getD s.peer.adverts.length))

def State.bodyReadPeer (s : State) (part : Nat) : Reply :=
  if part = 0 then s.done .ok (s.peerHead ++ s.peer.adverts.flatMap Advert.bytes)
  else if part = 1 then
    s.done .ok (s.peerHead ++ u8 s.peer.view.length ++ s.peer.view.flatMap ViewEntry.bytes ++ u16 s.peer.viewFull)
  else s.refuse .badParam

def State.cmdReadPeer (s : State) (l : Link) (part : Nat) : State :=
  s.command l .either (.readPeer l part) (fun t => t.bodyReadPeer part)

/-- READ_PEER (R149). -/
def execReadPeer (l : Link) (part : Nat) (s : State) : Host.Outcome State Fault Refusal :=
  .next (s.cmdReadPeer l part)

end Sys2Proof.Machine
end

