-- ==== Sys2Proof/Machine/FaultCommands.lean ====
section
/-! DEFINITION. Machine/FaultCommands.lean: the commands and events of the Fault Unit (R154 to R161), COMMIT and
UNCOMMIT (R166, R167). -/

namespace Sys2Proof.Machine

/-- The spans a fault scope names for a kind: PORT for a port kind, a span or ALL for a span kind (R154). -/
def readScope (k : FaultKind) (scope : Nat) : Option (List Nat) :=
  if k.isPort then (if scope = 0x40 then some [0] else none)
  else if scope < 16 then some [scope]
  else if scope = 0xFF then some (List.range 16)
  else none

/-! ### SET_FAULT_POLICY (R154) -/

/-- A record as SET_FAULT_POLICY returns it: the fields of R150 in order. -/
def FaultRecord.bytes (r : FaultRecord) : List Byte :=
  flag r.enabled ++ u8 r.actions.code ++ flag r.live ++ flag r.latched

/-- The records of scope ALL are taken one by one in ascending span, each with all its effects. DESIGN CHOICE (log entry
15): R154 gives no order to what they raise. -/
def State.bodySetFaultPolicy (s : State) (kind scope enabled actions : Nat) : Reply :=
  match readKind kind, readBool enabled, readActions actions with
  | some k, some e, some a =>
    match readScope k scope with
    | some spans =>
      if a.within k.permitted then
        let t := spans.foldl (fun t x => t.setPolicy k e a x) s
        t.done .ok (spans.flatMap (fun x => (t.fault k x).bytes))
      else s.refuse .badParam
    | none => s.refuse .badParam
  | _, _, _ => s.refuse .badParam

def State.cmdSetFaultPolicy (s : State) (l : Link) (kind scope enabled actions : Nat) : State :=
  s.command l .transport (.setFaultPolicy l kind scope enabled actions)
    (fun t => t.bodySetFaultPolicy kind scope enabled actions)

/-- SET_FAULT_POLICY (R154). -/
def execSetFaultPolicy (l : Link) (kind scope enabled actions : Nat) (s : State) :
    Host.Outcome State Fault Refusal :=
  .next (s.cmdSetFaultPolicy l kind scope enabled actions)

/-! ### CLEAR_FAULT (R155) -/

/-- The latched field of a record that is not live becomes no (R155). -/
def State.acknowledge (s : State) (k : FaultKind) (span : Nat) : State :=
  if (s.fault k span).live then s else s.setFault k span { s.fault k span with latched := false }

def State.bodyClearFault (s : State) (kind scope : Nat) : Reply :=
  match readKind kind with
  | some k =>
    match readScope k scope with
    | some spans =>
      let cleared := spans.filter (fun x => !(s.fault k x).live && (s.fault k x).latched)
      (spans.foldl (fun t x => t.acknowledge k x) s).done
        (if spans.any (fun x => (s.fault k x).live) then .stillPresent else .ok) (u8 cleared.length)
    | none => s.refuse .badParam
  | none => s.refuse .badParam

def State.cmdClearFault (s : State) (l : Link) (kind scope : Nat) : State :=
  s.command l .either (.clearFault l kind scope) (fun t => t.bodyClearFault kind scope)

/-- CLEAR_FAULT (R155). -/
def execClearFault (l : Link) (kind scope : Nat) (s : State) : Host.Outcome State Fault Refusal :=
  .next (s.cmdClearFault l kind scope)

/-! ### READ_FAULTS (R156) -/

def State.bodyReadFaults (s : State) : Reply :=
  s.done .ok ((Table.toList s.faults.records).flatMap (fun r => u8 r.packed)
    ++ flag s.faults.revertPending.isSome ++ u8 s.faults.health)

def State.cmdReadFaults (s : State) (l : Link) : State :=
  s.command l .either (.readFaults l) State.bodyReadFaults

/-- READ_FAULTS (R156). -/
def execReadFaults (l : Link) (s : State) : Host.Outcome State Fault Refusal :=
  .next (s.cmdReadFaults l)

/-! ### REVERT, WINDOW_EXPIRY, SLOW_TICK (R157, R159, R162, R163) -/

/-- REVERT (R157). -/
def execRevert (s : State) : Host.Outcome State Fault Refusal :=
  .next (s.owedEvent .revert State.makeRevert)

/-- WINDOW_EXPIRY (R159). -/
def execWindowExpiry (group : Nat) (s : State) : Host.Outcome State Fault Refusal :=
  .next (s.owedEvent (.windowExpiry group) (fun t => t.expireWindow group))

/-- SLOW_TICK (R159, R162, R163). -/
def execSlowTick (s : State) : Host.Outcome State Fault Refusal :=
  .next (s.owedEvent .slowTick State.makeSlowTick)

/-! ### CLEAR_LOCKOUT (R161) -/

/-- One group's lockout is cleared (R161). -/
def State.clearLockout (s : State) (group : Nat) : State :=
  ((s.forget (.windowExpiry group)).modGroup group (fun g => { g with
    lockedOut := false, revertCount := 0, windowTimer := none })).restate group .locked .reverted

/-- The LOCKED circuits of some groups (R161). -/
def State.lockedCircuits (s : State) (targets : List Nat) : List Nat :=
  allCircuits.filter (fun n => (s.circuit n).state == .locked && targets.contains (s.circuit n).group)

def State.bodyClearLockout (s : State) (target : Nat) : Reply :=
  match readTarget target with
  | some gs => (gs.foldl State.clearLockout s).done .ok (u16 (s.lockedCircuits gs).length)
  | none => s.refuse .badParam

def State.cmdClearLockout (s : State) (l : Link) (target : Nat) : State :=
  s.command l .transport (.clearLockout l target) (fun t => t.bodyClearLockout target)

/-- CLEAR_LOCKOUT (R161). -/
def execClearLockout (l : Link) (target : Nat) (s : State) : Host.Outcome State Fault Refusal :=
  .next (s.cmdClearLockout l target)

/-! ### COMMIT and UNCOMMIT (R166, R167) -/

def State.bodyCommit (s : State) (circuit : Nat) : Reply :=
  if circuitOk circuit then
    if (s.circuit circuit).state != .fibreProtected || s.queued circuit then s.refuse .refusedState
    else ((s.modCircuit circuit (fun c => c.enter .fibreOnly)).recondition circuit).done .ok []
  else s.refuse .badParam

def State.cmdCommit (s : State) (l : Link) (circuit : Nat) : State :=
  s.command l .transport (.commit l circuit) (fun t => t.bodyCommit circuit)

/-- COMMIT (R166). -/
def execCommit (l : Link) (circuit : Nat) (s : State) : Host.Outcome State Fault Refusal :=
  .next (s.cmdCommit l circuit)

def State.bodyUncommit (s : State) (circuit : Nat) : Reply :=
  if circuitOk circuit then
    if (s.circuit circuit).state != .fibreOnly then s.refuse .refusedState
    else ((s.modCircuit circuit (fun c => c.enter .fibreProtected)).recondition circuit).done .ok []
  else s.refuse .badParam

def State.cmdUncommit (s : State) (l : Link) (circuit : Nat) : State :=
  s.command l .transport (.uncommit l circuit) (fun t => t.bodyUncommit circuit)

/-- UNCOMMIT (R167). -/
def execUncommit (l : Link) (circuit : Nat) (s : State) : Host.Outcome State Fault Refusal :=
  .next (s.cmdUncommit l circuit)

end Sys2Proof.Machine
end

