-- ==== Sys2Proof/Machine/LinkCommands.lean ====
section
/-! DEFINITION. Machine/LinkCommands.lean: the watchdog (R176, R177), KEEPALIVE, READ_STATUS, READ_COUNTERS,
TAKE_NOTICES and SET_NOTICE_LEVELS (R179, R180, R185, R186). -/

namespace Sys2Proof.Machine

/-! ### The watchdog (R176, R177) -/

/-- A LINK_SILENT or LINK_ALIVE notice (R177). -/
def linkEvent (cls : NoticeClass) (l : Link) : Event :=
  { cls := cls, subject := none, cause := none, value := valueOf (linkCode l) }

/-- A link's count has reached the timeout (R176). -/
def State.linkSilentDue (s : State) (l : Link) : Bool :=
  (s.link l).alive
    && (match Config.watchdogTimeout s.watchdogStrap, (s.link l).watchdog with
        | some t, some c => decide (t ≤ c)
        | _, _ => false)

/-- A link whose count has reached the timeout becomes SILENT (R176, R177). -/
def State.silenceIfDue (s : State) (l : Link) : State :=
  if s.linkSilentDue l then (s.modLink l (fun k => { k with alive := false })).raise (linkEvent .linkSilent l) else s

/-- A good frame refreshes the watchdog; a SILENT link becomes ALIVE. A boundary taken before it has made the link SILENT
where it raised the count to the timeout (R176, R177). -/
def State.refreshWatchdog (s : State) (l : Link) : State :=
  let u := s.takeOwed (.linkSilent l) (fun t => t.silenceIfDue l)
  let v := u.modLink l (fun k => { k with watchdog := some 0, alive := true })
  if (u.link l).alive then v else v.raise (linkEvent .linkAlive l)

/-- LINK_SILENT (R176). -/
def execLinkSilent (l : Link) (s : State) : Host.Outcome State Fault Refusal :=
  .next (s.owedEvent (.linkSilent l) (fun t => t.silenceIfDue l))

/-! ### KEEPALIVE (R177) -/

/-- KEEPALIVE changes nothing beyond the watchdog refresh of its good frame; a command handed over by COMMAND_FRAME has
had its refresh there (R172, R177). -/
def State.cmdKeepalive (s : State) (l : Link) : State :=
  s.event (fun t =>
    if t.takes l (.keepalive l) then
      State.respond (if (t.link l).handed.isSome then t else t.refreshWatchdog l) l .ok []
    else t)

/-- KEEPALIVE (R177). -/
def execKeepalive (l : Link) (s : State) : Host.Outcome State Fault Refusal :=
  .next (s.cmdKeepalive l)

/-! ### READ_STATUS (R180) -/

/-- The number of busy contexts (R180). -/
def State.busyContexts (s : State) : Nat := (contextNumbers.filter (fun c => (s.ctx c).busy)).length

/-- A link as READ_STATUS returns it; the carrying link reports ANSWERING (R180). -/
def State.linkBytes (s : State) (carrying l : Link) : List Byte :=
  let k := s.link l
  flag (!k.alive) ++ optField 2 u16 k.watchdog
    ++ u8 (if l = carrying then RxState.answering.code else k.rx.code) ++ optField 3 u24 k.rate

def State.statusIdentity (s : State) : List Byte :=
  u8 (resetCauseCode s.resetCause) ++ u8 s.ownAddress ++ u8 s.ownSite ++ u8 s.watchdogStrap

def State.statusAdmission (s : State) : List Byte :=
  (flag s.noContext ++ flag (!s.peerPresent) ++ flag s.portHalt ++ flag s.linkASilent ++ flag s.linkBSilent)
    ++ (flag s.admitting.requireA ++ flag s.admitting.requireB)
    ++ (flag s.peerPresent ++ flag s.port.los ++ optField 2 u16 s.port.wordAge ++ flag s.peer.silent)
    ++ (u8 s.busyContexts ++ u8 s.queue.length)

/-- The Cell Pool in READ_STATUS: the three fields of R180 in its order, and no other (R190). DESIGN CHOICE (log entry 31): the head's wait count is sent as two bytes without a
presence byte, and they are 0 while the wait list is empty (R101 gives the count to a head only). -/
def State.statusPool (s : State) : List Byte :=
  u16 s.pool.free ++ s.pool.waitList.flatMap u8 ++ u16 s.pool.waitCount

def State.statusAlignment (s : State) : List Byte :=
  u8 s.align.n ++ u8 s.align.spreadLimit ++ u16 s.align.walkInterval ++ u16 s.align.poolTimeout
    ++ u8 s.align.walkCounter

def State.bodyReadStatus (s : State) (l : Link) : Reply :=
  s.done .ok (s.statusIdentity ++ (u16 s.stamp ++ u16 s.frameCount)
    ++ (Table.toList s.spans).flatMap (fun x => u8 x.state.code)
    ++ s.statusAdmission ++ (flag s.map.mismatch ++ flag s.map.applyPending)
    ++ s.statusPool ++ s.statusAlignment ++ (s.linkBytes l .a ++ s.linkBytes l .b))

def State.cmdReadStatus (s : State) (l : Link) : State :=
  s.command l .either (.readStatus l) (fun t => t.bodyReadStatus l)

/-- READ_STATUS (R180). -/
def execReadStatus (l : Link) (s : State) : Host.Outcome State Fault Refusal :=
  .next (s.cmdReadStatus l)

/-! ### READ_COUNTERS (R71, R179) -/

def LinkRec.counterBytes (k : LinkRec) : List Byte := u16 k.crcErrors ++ u16 k.framingErrors

def State.counterBytes (s : State) : List Byte :=
  s.linkA.counterBytes ++ s.linkB.counterBytes
    ++ (u32 s.port.erroredFrames ++ u16 s.port.wordChecks ++ u16 s.port.windowPosition ++ u16 s.port.windowCount)
    ++ u16 s.peer.viewFull

/-- The seven counters are set to 0 (R179). -/
def State.clearCounters (s : State) : State :=
  { s with
    linkA := { s.linkA with crcErrors := 0, framingErrors := 0 }
    linkB := { s.linkB with crcErrors := 0, framingErrors := 0 }
    port := { s.port with erroredFrames := 0, wordChecks := 0 }
    peer := { s.peer with viewFull := 0 } }

def State.bodyReadCounters (s : State) (clear : Nat) : Reply :=
  match readBool clear with
  | some true => s.clearCounters.done .ok s.counterBytes
  | some false => s.done .ok s.counterBytes
  | none => s.refuse .badParam

def State.cmdReadCounters (s : State) (l : Link) (clear : Nat) : State :=
  s.command l .either (.readCounters l clear) (fun t => t.bodyReadCounters clear)

/-- READ_COUNTERS (R179). -/
def execReadCounters (l : Link) (clear : Nat) (s : State) : Host.Outcome State Fault Refusal :=
  .next (s.cmdReadCounters l clear)

/-! ### TAKE_NOTICES (R185) -/

/-- A link after a take: the oldest `n` notices leave and the overflow mark is cleared (R185, R187). -/
def LinkRec.take (k : LinkRec) (n : Nat) : LinkRec :=
  LinkRec.refresh { k with notices := k.notices.drop n, overflow := false }

/-- The data of a take (R185, section 12.4). DEDUCED (log entry 17): a set overflow mark is sent as 1. -/
def LinkRec.takenBytes (k : LinkRec) (n : Nat) : List Byte :=
  flag k.overflow ++ u8 (k.notices.take n).length ++ u8 (k.notices.drop n).length
    ++ (k.notices.take n).flatMap Notice.bytes

def State.bodyTakeNotices (s : State) (l : Link) (count : Nat) : Reply :=
  if count = 0 then s.refuse .badParam
  else (s.modLink l (fun k => k.take (min count 8))).done (clampStatus [count] [min count 8])
    ((s.link l).takenBytes (min count 8))

def State.cmdTakeNotices (s : State) (l : Link) (count : Nat) : State :=
  s.command l .either (.takeNotices l count) (fun t => t.bodyTakeNotices l count)

/-- TAKE_NOTICES (R185). -/
def execTakeNotices (l : Link) (count : Nat) (s : State) : Host.Outcome State Fault Refusal :=
  .next (s.cmdTakeNotices l count)

/-! ### SET_NOTICE_LEVELS (R186) -/

/-- A link with a new levels table and attention threshold (R186, R187). -/
def LinkRec.withLevels (k : LinkRec) (levels : List Nat) (threshold : Nat) : LinkRec :=
  LinkRec.refresh { k with levels := Table.ofList 18 0 levels, threshold := threshold }

def State.bodySetNoticeLevels (s : State) (l : Link) (levels : List Nat) (threshold : Nat) : Reply :=
  if levels.length = 18 ∧ levels.all (fun n => decide (n < 4)) then
    (s.modLink l (fun k => k.withLevels levels (clamp 1 3 threshold))).done
      (clampStatus [threshold] [clamp 1 3 threshold]) (levels.flatMap u8 ++ u8 (clamp 1 3 threshold))
  else s.refuse .badParam

def State.cmdSetNoticeLevels (s : State) (l : Link) (levels : List Nat) (threshold : Nat) : State :=
  s.command l .either (.setNoticeLevels l levels threshold) (fun t => t.bodySetNoticeLevels l levels threshold)

/-- SET_NOTICE_LEVELS (R186). -/
def execSetNoticeLevels (l : Link) (levels : List Nat) (threshold : Nat) (s : State) :
    Host.Outcome State Fault Refusal :=
  .next (s.cmdSetNoticeLevels l levels threshold)

end Sys2Proof.Machine
end

