-- ==== Sys2Proof/Machine/Links.lean ====
section
/-! DEFINITION. Machine/Links.lean: characters, frames and responses on the control links (R169 to R174), and the
handing of a command to its block. -/

namespace Sys2Proof.Machine

/-! ### The command catalogue (section 10.6, section 12.3) -/

/-- Parameter byte `i`, and the two bytes from `i` (R190). -/
def par (p : List Byte) (i : Nat) : Nat := (byteAt p i).toNat
def par16 (p : List Byte) (i : Nat) : Nat := word16 (byteAt p i) (byteAt p (i + 1))

/-- What the catalogue holds for a command code: the role, the parameter length L, and the command of the parameters
(sections 10.6 and 12.3). -/
def catalogue (l : Link) (p : List Byte) : Nat → Option (CommandRole × Nat × Instr)
  | 0x80 => some (.switch, 4, .equip l (par16 p 0) (par p 2) (par p 3))
  | 0x81 => some (.switch, 2, .unequip l (par16 p 0))
  | 0x82 => some (.switch, 3, .setClass l (par16 p 0) (par p 2))
  | 0x83 => some (.switch, 3, .setGroup l (par16 p 0) (par p 2))
  | 0x84 => some (.switch, 2, .hold l (par16 p 0))
  | 0x85 => some (.switch, 2, .unhold l (par16 p 0))
  | 0x86 => some (.switch, 1, .freeze l (par p 0))
  | 0x87 => some (.switch, 1, .thaw l (par p 0))
  | 0x88 => some (.transport, 6, .setMigration l (par p 0) (par p 1) (par p 2) (par p 3) (par p 4) (par p 5))
  | 0x89 => some (.either, 3, .readCircuits l (par16 p 0) (par p 2))
  | 0x8A => some (.either, 1, .readGroup l (par p 0))
  | 0x8B => some (.switch, 9, .setSignalling l (par p 0) (par p 1) (par p 2) (par p 3) (par p 4) (par p 5) (par p 6)
      (par p 7) (par p 8))
  | 0x8C => some (.switch, 2, .insertSpan l (par p 0) (par p 1))
  | 0x8D => some (.switch, 2, .bypassSpan l (par p 0) (par p 1))
  | 0x8E => some (.switch, 1, .cancelSpan l (par p 0))
  | 0x8F => some (.either, 1, .readSpan l (par p 0))
  | 0x90 => some (.transport, 2, .setFibreThreshold l (par16 p 0))
  | 0x91 => some (.transport, 4, .stageAssign l (par16 p 0) (par16 p 2))
  | 0x92 => some (.transport, 2, .stageRelease l (par16 p 0))
  | 0x93 => some (.transport, 0, .discardStaging l)
  | 0x94 => some (.transport, 0, .applyMap l)
  | 0x95 => some (.either, 3, .readMap l (par16 p 0) (par p 2))
  | 0x96 => some (.either, 0, .readStaging l)
  | 0x97 => some (.transport, 6, .setAlignment l (par p 0) (par p 1) (par16 p 2) (par16 p 4))
  | 0x98 => some (.transport, 3, .request l (par16 p 0) (par p 2))
  | 0x99 => some (.transport, 2, .cancelRequest l (par16 p 0))
  | 0x9A => some (.transport, 1, .abortContext l (par p 0))
  | 0x9B => some (.transport, 0, .resetMigration l)
  | 0x9C => some (.transport, 6, .setAdmission l (par p 0) (par p 1) (par16 p 2) (par16 p 4))
  | 0x9D => some (.either, 2, .readQueue l (par p 0) (par p 1))
  | 0x9E => some (.either, 1, .readContext l (par p 0))
  | 0x9F => some (.transport, 2, .setPeerSilentTime l (par16 p 0))
  | 0xA0 => some (.either, 1, .readPeer l (par p 0))
  | 0xA1 => some (.transport, 4, .setFaultPolicy l (par p 0) (par p 1) (par p 2) (par p 3))
  | 0xA2 => some (.either, 2, .clearFault l (par p 0) (par p 1))
  | 0xA3 => some (.either, 0, .readFaults l)
  | 0xA4 => some (.transport, 1, .clearLockout l (par p 0))
  | 0xA5 => some (.transport, 2, .commit l (par16 p 0))
  | 0xA6 => some (.transport, 2, .uncommit l (par16 p 0))
  | 0xA7 => some (.either, 0, .keepalive l)
  | 0xA8 => some (.either, 0, .readStatus l)
  | 0xA9 => some (.either, 1, .readCounters l (par p 0))
  | 0xAA => some (.either, 1, .takeNotices l (par p 0))
  | 0xAB => some (.either, 19, .setNoticeLevels l ((p.take 18).map BitVec.toNat) (par p 18))
  | _ => none

/-- What a controller sends for a command of the catalogue: the link, the role, the code and the parameters (sections
10.6 and 12.3). The other rows are not commands of a controller. -/
def sentCommand : Instr → Option (Link × CommandRole × Nat × List Byte)
  | .equip l circuit group cls => some (l, .switch, 0x80, u16 circuit ++ u8 group ++ u8 cls)
  | .unequip l circuit => some (l, .switch, 0x81, u16 circuit)
  | .setClass l circuit cls => some (l, .switch, 0x82, u16 circuit ++ u8 cls)
  | .setGroup l circuit group => some (l, .switch, 0x83, u16 circuit ++ u8 group)
  | .hold l circuit => some (l, .switch, 0x84, u16 circuit)
  | .unhold l circuit => some (l, .switch, 0x85, u16 circuit)
  | .freeze l target => some (l, .switch, 0x86, u8 target)
  | .thaw l target => some (l, .switch, 0x87, u8 target)
  | .setMigration l target policy autoReturn hold limit window =>
      some (l, .transport, 0x88, u8 target ++ u8 policy ++ u8 autoReturn ++ u8 hold ++ u8 limit ++ u8 window)
  | .readCircuits l first count => some (l, .either, 0x89, u16 first ++ u8 count)
  | .readGroup l group => some (l, .either, 0x8A, u8 group)
  | .setSignalling l target idle seize answer block seizeIndex clearIndex conditioning quiet =>
      some (l, .switch, 0x8B, u8 target ++ u8 idle ++ u8 seize ++ u8 answer ++ u8 block ++ u8 seizeIndex
        ++ u8 clearIndex ++ u8 conditioning ++ u8 quiet)
  | .insertSpan l span mode => some (l, .switch, 0x8C, u8 span ++ u8 mode)
  | .bypassSpan l span mode => some (l, .switch, 0x8D, u8 span ++ u8 mode)
  | .cancelSpan l span => some (l, .switch, 0x8E, u8 span)
  | .readSpan l span => some (l, .either, 0x8F, u8 span)
  | .setFibreThreshold l threshold => some (l, .transport, 0x90, u16 threshold)
  | .stageAssign l slot circuit => some (l, .transport, 0x91, u16 slot ++ u16 circuit)
  | .stageRelease l slot => some (l, .transport, 0x92, u16 slot)
  | .discardStaging l => some (l, .transport, 0x93, [])
  | .applyMap l => some (l, .transport, 0x94, [])
  | .readMap l first count => some (l, .either, 0x95, u16 first ++ u8 count)
  | .readStaging l => some (l, .either, 0x96, [])
  | .setAlignment l n spread walk timeout =>
      some (l, .transport, 0x97, u8 n ++ u8 spread ++ u16 walk ++ u16 timeout)
  | .request l circuit direction => some (l, .transport, 0x98, u16 circuit ++ u8 direction)
  | .cancelRequest l circuit => some (l, .transport, 0x99, u16 circuit)
  | .abortContext l context => some (l, .transport, 0x9A, u8 context)
  | .resetMigration l => some (l, .transport, 0x9B, [])
  | .setAdmission l requireA requireB bridge step =>
      some (l, .transport, 0x9C, u8 requireA ++ u8 requireB ++ u16 bridge ++ u16 step)
  | .readQueue l first count => some (l, .either, 0x9D, u8 first ++ u8 count)
  | .readContext l context => some (l, .either, 0x9E, u8 context)
  | .setPeerSilentTime l time => some (l, .transport, 0x9F, u16 time)
  | .readPeer l part => some (l, .either, 0xA0, u8 part)
  | .setFaultPolicy l kind scope enabled actions =>
      some (l, .transport, 0xA1, u8 kind ++ u8 scope ++ u8 enabled ++ u8 actions)
  | .clearFault l kind scope => some (l, .either, 0xA2, u8 kind ++ u8 scope)
  | .readFaults l => some (l, .either, 0xA3, [])
  | .clearLockout l target => some (l, .transport, 0xA4, u8 target)
  | .commit l circuit => some (l, .transport, 0xA5, u16 circuit)
  | .uncommit l circuit => some (l, .transport, 0xA6, u16 circuit)
  | .keepalive l => some (l, .either, 0xA7, [])
  | .readStatus l => some (l, .either, 0xA8, [])
  | .readCounters l clear => some (l, .either, 0xA9, u8 clear)
  | .takeNotices l count => some (l, .either, 0xAA, u8 count)
  | .setNoticeLevels l levels threshold => some (l, .either, 0xAB, levels.flatMap u8 ++ u8 threshold)
  | _ => none

/-- The bytes of a command frame (section 12.3). -/
def commandBytes (address code : Nat) (parameters : List Byte) : List Byte :=
  withCrc16 (u8 code ++ u8 address ++ u8 parameters.length ++ parameters)

/-- A controller command reaches its owning block; any other row is not one. -/
def State.runCommand (s : State) : Instr → State
  | .equip l circuit group cls => s.cmdEquip l circuit group cls
  | .unequip l circuit => s.cmdUnequip l circuit
  | .setClass l circuit cls => s.cmdSetClass l circuit cls
  | .setGroup l circuit group => s.cmdSetGroup l circuit group
  | .hold l circuit => s.cmdHold l circuit
  | .unhold l circuit => s.cmdUnhold l circuit
  | .freeze l target => s.cmdFreeze l target
  | .thaw l target => s.cmdThaw l target
  | .setMigration l target policy autoReturn hold limit window =>
      s.cmdSetMigration l target policy autoReturn hold limit window
  | .readCircuits l first count => s.cmdReadCircuits l first count
  | .readGroup l group => s.cmdReadGroup l group
  | .setSignalling l target idle seize answer block seizeIndex clearIndex conditioning quiet =>
      s.cmdSetSignalling l target idle seize answer block seizeIndex clearIndex conditioning quiet
  | .insertSpan l span mode => s.cmdInsertSpan l span mode
  | .bypassSpan l span mode => s.cmdBypassSpan l span mode
  | .cancelSpan l span => s.cmdCancelSpan l span
  | .readSpan l span => s.cmdReadSpan l span
  | .setFibreThreshold l threshold => s.cmdSetFibreThreshold l threshold
  | .stageAssign l slot circuit => s.cmdStageAssign l slot circuit
  | .stageRelease l slot => s.cmdStageRelease l slot
  | .discardStaging l => s.cmdDiscardStaging l
  | .applyMap l => s.cmdApplyMap l
  | .readMap l first count => s.cmdReadMap l first count
  | .readStaging l => s.cmdReadStaging l
  | .setAlignment l n spread walk timeout => s.cmdSetAlignment l n spread walk timeout
  | .request l circuit direction => s.cmdRequest l circuit direction
  | .cancelRequest l circuit => s.cmdCancelRequest l circuit
  | .abortContext l context => s.cmdAbortContext l context
  | .resetMigration l => s.cmdResetMigration l
  | .setAdmission l requireA requireB bridge step => s.cmdSetAdmission l requireA requireB bridge step
  | .readQueue l first count => s.cmdReadQueue l first count
  | .readContext l context => s.cmdReadContext l context
  | .setPeerSilentTime l time => s.cmdSetPeerSilentTime l time
  | .readPeer l part => s.cmdReadPeer l part
  | .setFaultPolicy l kind scope enabled actions => s.cmdSetFaultPolicy l kind scope enabled actions
  | .clearFault l kind scope => s.cmdClearFault l kind scope
  | .readFaults l => s.cmdReadFaults l
  | .clearLockout l target => s.cmdClearLockout l target
  | .commit l circuit => s.cmdCommit l circuit
  | .uncommit l circuit => s.cmdUncommit l circuit
  | .keepalive l => s.cmdKeepalive l
  | .readStatus l => s.cmdReadStatus l
  | .readCounters l clear => s.cmdReadCounters l clear
  | .takeNotices l count => s.cmdTakeNotices l count
  | .setNoticeLevels l levels threshold => s.cmdSetNoticeLevels l levels threshold
  | _ => s

/-- What a broadcast command does (R172, step 4): its effects without a response, and nothing where its parameters are
bad. KEEPALIVE's effect is the refresh already made. -/
def State.carryOut (s : State) : Instr → State
  | .freeze _ target => (s.bodySetFrozen target true).state
  | .thaw _ target => (s.bodySetFrozen target false).state
  | .setNoticeLevels l levels threshold => (s.bodySetNoticeLevels l levels threshold).state
  | _ => s

/-! ### Judging a complete frame (R172, R173) -/

/-- The frame in the buffer is complete: its second CRC byte has arrived (R171). -/
def frameComplete (buffer : List Byte) : Bool :=
  decide (3 ≤ buffer.length) && decide (buffer.length = par buffer 2 + 5)

/-- The check of a complete frame (R172, step 1). -/
def commandCheck (buffer : List Byte) : Bool :=
  (crc16 (buffer.take (buffer.length - 2))).toNat == par16 buffer (buffer.length - 2)

/-- The parameters of a complete frame. -/
def commandParameters (buffer : List Byte) : List Byte := (buffer.drop 3).take (par buffer 2)

/-- An addressed frame is dispatched (R173): the first of the checks 1 to 3 that fails is answered at once; a frame that
passes them is handed to the owning block, which takes it by its own row (log entry 6). -/
def State.dispatchFrame (s : State) (l : Link) (buffer : List Byte) : State :=
  let u := s.modLink l (fun k => { k with rx := .answering })
  match catalogue l (commandParameters buffer) (par buffer 0) with
  | none => u.answer l .badCommand []
  | some (role, length, i) =>
    if !role.permits l then u.answer l .notPermitted []
    else if par buffer 2 ≠ length then u.answer l .badParam []
    else u.modLink l (fun k => { k with handed := some i })

/-- A broadcast frame is carried out or ignored (R172, step 4). -/
def State.broadcastFrame (s : State) (l : Link) (buffer : List Byte) : State :=
  match catalogue l (commandParameters buffer) (par buffer 0) with
  | none => s
  | some (role, length, i) => if role.permits l ∧ par buffer 2 = length then s.carryOut i else s

/-- A complete frame with a good check (R172, steps 2 to 5); the part strapped to 63 has no address of its own (R178). -/
def State.addressFrame (s : State) (l : Link) (buffer : List Byte) : State :=
  if par buffer 1 = 63 then (s.refreshWatchdog l).broadcastFrame l buffer
  else if par buffer 1 = s.ownAddress then (s.refreshWatchdog l).dispatchFrame l buffer
  else s

/-- The complete frame in a link's buffer is judged (R172). -/
def State.judgeCommand (s : State) (l : Link) : State :=
  let buffer := (s.link l).buffer
  if frameComplete buffer then
    let u := s.modLink l (fun k => { k with rx := .hunt, buffer := [] })
    if commandCheck buffer then u.addressFrame l buffer
    else u.modLink l (fun k => { k with crcErrors := min 65535 (k.crcErrors + 1) })
  else s

/-- COMMAND_FRAME (R172). -/
def execCommandFrame (l : Link) (s : State) : Host.Outcome State Fault Refusal :=
  .next (s.event (fun t => t.judgeCommand l))

/-- What a link owes before its next event: a complete frame is judged, and a command handed over is taken (log
entry 6). -/
def State.settleLink (s : State) (l : Link) : State :=
  let u := s.judgeCommand l
  match (u.link l).handed with
  | some i => u.runCommand i
  | none => u

/-- An event of a link's own line. -/
def State.lineEvent (s : State) (l : Link) (act : LinkRec → LinkRec) : State :=
  s.event (fun t => (t.settleLink l).modLink l act)

/-! ### Characters (R169, R171) -/

/-- A frame in assembly is abandoned with a framing error (R169, R171). -/
def LinkRec.abandon (k : LinkRec) : LinkRec :=
  { k with rx := .hunt, buffer := [], framingErrors := min 65535 (k.framingErrors + 1) }

/-- A byte with the code form starts a frame: its top bit is 1 and its next bit 0 (R171). -/
def isCodeByte (b : Byte) : Bool := b.getLsbD 7 && !b.getLsbD 6

/-- A received character (R171). -/
def LinkRec.character (k : LinkRec) (b : Byte) : LinkRec :=
  match k.rx with
  | .hunt => if isCodeByte b then { k with rx := .inFrame, buffer := [b] } else k
  | .inFrame =>
    if k.buffer.length = 2 ∧ 40 < b.toNat then k.abandon else { k with buffer := k.buffer ++ [b] }
  | .unsynced => k
  | .syncWait => k
  | .answering => k

/-- CHARACTER (R171): a frame completed by it is judged by COMMAND_FRAME. -/
def execCharacter (l : Link) (bits : List Bool) (s : State) : Host.Outcome State Fault Refusal :=
  .next (s.lineEvent l (fun k => k.character (byteOfLine bits)))

/-- A character error (R169). -/
def LinkRec.characterError (k : LinkRec) : LinkRec :=
  match k.rx with
  | .hunt => k.abandon
  | .inFrame => k.abandon
  | .unsynced => k
  | .syncWait => k
  | .answering => k

/-- CHARACTER_ERROR (R169). -/
def execCharacterError (l : Link) (s : State) : Host.Outcome State Fault Refusal :=
  .next (s.lineEvent l LinkRec.characterError)

/-- More than 20 ms between two bytes of a frame (R171). -/
def LinkRec.gap (k : LinkRec) : LinkRec := if k.rx = .inFrame then k.abandon else k

/-- INTER_BYTE_TIMEOUT (R171). -/
def execInterByteTimeout (l : Link) (s : State) : Host.Outcome State Fault Refusal :=
  .next (s.lineEvent l LinkRec.gap)

/-! ### Line reset and sync (R169, R170, R174) -/

/-- A link at a line reset (R169). -/
def LinkRec.lineReset (k : LinkRec) : LinkRec :=
  { k with rx := .syncWait, rate := none, buffer := [], response := none }

/-- A line reset; that of link B cancels the response of a pending apply (R78, R169, R174). -/
def State.resetLine (s : State) (l : Link) : State :=
  let u := s.modLink l LinkRec.lineReset
  match l with
  | .a => u
  | .b => { u with map := { u.map with applyAnswer := false } }

/-- LINE_RESET (R169). -/
def execLineReset (l : Link) (s : State) : Host.Outcome State Fault Refusal :=
  .next (s.event (fun t => (t.settleLink l).resetLine l))

/-- The sync character is taken: the measured rate is in range and the rest samples as 0xC3 with a high stop bit
(R170). -/
def syncGood (rate : Nat) (sampled : Byte) (stop : Bool) : Bool :=
  decide (19200 ≤ rate) && decide (rate ≤ 1000000) && sampled == 0xC3 && stop

/-- The awaited character (R170); `held` is whether a pending apply holds the link in ANSWERING (R174). -/
def LinkRec.sync (k : LinkRec) (held : Bool) (rate : Nat) (sampled : Byte) (stop : Bool) : LinkRec :=
  if k.rx = .syncWait then
    if syncGood rate sampled stop then { k with rate := some rate, rx := if held then .answering else .hunt }
    else { k with rx := .unsynced, framingErrors := min 65535 (k.framingErrors + 1) }
  else k

/-- SYNC_CHARACTER (R170). -/
def execSyncCharacter (l : Link) (rate : Nat) (bits : List Bool) (stop : Bool) (s : State) :
    Host.Outcome State Fault Refusal :=
  .next (s.event (fun t =>
    let u := t.settleLink l
    u.modLink l (fun k => k.sync (u.closed l) rate (byteOfLine bits) stop)))

/-! ### The end of a response (R174) -/

/-- The last stop bit of a response has been sent (R174). -/
def LinkRec.responseSent (k : LinkRec) : LinkRec :=
  if k.response.isSome then { k with response := none, rx := if k.rx = .answering then .hunt else k.rx } else k

/-- RESPONSE_SENT (R174). -/
def execResponseSent (l : Link) (s : State) : Host.Outcome State Fault Refusal :=
  .next (s.lineEvent l LinkRec.responseSent)

end Sys2Proof.Machine
end

