-- ==== Sys2Proof/Machine/Boundary.lean ====
section
/-! DEFINITION. Machine/Boundary.lean: the superframe boundary (R1): the events it owes, its supervision and its
timers (log entry 2). -/

namespace Sys2Proof.Machine

/-! ### What a boundary owes -/

/-- Whether an event is owed from the opening of the boundary: it rests on what stood before the boundary (R52, R78,
R97, R121, R124, R157), or, the admission, falls at every boundary in any order with the others (R113). -/
def State.opens (s : State) : BoundaryEvent → Bool
  | .abortReturn c => (s.ctx c).state == .aborting && (s.ctx c).returnPending
  | .switch c => (s.ctx c).state == .ready && (s.ctx c).switchDue
  | .revert => s.faults.revertPending.isSome
  | .walkSlot => true
  | .mapApply => s.map.applyPending
  | .drainComplete x => (s.span x).state.drained.isSome
  | .slowTick => false
  | .windowEnd => false
  | .windowExpiry _ => false
  | .stepTimeout _ => false
  | .bridgeTimeout _ => false
  | .poolTimeout => false
  | .abortingEnd _ => false
  | .lingerExpiry _ => false
  | .linkSilent _ => false
  | .admission => true

/-- The events that may be owed from the opening, in the order in which a frame takes what is left of them. -/
def openingEvents : List BoundaryEvent :=
  contextNumbers.map .abortReturn ++ contextNumbers.map .switch ++ [.revert, .walkSlot, .mapApply]
    ++ (List.range 16).map .drainComplete ++ [.admission]

/-- The boundary opens: the stamp rises by 1 (R1), and the events that rest on what stood before are owed. -/
def State.openBoundary (s : State) : State :=
  { s with
    boundaryDue := false
    stamp := (s.stamp + 1) % 65536
    owed := s.owed ++ openingEvents.filter s.opens }

/-- The slots whose linger has reached 0 (R136). -/
def State.expiredSlots (s : State) : List Nat := (s.peer.adverts.filter Advert.expired).map Advert.slot

/-- The events owed once the timers have been raised; `ending` are the contexts that were in ABORTING when the boundary
opened (R125). -/
def State.lateEvents (s : State) (ending : List Nat) : List BoundaryEvent :=
  (if s.stamp % 128 = 0 then [.slowTick] else [])
    ++ (if Config.windowLength ≤ s.port.windowPosition then [.windowEnd] else [])
    ++ (contextNumbers.filter s.stepTimeoutDue).map .stepTimeout
    ++ (contextNumbers.filter s.bridgeTimeoutDue).map .bridgeTimeout
    ++ (if s.poolTimeoutDue then [.poolTimeout] else [])
    ++ (ending.filter (fun c => (s.ctx c).state == .aborting)).map .abortingEnd
    ++ s.expiredSlots.map .lingerExpiry
    ++ ([Link.a, Link.b].filter s.linkSilentDue).map .linkSilent

/-- A frame takes the admission after the other events of the boundary, where no row has taken it (log entry 2). -/
def admissionLast (owed : List BoundaryEvent) : List BoundaryEvent :=
  owed.filter (fun e => e != .admission) ++ owed.filter (fun e => e == .admission)

/-! ### Timers -/

/-- A context's timers at a boundary (R119, R123, R125). -/
def Ctx.tick (x : Ctx) : Ctx :=
  { x with
    stepTimer := if x.stepRunning then x.stepTimer + 1 else x.stepTimer
    bridgeTimer := if x.state = .measure ∧ !x.begun then x.bridgeTimer + 1 else x.bridgeTimer
    abortCount := if x.state = .aborting then Nat.min 32 (x.abortCount + 1) else x.abortCount }

/-- A linger's count falls by 1 (R136). -/
def Advert.tick (a : Advert) : Advert :=
  match a.kind with
  | .linger n k => { a with kind := .linger (n - 1) k }
  | .context _ => a

/-- The head's wait count rises by 1 (R101). -/
def Pool.tick (p : Pool) : Pool := if p.waitList.isEmpty then p else { p with waitCount := p.waitCount + 1 }

/-- The word age and the window position rise by 1 (R65, R66). A position of 500 stands until the window's end is taken
(log entry 35, DESIGN CHOICE). -/
def FibrePort.tick (p : FibrePort) : FibrePort :=
  { p with
    wordAge := p.wordAge.map (fun a => min Config.wordAgeLimit (a + 1))
    windowPosition := p.windowPosition + 1 }

/-- The watchdog count of an ALIVE link rises by 1 where a timeout is set (R176). -/
def LinkRec.tick (k : LinkRec) : Option Nat → LinkRec
  | some t => if k.alive then { k with watchdog := k.watchdog.map (fun c => min t (c + 1)) } else k
  | none => k

/-- The counts of migration work move as a boundary opens: those of contexts (R119, R123, R125), the head's wait count
(R101) and the linger counts (R136). A count that an event of the same boundary sets therefore stands there at its first
value, as in section 7.8, where a context admitted at a boundary has step timer 0 at it (log entry 2). -/
def State.tickWork (s : State) : State :=
  { s with
    contexts := Table.mapIdx s.contexts (fun _ x => x.tick)
    pool := s.pool.tick
    peer := { s.peer with adverts := s.peer.adverts.map Advert.tick } }

/-- The timers of the fibre port and of the links rise at a boundary (R65, R66, R176). -/
def State.tickPorts (s : State) : State :=
  { s with
    port := s.port.tick
    linkA := s.linkA.tick (Config.watchdogTimeout s.watchdogStrap)
    linkB := s.linkB.tick (Config.watchdogTimeout s.watchdogStrap) }

/-! ### Taking an owed event -/

/-- An event of the present boundary is taken. -/
def State.perform (s : State) : BoundaryEvent → State
  | .abortReturn c => s.owedEvent (.abortReturn c) (fun t => t.returnIfPending c)
  | .switch c => s.owedEvent (.switch c) (fun t => t.makeSwitch c)
  | .revert => s.owedEvent .revert State.makeRevert
  | .walkSlot => s.owedEvent .walkSlot State.walk
  | .mapApply => s.owedEvent .mapApply State.makeApply
  | .drainComplete x => s.event (fun t => t.takeDrains x)
  | .slowTick => s.owedEvent .slowTick State.makeSlowTick
  | .windowEnd => s.owedEvent .windowEnd State.endWindow
  | .windowExpiry g => s.owedEvent (.windowExpiry g) (fun t => t.expireWindow g)
  | .stepTimeout c => s.owedEvent (.stepTimeout c) (fun t => t.stepTimeoutIfDue c)
  | .bridgeTimeout c => s.owedEvent (.bridgeTimeout c) (fun t => t.bridgeTimeoutIfDue c)
  | .poolTimeout => s.owedEvent .poolTimeout State.poolTimeoutIfDue
  | .abortingEnd c => s.owedEvent (.abortingEnd c) (fun t => t.endAborting c)
  | .lingerExpiry x => s.owedEvent (.lingerExpiry x) (fun t => t.expireLinger x)
  | .linkSilent l => s.owedEvent (.linkSilent l) (fun t => t.silenceIfDue l)
  | .admission => s.owedEvent .admission State.makeAdmission

/-! ### The boundary -/

/-- The contexts in ABORTING. -/
def State.abortingContexts (s : State) : List Nat := contextNumbers.filter (fun c => (s.ctx c).state == .aborting)

/-- A superframe boundary that is due: it opens, the counts of migration work move, the events of `before` are taken, the
supervision is made (R22 to R31), the other timers are raised, and what the timers make due is owed. -/
def State.takeBoundary (s : State) (before : List BoundaryEvent) : State :=
  let ending := s.abortingContexts
  let s1 := before.foldl State.perform s.openBoundary.tickWork
  let s2 := s1.settle.supervise
  let s3 := s2.tickPorts
  { s3 with owed := admissionLast (s3.owed ++ s3.lateEvents ending) }

/-- The boundary is taken where it is due. -/
def State.boundary (s : State) (before : List BoundaryEvent) : State :=
  if s.boundaryDue then s.takeBoundary before else s

/-- SUPERFRAME_BOUNDARY (R1). -/
def execSuperframeBoundary (before : List BoundaryEvent) (s : State) : Host.Outcome State Fault Refusal :=
  .next (s.event (fun t => t.boundary before))

end Sys2Proof.Machine
end

