-- ==== Sys2Proof/Machine/Frame.lean ====
section
/-! DEFINITION. Machine/Frame.lean: a frame of the site frame clock (R1): what is left of the present frame is taken,
its frames are built and sent (R42, R43, R58, R59, R137), and the next frame begins; and the cold reset and the loss of
power (R55, R178). -/

namespace Sys2Proof.Machine

/-! ### What is left of the present frame (log entry 1) -/

/-- Every event owed at the boundary is taken in the order of the list, and then the window expiries a slow tick has
added. -/
def State.takeOwedEvents (s : State) : State :=
  let s1 := s.owed.foldl State.perform s
  { s1.owed.foldl State.perform s1 with owed := [] }

/-- The slots whose peer view entry is to be removed at this frame (R140). -/
def State.agedSlots (s : State) : List Nat := (s.peer.view.filter ViewEntry.agedOut).map ViewEntry.slot

/-- The marker test of the frame is made on every span where no received frame has made it (R48; log entry 19). -/
def State.missMarkers (s : State) : State :=
  { s with spans := Table.mapIdx s.spans (fun _ x => x.missMarker s.peerPresent) }

/-- The events that fall due within the frame: marker losses, marker timeouts, age-outs (R48, R93, R140). -/
def State.takeFrameEvents (s : State) : State :=
  let s1 := (List.range 16).foldl (fun t x => (t.declareMarkerLoss x).settle) s.missMarkers
  let s2 := contextNumbers.foldl (fun t c => (t.markerTimeoutIfDue c).settle) s1
  s2.agedSlots.foldl (fun t x => (t.ageOut x).settle) s2

/-- What is left of the present frame is taken: the links' frames and commands, the boundary, the events it owes, and
the events of the frame. -/
def State.closeFrame (s : State) : State :=
  let s1 := ((s.settleLink .a).settleLink .b).settle
  let s2 := (s1.boundary []).takeOwedEvents.settle
  s2.takeFrameEvents

/-! ### The carriage frame (R58, R59, R137) -/

/-- The switch side's sample and code of a circuit's channel: while SWITCH_LOS is declared, 0xFF and the last code
before the loss (R42, R59). -/
def State.fromSwitch (s : State) (n : Nat) : Byte × Code :=
  if (s.span (spanOf n)).switch.los then (0xFF, (s.channel n).switch.held)
  else ((s.channel n).switch.sample, (s.channel n).switch.code)

/-- The bridging includes the fibre (R5). -/
def Bridging.hasFibre : Bridging → Bool
  | .copper => false
  | .both => true
  | .fibre => true

/-- The sample and code of a slot (R59). -/
def State.slotContent (s : State) (slot : Nat) : Byte × Code :=
  match s.boundTo slot with
  | none => (0x00, Config.vacant)
  | some n => if (s.circuit n).transmit.hasFibre then s.fromSwitch n else (0x00, Config.vacant)

/-- The word an advertisement sends (R132, R137). -/
def Advert.word (a : Advert) (site : Nat) : ExchangeWord :=
  { step := a.step.code, site := site, slot := a.slot, argument := a.argument }

/-- The word of the rotation for the frame being built (R137). -/
def State.rotationWord (s : State) : ExchangeWord :=
  match s.peer.position with
  | none => digestWord s.ownSite s.map.ownDigest
  | some k =>
    match s.peer.adverts[k]? with
    | some a => a.word s.ownSite
    | none => digestWord s.ownSite s.map.ownDigest

/-- The rotation's position after a word has been sent (R137). -/
def PeerExchange.nextPosition (p : PeerExchange) : Option Nat :=
  match p.position with
  | none => if p.adverts.isEmpty then none else some 0
  | some k => if k + 1 < p.adverts.length then some (k + 1) else none

/-- The slots of a signalling block (R58). -/
def blockSlots (f : Nat) : List Nat := (List.range 32).map (fun i => 32 * (f % 16) + i)

/-- The carriage frame of the present frame count (R58). -/
def State.carriageFrame (s : State) : CarriageFrame where
  sequence := s.frameCount
  word := s.rotationWord
  codes := (blockSlots s.frameCount).map (fun k => (s.slotContent k).2)
  samples := (List.range 512).map (fun k => (s.slotContent k).1)

/-! ### The copper frames (R42, R43, R46) -/

/-- What goes towards the line on a circuit's channel (R42). -/
def State.toLine (s : State) (n : Nat) : Byte × Code :=
  match (s.circuit n).transmit with
  | .copper => s.fromSwitch n
  | .both => s.fromSwitch n
  | .fibre => ((s.groupOf n).quiet, (s.groupOf n).idle)

/-- The backward code of the selected path towards the switch; in a loss the code held from before it (R43). -/
def State.selectedCode (s : State) (n : Nat) : Code :=
  match (s.circuit n).receive with
  | .copper => if (s.span (spanOf n)).line.los then (s.channel n).line.held else (s.channel n).line.code
  | .fibre =>
    match (s.circuit n).slot with
    | some k => if s.port.los then Table.at s.port.heldCodes Config.vacant k else s.slotCode k
    | none => Config.vacant

/-- What goes towards the switch on a circuit's channel: the receive selector's output, or the group's conditioning
code and quiet sample (R43, R165). -/
def State.toSwitch (s : State) (n : Nat) : Byte × Code :=
  if (s.circuit n).conditioned then ((s.groupOf n).quiet, (s.groupOf n).conditioning)
  else ((s.circuit n).lastOn (s.circuit n).receive, s.selectedCode n)

/-- The code that the frame of count `f` carries for a channel: each channel's code goes once in each superframe (R42; the
frame of the superframe is free, log entry 11). -/
def carriedCode (f channel : Nat) (code : Code) : Option Code :=
  if f % 16 = (Config.codeFrame channel).val then some code else none

/-- A copper frame of a span, or nothing while its transmitters do not send (R41, R42, R43, R53). -/
def State.copperFrame (s : State) (span : Nat) (spare : Bool) (channel : Nat → Byte × Code) : Option CopperFrame :=
  if (s.span span).sending then
    some { pattern := Config.framingPattern, spare := spare, samples := (circuitsOf span).map (fun n => (channel n).1),
           codes := (circuitsOf span).map (fun n => carriedCode s.frameCount (channelOf n) (channel n).2) }
  else none

/-- A line-side frame carries the copper marker at each frame count that is a multiple of 512 while markers are inserted
(R46). -/
def State.markerFrame (s : State) (span : Nat) : Bool := (s.span span).marking && s.frameCount % 512 == 0

/-! ### The receive paths (R87) -/

/-- The sample that arrives on a circuit's path in this frame: 0xFF on a lost path (R44, R62) and on the fibre path of
a circuit with no slot (log entry 23). -/
def State.arriving (s : State) (n : Nat) : Path → Byte
  | .copper => if (s.span (spanOf n)).line.los then 0xFF else (s.channel n).line.sample
  | .fibre =>
    match (s.circuit n).slot with
    | some k => Table.at s.port.samples 0xFF k
    | none => 0xFF

/-- A delay line takes the arriving sample and delivers its oldest, the quiet sample in a position not yet filled
(R87). -/
def deliverLine (line : List (Option Byte)) (quiet arriving : Byte) : Byte × List (Option Byte) :=
  match line with
  | [] => (arriving, [])
  | x :: rest => (x.getD quiet, rest ++ [some arriving])

/-- A circuit after the delivery of a frame on both paths (R87). -/
def Circuit.deliver (c : Circuit) (quiet copper fibre : Byte) : Circuit :=
  { c with
    copperLast := (deliverLine c.copperLine quiet copper).1
    copperLine := (deliverLine c.copperLine quiet copper).2
    fibreLast := (deliverLine c.fibreLine quiet fibre).1
    fibreLine := (deliverLine c.fibreLine quiet fibre).2 }

/-- Every circuit's paths deliver this frame's samples. -/
def State.deliverAll (s : State) : State :=
  { s with circuits := Table.mapIdx s.circuits (fun n c =>
      c.deliver (s.group c.group).quiet (s.arriving n .copper) (s.arriving n .fibre)) }

/-- The frames of the present frame count are built and sent, and the rotation moves on (R42, R43, R58, R137). -/
def State.sendFrames (s : State) : State :=
  let s1 := s.deliverAll
  { s1 with
    out := {
      carriage := some s1.carriageFrame
      line := Table.ofList 16 none ((List.range 16).map (fun x =>
        s1.copperFrame x (s1.markerFrame x) s1.toLine))
      switch := Table.ofList 16 none ((List.range 16).map (fun x => s1.copperFrame x false s1.toSwitch)) }
    peer := { s1.peer with position := s1.peer.nextPosition } }

/-! ### The next frame -/

/-- A span as a frame begins: its transmitters send (R53) and insert markers (R46) where it is cut, and its marker
test is still to be made (R48). -/
def Span.tickFrame (x : Span) : Span :=
  { x with
    sending := x.state.cut
    marking := x.state.cut
    tested := false }

/-- The elapsed count of a running attempt rises (R93). -/
def Ctx.tickFrame (x : Ctx) : Ctx :=
  if x.state = .measure ∧ x.running then { x with elapsed := x.elapsed + 1 } else x

/-- The age of a peer view entry rises (R140). An entry of age 96 stands until its age-out is taken (log entry 35, DESIGN
CHOICE). -/
def ViewEntry.tickFrame (e : ViewEntry) : ViewEntry := { e with age := e.age + 1 }

/-- The frame count rises by 1 and the counts of the new frame rise with it; a boundary is due where the count becomes
a multiple of 16 (R1). -/
def State.nextFrame (s : State) : State :=
  { s with
    frameCount := (s.frameCount + 1) % 4096
    boundaryDue := (s.frameCount + 1) % 16 == 0
    spans := Table.mapIdx s.spans (fun _ x => x.tickFrame)
    contexts := Table.mapIdx s.contexts (fun _ x => x.tickFrame)
    peer := { s.peer with view := s.peer.view.map ViewEntry.tickFrame } }

/-- FRAME (R1). -/
def execFrame (s : State) : Host.Outcome State Fault Refusal :=
  .next (s.event (fun t => t.closeFrame.sendFrames.nextFrame))

/-! ### COLD_RESET and POWER_OFF (R55, R178) -/

/-- A cold reset, from its start to its end: every record takes its cold-reset value, the straps are sampled, and the
reset cause is recorded (R55, R178). -/
def State.coldReset (s : State) (cause : ResetCause) (address site watchdog : Nat) : State :=
  { State.reset with
    pending := s.pending
    resetCause := if s.powered then cause else .powerOn
    ownAddress := address % 64
    ownSite := site % 8
    watchdogStrap := watchdog % 4 }

/-- COLD_RESET (R55, R178). -/
def execColdReset (cause : ResetCause) (address site watchdog : Nat) (s : State) :
    Host.Outcome State Fault Refusal :=
  .next (s.coldReset cause address site watchdog)

/-- A link without power: its attention line and its transmit line are released (R187, R55). -/
def LinkRec.unpowered (k : LinkRec) : LinkRec := { k with attention := false, response := none }

/-- The loss of power: every relay drive is released, every span is in BYPASS, and nothing is sent (R55). -/
def State.powerDown (s : State) : State :=
  { s with
    powered := false
    spans := Table.fill 16 Span.reset
    linkA := s.linkA.unpowered
    linkB := s.linkB.unpowered
    out := Outputs.reset }

/-- POWER_OFF (R55). -/
def execPowerOff (s : State) : Host.Outcome State Fault Refusal :=
  .next s.powerDown

end Sys2Proof.Machine
end

