-- ==== Sys2Proof/Machine/Dispatch.lean ====
section
/-! DEFINITION. Machine/Dispatch.lean: one arm for each command. -/

namespace Sys2Proof.Machine

def exec (i : Instr) (s : State) : Host.Outcome State Fault Refusal :=
  match i with
  | .coldReset cause address site watchdog => Sys2Proof.Machine.execColdReset cause address site watchdog s
  | .frame => Sys2Proof.Machine.execFrame s
  | .superframeBoundary before => Sys2Proof.Machine.execSuperframeBoundary before s
  | .slowTick => Sys2Proof.Machine.execSlowTick s
  | .copperFrameReceive side span pattern spare samples codes => Sys2Proof.Machine.execCopperFrameReceive side span pattern spare samples codes s
  | .measurementComplete context => Sys2Proof.Machine.execMeasurementComplete context s
  | .markerLoss span => Sys2Proof.Machine.execMarkerLoss span s
  | .carriageFrameReceive position bytes => Sys2Proof.Machine.execCarriageFrameReceive position bytes s
  | .attemptStart context => Sys2Proof.Machine.execAttemptStart context s
  | .contextCompletion context => Sys2Proof.Machine.execContextCompletion context s
  | .ageOut slot => Sys2Proof.Machine.execAgeOut slot s
  | .peerSilent => Sys2Proof.Machine.execPeerSilent s
  | .windowEnd => Sys2Proof.Machine.execWindowEnd s
  | .drainComplete span => Sys2Proof.Machine.execDrainComplete span s
  | .admission => Sys2Proof.Machine.execAdmission s
  | .walkSlot => Sys2Proof.Machine.execWalkSlot s
  | .switch context => Sys2Proof.Machine.execSwitch context s
  | .abortReturn context => Sys2Proof.Machine.execAbortReturn context s
  | .abortingEnd context => Sys2Proof.Machine.execAbortingEnd context s
  | .lingerExpiry slot => Sys2Proof.Machine.execLingerExpiry slot s
  | .bridgeTimeout context => Sys2Proof.Machine.execBridgeTimeout context s
  | .stepTimeout context => Sys2Proof.Machine.execStepTimeout context s
  | .markerTimeout context => Sys2Proof.Machine.execMarkerTimeout context s
  | .poolTimeout => Sys2Proof.Machine.execPoolTimeout s
  | .poolService => Sys2Proof.Machine.execPoolService s
  | .linkSilent link => Sys2Proof.Machine.execLinkSilent link s
  | .revert => Sys2Proof.Machine.execRevert s
  | .windowExpiry group => Sys2Proof.Machine.execWindowExpiry group s
  | .lineReset link => Sys2Proof.Machine.execLineReset link s
  | .syncCharacter link rate bits stop => Sys2Proof.Machine.execSyncCharacter link rate bits stop s
  | .characterError link => Sys2Proof.Machine.execCharacterError link s
  | .interByteTimeout link => Sys2Proof.Machine.execInterByteTimeout link s
  | .commandFrame link => Sys2Proof.Machine.execCommandFrame link s
  | .responseSent link => Sys2Proof.Machine.execResponseSent link s
  | .equip link circuit group cls => Sys2Proof.Machine.execEquip link circuit group cls s
  | .unequip link circuit => Sys2Proof.Machine.execUnequip link circuit s
  | .setClass link circuit cls => Sys2Proof.Machine.execSetClass link circuit cls s
  | .setGroup link circuit group => Sys2Proof.Machine.execSetGroup link circuit group s
  | .hold link circuit => Sys2Proof.Machine.execHold link circuit s
  | .unhold link circuit => Sys2Proof.Machine.execUnhold link circuit s
  | .freeze link target => Sys2Proof.Machine.execFreeze link target s
  | .thaw link target => Sys2Proof.Machine.execThaw link target s
  | .setMigration link target policy autoReturn recoveryHold lockoutLimit lockoutWindow => Sys2Proof.Machine.execSetMigration link target policy autoReturn recoveryHold lockoutLimit lockoutWindow s
  | .readCircuits link first count => Sys2Proof.Machine.execReadCircuits link first count s
  | .readGroup link group => Sys2Proof.Machine.execReadGroup link group s
  | .setSignalling link target idle seize answer block seizeIndex clearIndex conditioning quiet => Sys2Proof.Machine.execSetSignalling link target idle seize answer block seizeIndex clearIndex conditioning quiet s
  | .insertSpan link span mode => Sys2Proof.Machine.execInsertSpan link span mode s
  | .bypassSpan link span mode => Sys2Proof.Machine.execBypassSpan link span mode s
  | .cancelSpan link span => Sys2Proof.Machine.execCancelSpan link span s
  | .readSpan link span => Sys2Proof.Machine.execReadSpan link span s
  | .setFibreThreshold link threshold => Sys2Proof.Machine.execSetFibreThreshold link threshold s
  | .stageAssign link slot circuit => Sys2Proof.Machine.execStageAssign link slot circuit s
  | .stageRelease link slot => Sys2Proof.Machine.execStageRelease link slot s
  | .discardStaging link => Sys2Proof.Machine.execDiscardStaging link s
  | .applyMap link => Sys2Proof.Machine.execApplyMap link s
  | .mapApply => Sys2Proof.Machine.execMapApply s
  | .readMap link first count => Sys2Proof.Machine.execReadMap link first count s
  | .readStaging link => Sys2Proof.Machine.execReadStaging link s
  | .setAlignment link n spreadLimit walkInterval poolTimeout => Sys2Proof.Machine.execSetAlignment link n spreadLimit walkInterval poolTimeout s
  | .request link circuit direction => Sys2Proof.Machine.execRequest link circuit direction s
  | .cancelRequest link circuit => Sys2Proof.Machine.execCancelRequest link circuit s
  | .abortContext link context => Sys2Proof.Machine.execAbortContext link context s
  | .resetMigration link => Sys2Proof.Machine.execResetMigration link s
  | .setAdmission link requireA requireB bridgeTimeout stepTimeout => Sys2Proof.Machine.execSetAdmission link requireA requireB bridgeTimeout stepTimeout s
  | .readQueue link first count => Sys2Proof.Machine.execReadQueue link first count s
  | .readContext link context => Sys2Proof.Machine.execReadContext link context s
  | .setPeerSilentTime link time => Sys2Proof.Machine.execSetPeerSilentTime link time s
  | .readPeer link part => Sys2Proof.Machine.execReadPeer link part s
  | .setFaultPolicy link kind scope enabled actions => Sys2Proof.Machine.execSetFaultPolicy link kind scope enabled actions s
  | .clearFault link kind scope => Sys2Proof.Machine.execClearFault link kind scope s
  | .readFaults link => Sys2Proof.Machine.execReadFaults link s
  | .clearLockout link target => Sys2Proof.Machine.execClearLockout link target s
  | .commit link circuit => Sys2Proof.Machine.execCommit link circuit s
  | .uncommit link circuit => Sys2Proof.Machine.execUncommit link circuit s
  | .keepalive link => Sys2Proof.Machine.execKeepalive link s
  | .readStatus link => Sys2Proof.Machine.execReadStatus link s
  | .readCounters link clear => Sys2Proof.Machine.execReadCounters link clear s
  | .takeNotices link count => Sys2Proof.Machine.execTakeNotices link count s
  | .setNoticeLevels link levels threshold => Sys2Proof.Machine.execSetNoticeLevels link levels threshold s
  | .character link bits => Sys2Proof.Machine.execCharacter link bits s
  | .powerOff => Sys2Proof.Machine.execPowerOff s

end Sys2Proof.Machine
end

