-- ==== Sys2Proof/Safety.lean ====
section
/-! DEFINITION. Safety.lean: the laws that the manual says hold of the whole part at all times, and the vocabulary in
which statements about commands are written. -/

namespace Sys2Proof.Machine

/-! ### Laws of the whole part -/

/-- The collections stay within their capacities: the queue (R108), the staging list (R75), the advertisement table
(R134), the peer view table (R139) and both notice queues (R184). -/
def State.withinCapacity (s : State) : Prop :=
  s.queue.length ≤ 64 ∧ s.map.staging.length ≤ 32 ∧ s.peer.adverts.length ≤ 16 ∧ s.peer.view.length ≤ 16
    ∧ s.linkA.notices.length ≤ 32 ∧ s.linkB.notices.length ≤ 32

/-- A span's relay drive is operated while the span is cut and released while it is relay-through (R41). -/
def State.relaysFollow (s : State) : Prop := ∀ x, x < 16 → (s.span x).relay = (s.span x).state.cut

/-- An entry of the map and its circuit's slot field agree (R73). -/
def State.mapAgrees (s : State) : Prop :=
  ∀ slot n, slot < 512 → n < 480 → (s.boundTo slot = some n ↔ (s.circuit n).slot = some slot)

/-- Every number in the map, the slot fields and the staging list is in its range (R73, R75). -/
def State.mapInRange (s : State) : Prop :=
  (∀ slot n, s.boundTo slot = some n → slot < 512 ∧ n < 480)
    ∧ (∀ n slot, (s.circuit n).slot = some slot → n < 480 ∧ slot < 512)
    ∧ (∀ e, e ∈ s.map.staging → match e with
        | .assign slot n => slot < 512 ∧ n < 480
        | .release slot => slot < 512)

/-- The own digest is the digest of the map as it stands (R82). -/
def State.digestCurrent (s : State) : Prop := s.map.ownDigest = digestOf s.map.entries

/-- A fault record is live or latched only while it is enabled, and holds only permitted actions (R150, R154). -/
def FaultRecord.lawful (r : FaultRecord) (k : FaultKind) : Prop :=
  (r.live = true → r.enabled = true) ∧ (r.latched = true → r.enabled = true) ∧ r.actions.within k.permitted = true

def State.faultsLawful (s : State) : Prop := ∀ k x, x < 16 → (s.fault k x).lawful k

/-- The attention line of a powered part's link is driven exactly while R187 says. -/
def State.attentionRight (s : State) : Prop :=
  s.powered = true → s.linkA.attention = s.linkA.wantsAttention ∧ s.linkB.attention = s.linkB.wantsAttention

/-- The equipped circuits of a group whose call is busy. -/
def State.busyMembers (s : State) (g : Nat) : Nat :=
  (List.range 480).countP (fun n =>
    (s.circuit n).equipped && (s.circuit n).group == g && (s.circuit n).call.busy)

/-- Every circuit's group exists, an unequipped circuit's call state is IDLE (R4), and each group's busy count is the
number of its equipped circuits whose call is busy (R9, R30). -/
def State.busyCounted (s : State) : Prop :=
  (∀ n, (s.circuit n).group < 16) ∧ (∀ n, (s.circuit n).equipped = false → (s.circuit n).call = .idle)
    ∧ ∀ g, g < 16 → (s.group g).busyCount = s.busyMembers g

/-- The frame count and the superframe stamp are in their ranges (R1). -/
def State.timeInRange (s : State) : Prop := s.frameCount < 4096 ∧ s.stamp < 65536

/-! ### Circuits, contexts and cells (R5 to R7, R86, R99, R100, R108) -/

/-- A circuit's receive selection and transmit bridging are those of its state; in MIGRATING the selection is the
context's (R5). -/
def Circuit.carried (c : Circuit) : Prop :=
  match c.state with
  | .copper => c.receive = .copper ∧ c.transmit = .copper
  | .migrating => c.transmit = .both
  | .fibreProtected => c.receive = .fibre ∧ c.transmit = .both
  | .fibreOnly => c.receive = .fibre ∧ c.transmit = .fibre
  | .reverted => c.receive = .copper ∧ c.transmit = .both
  | .locked => c.receive = .copper ∧ c.transmit = .both

/-- A circuit outside every preparation: the residual is the added delay of the residual path, the other path has none, and
a residual lies on the selected path (R86). -/
def Circuit.settled (c : Circuit) : Prop :=
  (∀ p, c.delay p = if p = c.residualPath then c.residual else 0) ∧ (c.residual ≠ 0 → c.residualPath = c.receive)

/-- A context has its circuit: from its start until its circuit leaves it (R115, R124). -/
def Ctx.working (x : Ctx) : Prop := x.state ≠ .free ∧ (x.state = .aborting → x.returnPending = true)

/-- What the lead, the cells and the added delays are before the switch, by the state of the context (R95, R96, R98). -/
def Ctx.prepared (x : Ctx) (c : Circuit) : Prop :=
  let e := x.lead.getD 0
  let current := c.delay x.direction.currentPath
  let target := c.delay x.direction.targetPath
  match x.state with
  | .free => False
  | .request => x.lead = none ∧ x.cells = 0 ∧ current = 0 ∧ target = 0
  | .measure => x.lead = none ∧ x.cells = 0 ∧ current = 0 ∧ target = 0
  | .allocate => e ≠ 0 ∧ x.cells = 0 ∧ current = 0 ∧ target = 0
  | .walkUp => e < 0 ∧ x.cells = e.natAbs + 2 ∧ current < e.natAbs ∧ target = 0
  | .ready =>
      (e ≤ 0 ∧ x.cells = 0 ∧ current = 0 ∧ target = 0)
        ∨ (0 < e ∧ x.cells = e.natAbs + 2 ∧ current = 0 ∧ target = e.natAbs)
        ∨ (e < 0 ∧ x.cells = e.natAbs + 2 ∧ current ≤ e.natAbs ∧ target = 0)
  | .switched => False
  | .aborting => False

/-- A working context and its circuit fit: the circuit may move so from the origin state, the selected path is the current
one before the switch and the target one after it, and delays and cells are those of the state. -/
def Ctx.fits (x : Ctx) (c : Circuit) : Prop :=
  x.direction.admits x.origin = true
    ∧ if x.switched then
        (x.state = .switched ∨ x.state = .aborting) ∧ x.cells = 0 ∧ c.receive = x.direction.targetPath ∧ c.settled
      else c.residual = 0 ∧ c.receive = x.direction.currentPath ∧ x.prepared c

/-- A context holds its own circuit's entries only, and at most one of the two (R114, R118). -/
def Ctx.ownEntries (x : Ctx) : Prop :=
  (∀ e, x.served = some e → e.circuit = x.circuit ∧ x.parked = none) ∧ (∀ e, x.parked = some e → e.circuit = x.circuit)

/-- The delay cells of the part: free, held by circuits, held by contexts (R99). -/
def sumOf : List Nat → Nat
  | [] => 0
  | n :: rest => n + sumOf rest

def State.totalCells (s : State) : Nat :=
  s.pool.free + sumOf ((Table.toList s.circuits).map Circuit.cellsHeld) + sumOf ((Table.toList s.contexts).map Ctx.cells)

/-- Circuits stand where R5 to R7 and R108 say: a circuit's context field is present exactly in MIGRATING and names the one
context that has it; a circuit outside COPPER or in the queue is equipped, has a slot and lies on an INSERTED span; the queue
holds a circuit at most once, and none that is in a context. -/
structure State.placed (s : State) : Prop where
  carried : ∀ n, (s.circuit n).carried
  migrating : ∀ n, (s.circuit n).state = .migrating ↔ (s.circuit n).context ≠ none
  inContext : ∀ n c, (s.circuit n).context = some c → (s.ctx c).circuit = n ∧ (s.ctx c).working
  ofContext : ∀ c, (s.ctx c).working → (s.circuit (s.ctx c).circuit).context = some c
  away : ∀ n, (s.circuit n).state ≠ .copper ∨ s.queued n = true →
    (s.circuit n).equipped = true ∧ (s.circuit n).slot ≠ none ∧ (s.span (n / 30)).state = .inserted
  once : (s.queue.map Entry.circuit).Nodup
  apart : ∀ n, s.queued n = true → (s.circuit n).context = none
  entries : ∀ c, (s.ctx c).ownEntries

/-- Cells and delays are as R86, R99 and R100 say: the cells of the pool, the circuits and the contexts are 4096 together; a
residual is backed by two cells more than it is long; a context that has no circuit holds none; and the wait list holds the
contexts in ALLOCATE, each once. -/
structure State.backed (s : State) : Prop where
  total : s.totalCells = 4096
  residual : ∀ n, (s.circuit n).cellsHeld = if (s.circuit n).residual = 0 then 0 else (s.circuit n).residual + 2
  settled : ∀ n, (s.circuit n).context = none → (s.circuit n).settled
  fits : ∀ n c, (s.circuit n).context = some c → (s.ctx c).fits (s.circuit n)
  idle : ∀ c, ¬ (s.ctx c).working → (s.ctx c).cells = 0
  waiting : ∀ c, c ∈ s.pool.waitList ↔ (s.ctx c).state = .allocate
  waitsOnce : s.pool.waitList.Nodup

/-- Both laws of a powered part. Without power the spans stand in BYPASS whatever the records hold (R55). -/
def State.migrationLawful (s : State) : Prop := s.powered = true → s.placed ∧ s.backed

/-! ### Commands -/

/-- A powered part with nothing due at once takes the command that link `l` carries. -/
def State.hears (s : State) (l : Link) (i : Instr) : Prop :=
  s.powered = true ∧ s.quiet = true ∧ s.takes l i = true

/-- A powered part with nothing due at once. -/
def State.rests (s : State) : Prop := s.powered = true ∧ s.quiet = true

/-- The response that a link's command draws: the status, the own address, the flags as they stand, the data (R174). -/
def State.responseTo (s : State) (l : Link) (status : Status) (data : List Byte) : Response :=
  { status := status
    address := s.ownAddress
    faultFlag := (Table.toList s.faults.records).any FaultRecord.latched
    noticeFlag := !(s.link l).notices.isEmpty
    overflowFlag := (s.link l).overflow
    data := data }

/-- The state whose link `l` has taken its command and built this response; all else is as in `s`. -/
def State.replied (s : State) (l : Link) (status : Status) (data : List Byte) : State :=
  s.setLink l { s.link l with
    handed := none
    buffer := []
    rx := (s.link l).rx.answer
    response := some (s.responseTo l status data) }

/-- The state after a good frame on link `l`, whose record the frame leaves as `k` (R176): a link whose count the boundary
has raised to its strap's timeout is made SILENT first, with its notice; then the count is 0 and the link ALIVE, with a
notice where it was SILENT. -/
def State.refreshed (s : State) (l : Link) (k : LinkRec) : State :=
  let told (t : State) (cls : NoticeClass) : State := t.raise {
    cls := cls, subject := none, cause := none, value := some (match l with | .a => 0 | .b => 1) }
  let silenced : Bool := s.owed.contains (.linkSilent l) && k.alive && (match k.watchdog with
    | some c => decide ((s.watchdogStrap = 1 ∧ 1000 ≤ c) ∨ (s.watchdogStrap = 2 ∧ 4000 ≤ c)
        ∨ (s.watchdogStrap = 3 ∧ 16000 ≤ c))
    | none => false)
  let t := State.setLink { s with owed := s.owed.filter (fun e => e != BoundaryEvent.linkSilent l) } l k
  let u := if silenced then told (t.setLink l { k with alive := false }) .linkSilent else t
  let v := u.setLink l { u.link l with watchdog := some 0, alive := true }
  if k.alive && !silenced then v else told v .linkAlive

end Sys2Proof.Machine
end

