-- ==== Sys2Proof/Certificates/Slice0/Obligations.lean ====
section
/-! DEFINITION. Certificates/Slice0/Obligations.lean: the statements for the provers. Each docstring names the rules or
the sections it comes from. `State.hears`, `State.rests` and `State.replied` are those of Safety.lean. -/

open Sys2Proof Sys2Proof.Machine

/-! ### The machine -/

/-- One step runs the command at the front of the queue on the state with the queue's rest (the host's form). -/
def Obligations.StepRunsFrontCommand : Prop :=
  ∀ (c : Instr) (rest : List Instr) (s : State),
    s.pending = c :: rest → step s = exec c { s with pending := rest }

/-- A step on an empty queue changes nothing. The manual knows no such step: the model's choice, log entry 5. A part
without power takes nothing but a cold reset (the model's choice, log entry 20). -/
def Obligations.IdleAndUnpoweredPartsStay : Prop :=
  (∀ s : State, s.pending = [] → step s = .next s)
  ∧ (∀ (i : Instr) (s : State), s.powered = false → (∀ c a b w, i ≠ .coldReset c a b w) → i ≠ .powerOff →
     exec i s = .next s)

/-- R1: the frame count, the boundaries, the superframe stamp and the slow ticks. That a FRAME takes a boundary that is still
due is the model's choice (log entries 1 and 2). A boundary owes the slow tick exactly where the stamp becomes a multiple of 128. -/
def Obligations.TimeIsCounted : Prop :=
  (∀ s : State, s.powered = true → ∃ t : State, exec .frame s = .next t
      ∧ t.frameCount = (s.frameCount + 1) % 4096
      ∧ t.boundaryDue = decide ((s.frameCount + 1) % 16 = 0)
      ∧ t.stamp = if s.boundaryDue then (s.stamp + 1) % 65536 else s.stamp)
  ∧ (∀ (before : List BoundaryEvent) (s : State), s.powered = true → s.boundaryDue = true →
      BoundaryEvent.slowTick ∉ s.owed → ∃ t : State, exec (.superframeBoundary before) s = .next t
      ∧ t.stamp = (s.stamp + 1) % 65536 ∧ t.frameCount = s.frameCount ∧ t.boundaryDue = false
      ∧ (BoundaryEvent.slowTick ∈ t.owed ↔ t.stamp % 128 = 0))
  ∧ (∀ (cause : ResetCause) (a b c : Nat) (s : State), ∃ t : State, exec (.coldReset cause a b c) s = .next t
      ∧ t.frameCount = 0 ∧ t.stamp = 0 ∧ t.boundaryDue = false)
  ∧ (∀ (l : Link) (s : State), ∃ t u : State, exec (.resetMigration l) s = .next t ∧ exec (.lineReset l) s = .next u
      ∧ t.frameCount = s.frameCount ∧ t.stamp = s.stamp ∧ u.frameCount = s.frameCount ∧ u.stamp = s.stamp)

/-- R2, R8, R40, R57, R73, R82, R86, R99, R107, R108, R115, R130, R134, R137, R139, R146, R147, R150, R168, R181, R184: the
values the manual's tables give after a cold reset, each written out; a fault record's actions are those of the last
column of R150's table, and a link's levels those of R181's. The own digest is the CRC-16 of the empty map's 64-byte
mask. -/
def Obligations.ResetLeavesTheTablesValues : Prop :=
  let s := State.reset
  (∀ n, n < 480 → let c := s.circuit n
    c.equipped = false ∧ c.group = 0 ∧ c.cls = .voice ∧ c.held = false ∧ c.state = .copper ∧ c.context = none
      ∧ c.receive = .copper ∧ c.transmit = .copper ∧ c.slot = none ∧ c.forward = ⟨9, none, 0⟩
      ∧ c.backward = ⟨9, none, 0⟩ ∧ c.call = .idle ∧ c.conditioned = false ∧ c.residual = 0
      ∧ c.residualPath = .copper ∧ c.cellsHeld = 0 ∧ c.lastAbort = none ∧ c.delay .copper = 0 ∧ c.delay .fibre = 0)
  ∧ (∀ g, g < 16 → s.group g =
      { idle := 9, seize := 1, answer := 5, block := 13, seizeIndex := 4, clearIndex := 5, conditioning := 13,
        quiet := 0xD5, policy := .hitless, autoReturn := false, recoveryHold := 20, lockoutLimit := 3,
        lockoutWindow := 240, frozen := false, lockedOut := false, revertCount := 0, windowTimer := none,
        seizureCount := 0, busyCount := 0 })
  ∧ (∀ x, x < 16 → let p := s.span x
    p.state = .bypass ∧ p.relay = false ∧ p.line.los = false ∧ p.line.run = 0 ∧ p.switch.los = false ∧ p.switch.run = 0
      ∧ p.history = [] ∧ p.tc = none ∧ p.lossCount = 0 ∧ p.markerLoss = false)
  ∧ (s.port.los = true ∧ s.port.run = 0 ∧ s.port.trial = none ∧ s.port.tf = none ∧ s.port.wordAge = none
      ∧ s.port.windowPosition = 0 ∧ s.port.windowCount = 0 ∧ s.port.lossMark = false ∧ s.port.err = false
      ∧ s.port.threshold = 80 ∧ s.port.erroredFrames = 0 ∧ s.port.wordChecks = 0 ∧ ∀ k, k < 512 → s.slotCode k = 15)
  ∧ (s.map.staging = [] ∧ s.map.applyPending = false ∧ s.map.ownDigest = crc16 (List.replicate 64 0)
      ∧ s.map.peerDigest = none ∧ s.map.mismatch = false ∧ s.map.run = 0 ∧ ∀ k, k < 512 → s.boundTo k = none)
  ∧ (s.align = { n := 8, spreadLimit := 3, walkInterval := 8, poolTimeout := 1000, walkCounter := 0 }
      ∧ s.pool = { free := 4096, waitList := [], waitCount := 0 })
  ∧ (s.queue = [] ∧ s.admitting = { requireA := true, requireB := true, bridgeTimeout := 250, stepTimeout := 500 })
  ∧ (∀ k, k < 8 → let x := s.ctx k
    x.state = .free ∧ x.n = 0 ∧ x.sum = 0 ∧ x.min = none ∧ x.max = none ∧ x.lead = none ∧ x.cells = 0
      ∧ x.stepTimer = 0 ∧ x.bridgeTimer = 0 ∧ x.abortCount = 0 ∧ x.lastStep = none ∧ x.served = none ∧ x.parked = none
      ∧ x.abortCause = none)
  ∧ (s.peer.adverts = [] ∧ s.peer.position = none ∧ s.peer.view = [] ∧ s.peer.viewFull = 0 ∧ s.peer.silentTime = 50
      ∧ s.peer.silent = true ∧ s.peer.clash = false ∧ s.peer.clashRun = 0)
  ∧ (∀ x, x < 16 →
    let record (revert condition abort halt live : Bool) : FaultRecord :=
      { enabled := true, actions := { revert := revert, condition := condition, abort := abort, halt := halt },
        live := live, latched := false, declared := live }
    s.fault .fibreLos x = record true true true true true
      ∧ s.fault .fibreErr x = record false false false true false
      ∧ s.fault .peerSilent x = record false false true true true
      ∧ s.fault .mapMismatch x = record false false false true false
      ∧ s.fault .siteClash x = record false false false true false
      ∧ s.fault .copperLos x = record false true true true false
      ∧ s.fault .switchLos x = record false false false true false
      ∧ s.fault .markerLoss x = record false false false true false)
  ∧ (s.faults.revertPending = none ∧ s.faults.health = 0)
  ∧ ∀ l, let k := s.link l
    k.rx = .unsynced ∧ k.rate = none ∧ k.alive = false ∧ k.watchdog = none ∧ k.crcErrors = 0 ∧ k.framingErrors = 0
      ∧ k.threshold = 3 ∧ k.notices = [] ∧ k.nextSequence = 0 ∧ k.overflow = false ∧ k.attention = false
      ∧ ∀ c : NoticeClass, Table.at k.levels 4 c.code = match c with
        | .seize => 0 | .clear => 0
        | .unrecognised => 1 | .mapApplied => 1 | .walkDone => 1 | .poolWait => 1
        | .admitted => 2 | .completed => 2 | .aborted => 2 | .deferred => 2 | .autoQueued => 2 | .faultClear => 2
        | .spanState => 2 | .linkSilent => 2 | .linkAlive => 2
        | .reverted => 3 | .lockout => 3 | .faultSet => 3

/-- R55, R178: COLD_RESET leaves the reset state, with the straps as sampled and the reset cause. Operands beyond the
straps' widths are taken modulo those widths (the model's choice, log entry 8). R55, section 11 (R187): at a loss of
power every relay drive and attention line is released, every span is in BYPASS and nothing is sent; all other state
stays in the model until the cold reset (log entry 20). -/
def Obligations.ColdResetAndPowerLossLeaveTheirStates : Prop :=
  (∀ (cause : ResetCause) (address site watchdog : Nat) (s : State),
     exec (.coldReset cause address site watchdog) s = .next {
       State.reset with
       pending := s.pending
       resetCause := if s.powered then cause else .powerOn
       ownAddress := address % 64
       ownSite := site % 8
       watchdogStrap := watchdog % 4 })
  ∧ (∀ s : State, ∃ t : State, exec .powerOff s = .next t ∧ t.powered = false
     ∧ (∀ x, x < 16 → (t.span x).state = .bypass ∧ (t.span x).relay = false)
     ∧ (∀ l, (t.link l).attention = false ∧ (t.link l).response = none)
     ∧ (t.out.carriage = none ∧ ∀ x, x < 16 → Table.at t.out.line none x = none ∧ Table.at t.out.switch none x = none)
     ∧ t = {
         s with
         powered := false
         spans := t.spans
         out := t.out
         linkA := { s.linkA with attention := false, response := none }
         linkB := { s.linkB with attention := false, response := none } })

/-! ### Laws that every command keeps -/

/-- R108, R75, R134, R139, R184. R1: the frame count stays below 4096 and the stamp below 65536. -/
def Obligations.CapacitiesAndRangesAreKept : Prop :=
  (∀ s t : State, s.withinCapacity → step s = .next t → t.withinCapacity)
  ∧ (∀ s t : State, s.timeInRange → step s = .next t → t.timeInRange)

/-- R41: the relay drive follows the span state. R187: the attention line of a powered part is driven exactly while a
notice at or above the threshold is queued or the overflow mark is set. -/
def Obligations.OutputsFollowTheState : Prop :=
  (∀ s t : State, s.relaysFollow → step s = .next t → t.relaysFollow)
  ∧ (∀ s t : State, s.attentionRight → step s = .next t → t.attentionRight)

/-- R73, R75: the map's entries and the circuits' slot fields agree, and every number in them is in its range. R82: the
own digest is the digest of the map in force. -/
def Obligations.MapSlotsAndDigestAgree : Prop :=
  (∀ s t : State, s.mapAgrees → s.mapInRange → step s = .next t → t.mapAgrees ∧ t.mapInRange)
  ∧ (∀ s t : State, s.digestCurrent → step s = .next t → t.digestCurrent)

/-- R9, R30: a group's busy count is the number of its equipped circuits with a busy call. R150, R154: a record is live
or latched only while enabled, and holds permitted actions only. -/
def Obligations.CountsAndRecordsStayLawful : Prop :=
  (∀ s t : State, s.busyCounted → step s = .next t → t.busyCounted)
  ∧ (∀ s t : State, s.faultsLawful → step s = .next t → t.faultsLawful)

/-- Every law above holds after a cold reset. -/
def Obligations.LawsHoldAfterReset : Prop :=
  State.reset.withinCapacity ∧ State.reset.relaysFollow ∧ State.reset.mapAgrees ∧ State.reset.mapInRange
    ∧ State.reset.digestCurrent ∧ State.reset.busyCounted ∧ State.reset.faultsLawful ∧ State.reset.attentionRight
    ∧ State.reset.timeInRange ∧ State.reset.migrationLawful

/-! ### Frames and boundaries (R1) -/

/-- Sections 3.2, 3.4, 4.2, 4.7, 6.1 and 8.2: with nothing of the present frame left to take, FRAME delivers a sample on each
path of every circuit, sends the carriage frame and the copper frames of the present frame count, moves the rotation on
and raises the counts of the frame. A span sends while its `sending` mark stands and inserts markers while its `marking` mark
stands, which each frame sets for the next one by the cut (R46, R53, log entry 34); each channel's code goes out in one frame of the superframe, which one is free (R42, log entry 11). The
order inside the frame is log entry 1, that the frame ending without a marker test of its own counts as one without a marker (R48) log entry 19, and 0xFF and VACANT on the fibre
path of a circuit without a slot log entry 23. A carriage frame goes out most significant bit first (R190). -/
def Obligations.FramesAreBuiltAndCounted : Prop :=
  (∀ w : CarriageFrame, w.bits = w.bytes.flatMap (fun b => [b.getLsbD 7, b.getLsbD 6, b.getLsbD 5, b.getLsbD 4, b.getLsbD 3,
    b.getLsbD 2, b.getLsbD 1, b.getLsbD 0]))
  ∧ ∀ s : State, s.rests → s.boundaryDue = false → s.owed = [] →
    (∀ l, (s.link l).handed = none
      ∧ ¬ (3 ≤ (s.link l).buffer.length ∧ (s.link l).buffer.length = ((s.link l).buffer.getD 2 0).toNat + 5)) →
    let present := s.port.los = false ∧ s.peer.silent = false ∧ ∃ a, s.port.wordAge = some a ∧ a < s.peer.silentTime
    let misses (x : Nat) : Prop := (s.span x).tested = false ∧ (s.span x).state.cut = true ∧ present
    (∀ x, x < 16 → (s.span x).state.cut = true → (s.span x).markerLoss = false →
      (s.span x).lossCount < 1024 ∧ (misses x → (s.span x).lossCount < 1023)) →
    (∀ c, c < 8 → ¬ ((s.ctx c).state = .measure ∧ (s.ctx c).running = true
      ∧ ((s.ctx c).attemptN + 2) * 512 ≤ (s.ctx c).elapsed)) →
    (∀ e, e ∈ s.peer.view → e.age < 96) →
    let group (n : Nat) : Group := s.group (s.circuit n).group
    let fromSwitch (n : Nat) : Byte × Code := if (s.span (n / 30)).switch.los then (0xFF, (s.channel n).switch.held)
      else ((s.channel n).switch.sample, (s.channel n).switch.code)
    let inSlot (k : Nat) : Byte × Code := match s.boundTo k with
      | some n => if (s.circuit n).transmit = .copper then (0, 15) else fromSwitch n
      | none => (0, 15)
    let arrives (n : Nat) (p : Path) : Byte := match p with
      | .copper => if (s.span (n / 30)).line.los then 0xFF else (s.channel n).line.sample
      | .fibre => match (s.circuit n).slot with | some k => Table.at s.port.samples 0xFF k | none => 0xFF
    ∃ t : State, exec .frame s = .next t
      ∧ (∀ n, n < 480 →
        (∀ p : Path, ((s.circuit n).line p = [] → (t.circuit n).line p = [] ∧ (t.circuit n).lastOn p = arrives n p)
          ∧ ∀ x rest, (s.circuit n).line p = x :: rest → (t.circuit n).line p = rest ++ [some (arrives n p)]
            ∧ (t.circuit n).lastOn p = x.getD (group n).quiet)
        ∧ t.circuit n = { s.circuit n with
            copperLine := (t.circuit n).copperLine, fibreLine := (t.circuit n).fibreLine
            copperLast := (t.circuit n).copperLast, fibreLast := (t.circuit n).fibreLast })
      ∧ t.out.carriage = some {
          sequence := s.frameCount
          word := match s.peer.position.bind (fun k => s.peer.adverts[k]?) with
            | some a => { step := a.step.code, site := s.ownSite, slot := a.slot, argument := a.argument }
            | none => { step := 8, site := s.ownSite, slot := s.map.ownDigest.toNat / 256
                        argument := s.map.ownDigest.setWidth 8 }
          codes := (List.range 32).map (fun i => (inSlot (32 * (s.frameCount % 16) + i)).2)
          samples := (List.range 512).map (fun k => (inSlot k).1) }
      ∧ (let toLine (n : Nat) : Byte × Code :=
          if (s.circuit n).transmit = .fibre then ((group n).quiet, (group n).idle) else fromSwitch n
        let selected (n : Nat) : Code := match (s.circuit n).receive with
          | .copper => if (s.span (n / 30)).line.los then (s.channel n).line.held else (s.channel n).line.code
          | .fibre => match (s.circuit n).slot with
            | some k => if s.port.los then Table.at s.port.heldCodes 15 k else s.slotCode k
            | none => 15
        let toSwitch (n : Nat) : Byte × Code :=
          if (s.circuit n).conditioned then ((group n).quiet, (group n).conditioning)
          else ((t.circuit n).lastOn (s.circuit n).receive, selected n)
        let frame (x : Nat) (spare : Bool) (f : Nat → Byte × Code) : Option CopperFrame :=
          if (s.span x).sending then some {
            pattern := 0b1010110, spare := spare
            samples := (List.range 30).map (fun c => (f (30 * x + c)).1)
            codes := (List.range 30).map (fun c =>
              if s.frameCount % 16 = (Config.codeFrame (c + 1)).val then some (f (30 * x + c)).2 else none) } else none
        ∀ x, x < 16 →
          Table.at t.out.line none x = frame x ((s.span x).marking && decide (s.frameCount % 512 = 0)) toLine
          ∧ Table.at t.out.switch none x = frame x false toSwitch)
      ∧ (∀ x, x < 16 →
        (misses x → t.span x = { s.span x with
          sending := true, marking := true, tested := false, lossCount := min 1024 ((s.span x).lossCount + 1) })
        ∧ (¬ misses x → t.span x = { s.span x with
          sending := (s.span x).state.cut, marking := (s.span x).state.cut, tested := false }))
      ∧ (∀ c, c < 8 → t.ctx c = { s.ctx c with elapsed :=
          if (s.ctx c).state = .measure ∧ (s.ctx c).running = true then (s.ctx c).elapsed + 1 else (s.ctx c).elapsed })
      ∧ t = { s with
          frameCount := (s.frameCount + 1) % 4096
          boundaryDue := decide ((s.frameCount + 1) % 16 = 0)
          circuits := t.circuits, spans := t.spans, contexts := t.contexts, out := t.out
          peer := { s.peer with
            position := s.peer.nextPosition
            view := s.peer.view.map (fun e => { e with age := e.age + 1 }) } }

/-- R1 and the timers of chapters 4 to 8 and 10: a boundary with nothing taken before its supervision supervises the
circuits in ascending number, raises every timer by one superframe, and owes exactly the events that stand due. Which
events a boundary owes, and from which moment, is log entry 2 (DESIGN CHOICE), and that PEER_SILENT is left to the next
event is log entry 3 (DEDUCED). A window expiry is owed by a slow tick only. -/
def Obligations.BoundariesRaiseTheTimers : Prop :=
  ∀ s : State, s.rests → s.boundaryDue = true → s.owed = [] →
    ∃ t : State, exec (.superframeBoundary []) s = .next t
    ∧ (let u := (List.range 480).foldl State.superviseCircuit { s with
          boundaryDue := false, owed := t.owed, stamp := (s.stamp + 1) % 65536 }
      t = { u with contexts := t.contexts, pool := t.pool, peer := t.peer, port := t.port, linkA := t.linkA, linkB := t.linkB }
      ∧ t.pool = { u.pool with waitCount := if s.pool.waitList = [] then s.pool.waitCount else s.pool.waitCount + 1 }
      ∧ ∀ l, t.link l = { u.link l with watchdog := (s.link l).watchdog.map (fun c =>
          if (s.link l).alive = true ∧ 1 ≤ s.watchdogStrap ∧ s.watchdogStrap ≤ 3 then
            min ([1000, 4000, 16000].getD (s.watchdogStrap - 1) 0) (c + 1) else c) })
    ∧ t.port = { s.port with
        wordAge := s.port.wordAge.map (fun a => min 1000 (a + 1)), windowPosition := s.port.windowPosition + 1 }
    ∧ t.peer = { s.peer with adverts := s.peer.adverts.map (fun a => match a.kind with
        | .context _ => a
        | .linger n k => { a with kind := .linger (n - 1) k }) }
    ∧ (∀ c, c < 8 → let x := s.ctx c
      t.ctx c = { x with
        stepTimer := if x.stepRunning then x.stepTimer + 1 else x.stepTimer
        bridgeTimer := if x.state = .measure ∧ x.begun = false then x.bridgeTimer + 1 else x.bridgeTimer
        abortCount := if x.state = .aborting then min 32 (x.abortCount + 1) else x.abortCount })
    ∧ BoundaryEvent.walkSlot ∈ t.owed ∧ BoundaryEvent.admission ∈ t.owed
    ∧ (BoundaryEvent.revert ∈ t.owed ↔ s.faults.revertPending ≠ none)
    ∧ (BoundaryEvent.mapApply ∈ t.owed ↔ s.map.applyPending = true)
    ∧ (BoundaryEvent.windowEnd ∈ t.owed ↔ 500 ≤ s.port.windowPosition + 1)
    ∧ (BoundaryEvent.slowTick ∈ t.owed ↔ (s.stamp + 1) % 128 = 0)
    ∧ (BoundaryEvent.poolTimeout ∈ t.owed ↔ s.pool.waitList ≠ [] ∧ s.align.poolTimeout < s.pool.waitCount + 1)
    ∧ (∀ x, BoundaryEvent.drainComplete x ∈ t.owed ↔
        x < 16 ∧ ((s.span x).state = .drainIn ∨ (s.span x).state = .drainOut))
    ∧ (∀ l : Link, BoundaryEvent.linkSilent l ∈ t.owed ↔ (s.link l).alive = true ∧ ∃ k c, [1000, 4000, 16000][s.watchdogStrap - 1]? = some k
        ∧ 1 ≤ s.watchdogStrap ∧ (s.link l).watchdog = some c ∧ k ≤ c + 1)
    ∧ (∀ x, BoundaryEvent.lingerExpiry x ∈ t.owed ↔ ∃ a n k, a ∈ s.peer.adverts ∧ a.slot = x ∧ a.kind = .linger n k ∧ n ≤ 1)
    ∧ (∀ g, BoundaryEvent.windowExpiry g ∉ t.owed)
    ∧ (∀ c, 8 ≤ c → BoundaryEvent.abortReturn c ∉ t.owed ∧ BoundaryEvent.switch c ∉ t.owed
      ∧ BoundaryEvent.stepTimeout c ∉ t.owed ∧ BoundaryEvent.bridgeTimeout c ∉ t.owed
      ∧ BoundaryEvent.abortingEnd c ∉ t.owed)
    ∧ ∀ c, c < 8 → let x := s.ctx c
      (BoundaryEvent.abortReturn c ∈ t.owed ↔ x.state = .aborting ∧ x.returnPending = true)
      ∧ (BoundaryEvent.switch c ∈ t.owed ↔ x.state = .ready ∧ x.switchDue = true)
      ∧ (BoundaryEvent.stepTimeout c ∈ t.owed ↔ x.stepRunning = true ∧ s.admitting.stepTimeout ≤ x.stepTimer + 1)
      ∧ (BoundaryEvent.bridgeTimeout c ∈ t.owed ↔
          x.state = .measure ∧ x.begun = false ∧ s.admitting.bridgeTimeout ≤ x.bridgeTimer + 1)
      ∧ (BoundaryEvent.abortingEnd c ∈ t.owed ↔ x.state = .aborting)

/-! ### Circuits and groups (chapters 1 and 2) -/

/-- Section 1.4 (EQUIP): the record takes its new values and conditioning is then evaluated for the circuit; an equipped
circuit is refused and nothing but the link changes. Section 1.4 (UNEQUIP): a residual is dropped and its cells
return, a busy call leaves the group's busy count, and no notice is raised. Section 1.4 (SET_CLASS, SET_GROUP): both
are refused for a circuit outside COPPER, queued, or with a residual, and SET_GROUP also for an equipped circuit
whose call is not IDLE; that the filters of a conditioned circuit start at the new group's IDLE code too, until the next
boundary, is log entry 29 (DEDUCED from R15 and R33). Section 1.4 (HOLD, UNHOLD): only the held mark changes, in every state of the circuit. -/
def Obligations.CircuitCommandsChangeTheirRecord : Prop :=
  (∀ (n g cls : Nat) (k : TrafficClass) (s : State), s.hears .a (.equip .a n g cls) → n < 480 → g < 16 →
     readClass cls = some k →
     exec (.equip .a n g cls) s = .next (
       if (s.circuit n).equipped then s.replied .a .refusedState []
       else ((s.setCircuit n { s.circuit n with
           equipped := true
           group := g
           cls := k
           forward := ⟨(s.group g).idle, none, 0⟩
           backward := ⟨(s.group g).idle, none, 0⟩
           call := .idle
           lastAbort := none }).recondition n).replied .a .ok []))
  ∧ (∀ (n : Nat) (s : State), s.hears .a (.unequip .a n) → n < 480 →
     let c := s.circuit n
     let d : Circuit := if c.residual = 0 then c
       else { c.dropOn c.residualPath with residual := 0, residualPath := .copper, cellsHeld := 0 }
     let g := s.group c.group
     exec (.unequip .a n) s = .next (
       if c.equipped = false ∨ c.state ≠ .copper ∨ s.queued n = true then s.replied .a .refusedState []
       else (((s.setCircuit n { d with
           equipped := false
           forward := ⟨g.idle, none, 0⟩
           backward := ⟨g.idle, none, 0⟩
           call := .idle
           conditioned := false }).setGroup c.group
             { g with busyCount := if c.call.busy then g.busyCount - 1 else g.busyCount }).returnCells
           (if c.residual = 0 then 0 else c.cellsHeld)).replied .a .ok []))
  ∧ ((∀ (n cls : Nat) (k : TrafficClass) (s : State), s.hears .a (.setClass .a n cls) → n < 480 →
     readClass cls = some k →
     exec (.setClass .a n cls) s = .next (
       if (s.circuit n).state ≠ .copper ∨ s.queued n = true ∨ (s.circuit n).residual ≠ 0 then
         s.replied .a .refusedState []
       else (s.setCircuit n { s.circuit n with cls := k }).replied .a .ok []))
   ∧ (∀ (n g : Nat) (s : State), s.hears .a (.setGroup .a n g) → n < 480 → g < 16 →
     let c := s.circuit n
     let idle : Filter := ⟨(s.group g).idle, none, 0⟩
     exec (.setGroup .a n g) s = .next (
       if c.state ≠ .copper ∨ s.queued n = true ∨ c.residual ≠ 0 ∨ (c.equipped = true ∧ c.call ≠ .idle) then
         s.replied .a .refusedState []
       else if g = c.group then s.replied .a .ok []
       else if c.equipped then
         (s.setCircuit n { c with group := g, forward := idle, backward := idle }).replied .a .ok []
       else (s.setCircuit n { c with group := g }).replied .a .ok [])))
  ∧ (∀ (n : Nat) (s : State), n < 480 →
     (s.hears .a (.hold .a n) →
       exec (.hold .a n) s = .next ((s.setCircuit n { s.circuit n with held := true }).replied .a .ok []))
     ∧ (s.hears .a (.unhold .a n) →
       exec (.unhold .a n) s = .next ((s.setCircuit n { s.circuit n with held := false }).replied .a .ok [])))

/-- Section 1.4 (FREEZE, THAW, SET_MIGRATION): one group, or all sixteen for 0xFF; numeric settings are clamped, and
CLAMPED is answered where one was. Nothing else of the part changes but the link. -/
def Obligations.GroupSettingsReachTheirTargets : Prop :=
  ∀ (target : Nat) (s : State), target < 16 ∨ target = 0xFF →
    let written (f : Group → Group) (t : State) : Prop :=
      t = { s with groups := t.groups }
        ∧ ∀ g, g < 16 → t.group g = if target = 0xFF ∨ g = target then f (s.group g) else s.group g
    (s.hears .a (.freeze .a target) → ∃ t : State, exec (.freeze .a target) s = .next (t.replied .a .ok [])
      ∧ written (fun g => { g with frozen := true }) t)
    ∧ (s.hears .a (.thaw .a target) → ∃ t : State, exec (.thaw .a target) s = .next (t.replied .a .ok [])
      ∧ written (fun g => { g with frozen := false }) t)
    ∧ ∀ (policy auto hold limit window : Nat) (p : Policy) (a : Bool),
      s.hears .b (.setMigration .b target policy auto hold limit window) → readPolicy policy = some p →
      readBool auto = some a →
      let h := max 1 (min 255 hold)
      let m := min 15 limit
      let w := max 1 (min 255 window)
      ∃ t : State, exec (.setMigration .b target policy auto hold limit window) s = .next
          (t.replied .b (if h = hold ∧ m = limit ∧ w = window then .ok else .clamped)
            [BitVec.ofNat 8 p.code, if a then 1 else 0, BitVec.ofNat 8 h, BitVec.ofNat 8 m, BitVec.ofNat 8 w])
        ∧ written (fun g => { g with
            policy := p, autoReturn := a, recoveryHold := h, lockoutLimit := m, lockoutWindow := w }) t

/-- Section 2.6 (SET_SIGNALLING): refused while an equipped circuit of a target group is not IDLE; else all eight values
reach the target groups, and their unconditioned equipped circuits start both filters at the new IDLE code and stay
IDLE. A group outside the target and its circuits keep what they have. -/
def Obligations.SignallingIsRewrittenWhileIdle : Prop :=
  ∀ (target idle seize answer block si ci cond quiet : Nat) (s : State),
    s.hears .a (.setSignalling .a target idle seize answer block si ci cond quiet) →
    (target < 16 ∨ target = 0xFF) → idle < 15 → seize < 15 → answer < 15 → block < 15 → cond < 15 →
    [idle, seize, answer, block].Nodup → si < 8 → ci < 8 → quiet < 256 →
    let aims (g : Nat) : Prop := g < 16 ∧ (target = 0xFF ∨ g = target)
    let busy : Prop := ∃ n, n < 480 ∧ (s.circuit n).equipped = true ∧ (s.circuit n).call ≠ .idle
      ∧ aims (s.circuit n).group
    (busy → exec (.setSignalling .a target idle seize answer block si ci cond quiet) s
        = .next (s.replied .a .refusedState []))
    ∧ (¬ busy → ∃ t : State, exec (.setSignalling .a target idle seize answer block si ci cond quiet) s
          = .next (t.replied .a .ok ([idle, seize, answer, block, si, ci, cond, quiet].map (BitVec.ofNat 8)))
        ∧ (∀ g, g < 16 → t.group g = if target = 0xFF ∨ g = target then
            { s.group g with
              idle := BitVec.ofNat 4 idle, seize := BitVec.ofNat 4 seize, answer := BitVec.ofNat 4 answer,
              block := BitVec.ofNat 4 block, seizeIndex := si, clearIndex := ci,
              conditioning := BitVec.ofNat 4 cond, quiet := BitVec.ofNat 8 quiet,
              busyCount := (t.group g).busyCount, seizureCount := (t.group g).seizureCount }
            else s.group g)
        ∧ (∀ n, n < 480 → (s.circuit n).equipped = true → (s.circuit n).conditioned = false →
            aims (s.circuit n).group → t.circuit n = { s.circuit n with
              forward := ⟨BitVec.ofNat 4 idle, none, 0⟩, backward := ⟨BitVec.ofNat 4 idle, none, 0⟩ })
        ∧ (∀ n, n < 480 → (s.circuit n).equipped = true → (s.circuit n).conditioned = true →
            aims (s.circuit n).group → (t.circuit n).forward = ⟨BitVec.ofNat 4 idle, none, 0⟩
              ∧ (t.circuit n).backward = ⟨BitVec.ofNat 4 cond, none, 0⟩)
        ∧ (∀ n, n < 480 → ((s.circuit n).equipped = false ∨ ¬ aims (s.circuit n).group) → t.circuit n = s.circuit n)
        ∧ t = { s with circuits := t.circuits, groups := t.groups, linkA := t.linkA, linkB := t.linkB })

/-- Section 2.2 (R24 to R28): what a filter makes of a delivered code: an accepted code ends a candidate's run, another
code runs up to 65, a recognised one is accepted when its count exceeds the persistence of its meaning, an
unrecognised one never is, and a path that delivers no code leaves the filter as it was. Sections 2.1 to 2.4 (R22,
R23, R25, R29, R30, R31, R33, R105): at a boundary both filters of each equipped circuit take the code their paths
deliver, but the backward filter of a conditioned one takes none and holds the conditioning code, and its call state is that of the two accepted codes; the group counts busy calls and seizures, and a
residual is dropped at IDLE. An unrecognised candidate raises one UNRECOGNISED notice as its count passes the clear
persistence (R27), before SEIZE or CLEAR; that CLEAR is offered before WALK_DONE is the model's choice (log entry 15). -/
def Obligations.SupervisionFollowsTheCodes : Prop :=
  (∀ (f : Filter) (g : Group) (c : Code),
     f.supervise g none = f
     ∧ (c = f.accepted → f.supervise g (some c) = ⟨f.accepted, none, 0⟩)
     ∧ (c ≠ f.accepted →
         let run := if f.candidate = some c then min 65 (f.count + 1) else 1
         (g.meaning c = none → f.supervise g (some c) = ⟨f.accepted, some c, run⟩)
         ∧ ∀ m, g.meaning c = some m →
           f.supervise g (some c) =
             if [0, 1, 2, 4, 8, 16, 32, 64].getD (if m = .idle then g.clearIndex else g.seizeIndex) 64 < run then
               ⟨c, none, 0⟩
             else ⟨f.accepted, some c, run⟩))
  ∧ (∀ (n : Nat) (s : State), n < 480 → (s.circuit n).group < 16 →
     let c := s.circuit n
     let g := s.group c.group
     let heard : Option Code := if (s.span (n / 30)).switch.los then none else some (s.channel n).switch.code
     let selected : Option Code := match c.receive with
       | .copper => if (s.span (n / 30)).line.los then none else some (s.channel n).line.code
       | .fibre => if s.port.los then none else c.slot.map (fun k => s.slotCode k)
     let fwd := c.forward.supervise g heard
     let bwd := if c.conditioned then ⟨g.conditioning, none, 0⟩ else c.backward.supervise g selected
     let call := callTable (g.acceptedMeaning fwd.accepted) (g.acceptedMeaning bwd.accepted)
     let ends := call = .idle ∧ c.call ≠ .idle ∧ c.residual ≠ 0
     let t := s.superviseCircuit n
     (c.equipped = false → t = s)
     ∧ (c.equipped = true →
       (¬ ends → t.circuit n = { c with forward := fwd, backward := bwd, call := call } ∧ t.pool = s.pool)
       ∧ (ends → t.circuit n = { c.setLine c.residualPath [] with
             forward := fwd, backward := bwd, call := call, residual := 0, cellsHeld := 0 }
           ∧ t.pool = { s.pool with free := s.pool.free + c.cellsHeld })
       ∧ t.group c.group = { g with
           busyCount := if c.call.busy = call.busy then g.busyCount
             else if call.busy then g.busyCount + 1 else g.busyCount - 1
           seizureCount := if c.call = .idle ∧ call.busy = true then (g.seizureCount + 1) % 65536
             else g.seizureCount }
       ∧ (∀ m, m ≠ n → t.circuit m = s.circuit m) ∧ (∀ k, k ≠ c.group → t.group k = s.group k)
       ∧ t = { s with circuits := t.circuits, groups := t.groups, pool := t.pool, linkA := t.linkA, linkB := t.linkB }
       ∧ (∀ l, t.link l =
           let limit := [0, 1, 2, 4, 8, 16, 32, 64].getD g.clearIndex 64 + 1
           let told (f : Filter) (code : Option Code) (side : Nat) (k : LinkRec) : LinkRec := match code with
             | some x => if x ≠ f.accepted ∧ g.meaning x = none
                   ∧ (if f.candidate = some x then min 65 (f.count + 1) else 1) = limit
                   ∧ ¬ (f.candidate = some x ∧ f.count = limit) then
                 k.offer s.stamp {
                   cls := .unrecognised, subject := some (.circuit n), cause := none
                   value := some (BitVec.ofNat 16 (x.toNat + side)) }
               else k
             | none => k
           let j := told c.backward (if c.conditioned then none else selected) 16 (told c.forward heard 0 (s.link l))
           let k := if call.busy = true ∧ c.call = .idle then j.offer s.stamp {
               cls := .seize, subject := some (.circuit n), cause := none, value := some (BitVec.ofNat 16 call.code) }
             else if call = .idle ∧ c.call.busy = true then j.offer s.stamp {
               cls := .clear, subject := some (.circuit n), cause := none, value := some (BitVec.ofNat 16 c.call.code) }
             else j
           if ends then k.offer s.stamp {
             cls := .walkDone, subject := some (.circuit n), cause := none
             value := some (BitVec.ofNat 16 c.cellsHeld) } else k)))

/-- Sections 2.4 and 9.6 (R29, R33, R34, R164): a circuit is conditioned exactly where it is equipped, its span is cut, and
R164's table, by the circuit's state, finds it without a usable receive path: copper down is the COPPER_LOS record of its
span live with CONDITION, fibre down the FIBRE_LOS record live with CONDITION. At the start of conditioning the backward
filter takes the conditioning code and the call state is that of the two accepted codes; at its end the filters stay. -/
def Obligations.ConditioningForcesTheBackwardCode : Prop :=
  ∀ (n : Nat) (s : State), n < 480 →
    let c := s.circuit n
    let g := s.group c.group
    let down (r : FaultRecord) : Prop := r.enabled = true ∧ r.live = true ∧ r.actions.condition = true
    let copperDown := down (s.fault .copperLos (n / 30))
    let fibreDown := down (s.fault .fibreLos 0)
    let pathless := match c.state with
      | .copper => copperDown
      | .reverted => copperDown
      | .locked => copperDown
      | .migrating => (c.receive = .copper ∧ copperDown) ∨ (c.receive = .fibre ∧ fibreDown)
      | .fibreProtected => copperDown ∧ fibreDown
      | .fibreOnly => fibreDown ∨ ¬ ∃ k, c.slot = some k ∧ s.slotCode k ≠ 15
    let wants := c.equipped = true ∧ ((s.span (n / 30)).state = .inserted ∨ (s.span (n / 30)).state = .drainOut)
      ∧ pathless
    let t := s.recondition n
    (s.wantsConditioning n = true ↔ wants)
    ∧ ((t.circuit n).conditioned = true ↔ wants)
    ∧ ((wants ↔ c.conditioned = true) → t = s)
    ∧ (¬ wants → c.conditioned = true → t = s.setCircuit n { c with conditioned := false })
    ∧ (wants → c.conditioned = false →
        (t.circuit n).backward = ⟨g.conditioning, none, 0⟩
        ∧ (t.circuit n).forward = c.forward
        ∧ (t.circuit n).call = callTable (g.acceptedMeaning c.forward.accepted) (g.acceptedMeaning g.conditioning)
        ∧ (∀ m, m ≠ n → t.circuit m = s.circuit m)
        ∧ t = { s with circuits := t.circuits, groups := t.groups, pool := t.pool, linkA := t.linkA, linkB := t.linkB })

/-! ### Spans (chapter 3) -/

/-- Sections 3.4 and 3.5 (R46, R52, R53): what a change of span state does: the drive follows the state, becoming cut or
relay-through clears the marker-loss count and ends marker insertion, which a cut span begins with the next frame, becoming relay-through ends conditioning and clears a declared MARKER_LOSS, with the
clearing handed to the Fault Unit (R48, R151), and a SPAN_STATE notice with the new state is raised last, after the notices of those
effects, which is the model's choice (log entry 15, DESIGN CHOICE). A drain owed at the present boundary is owed no longer. -/
def Obligations.SpanChangesMoveTheRelay : Prop :=
  ∀ (x : Nat) (new : SpanState) (s : State), x < 16 →
    let old := s.span x
    let u := { s with owed := s.owed.filter (fun e => e != BoundaryEvent.drainComplete x) }
    let told (t : State) : State :=
      t.raise { cls := .spanState, subject := some (.span x), cause := none, value := some (BitVec.ofNat 16 new.code) }
    let t := s.moveSpan x new
    (old.state.cut = new.cut → t = told (u.setSpan x { old with state := new }))
    ∧ (new = .inserted → old.state.cut = false →
        t = told ((u.setSpan x { old with state := .inserted, relay := true, marking := false, lossCount := 0 }).reconditionAll
          ((List.range 30).map (30 * x + ·)))
        ∧ ∀ n, n / 30 = x → (t.circuit n).conditioned = t.wantsConditioning n)
    ∧ (new = .bypass → old.state.cut = true →
        t.span x = { old with
          state := .bypass, relay := false, marking := false, lossCount := 0, markerLoss := false }
        ∧ (∀ n, n / 30 = x → t.circuit n = { s.circuit n with conditioned := false })
        ∧ (∀ n, n / 30 ≠ x → t.circuit n = s.circuit n)
        ∧ (∀ y, y ≠ x → t.span y = s.span y)
        ∧ (let r := s.fault .markerLoss x
          let cleared : State := if old.markerLoss = false then u
            else if r.enabled then (u.setFault .markerLoss x { r with declared := false, live := false }).raise {
              cls := .faultClear, subject := some (.fault .markerLoss x), cause := none, value := none }
            else u.setFault .markerLoss x { r with declared := false }
          t = told { cleared with spans := t.spans, circuits := t.circuits }))

/-- Section 3.5 (INSERT_SPAN, BYPASS_SPAN, CANCEL_SPAN): the three tables, with the data each answer carries; that a refused
INSERT_SPAN carries the state (3) and a refused BYPASS_SPAN nothing is log entry 17 (DEDUCED). Section 3.5 (R52): a drain owed at the present boundary completes exactly when every
equipped circuit of its span is IDLE; the drains owed for lower spans are tested before it. -/
def Obligations.SpanCommandsFollowTheirTables : Prop :=
  (∀ (x mode : Nat) (now : Bool) (s : State), x < 16 → readImmediate mode = some now →
     let state := (s.span x).state
     (s.hears .a (.insertSpan .a x mode) →
       exec (.insertSpan .a x mode) s = .next (match state, now with
         | .bypass, false => (s.moveSpan x .drainIn).replied .a .ok [1]
         | .bypass, true => (s.moveSpan x .inserted).replied .a .ok [2]
         | .drainIn, false => s.replied .a .ok [1]
         | .drainIn, true => (s.moveSpan x .inserted).replied .a .ok [2]
         | .inserted, _ => s.replied .a .ok [2]
         | .drainOut, _ => s.replied .a .refusedState [3]))
     ∧ (s.hears .a (.bypassSpan .a x mode) →
       let held := ∃ n, n / 30 = x ∧ ((s.circuit n).state ≠ .copper ∨ s.queued n = true ∨ (s.circuit n).context ≠ none
         ∨ (now = true ∧ (s.circuit n).residual ≠ 0))
       (held → exec (.bypassSpan .a x mode) s = .next (s.replied .a .refusedState []))
       ∧ (¬ held → exec (.bypassSpan .a x mode) s = .next (match state, now with
           | .bypass, _ => s.replied .a .ok []
           | .drainIn, _ => s.replied .a .refusedState []
           | .inserted, false => (s.moveSpan x .drainOut).replied .a .ok []
           | .inserted, true => (s.moveSpan x .bypass).replied .a .ok []
           | .drainOut, false => s.replied .a .ok []
           | .drainOut, true => (s.moveSpan x .bypass).replied .a .ok [])))
     ∧ (s.hears .a (.cancelSpan .a x) →
       exec (.cancelSpan .a x) s = .next (match state with
         | .bypass => s.replied .a .refusedState [0]
         | .drainIn => (s.moveSpan x .bypass).replied .a .ok []
         | .inserted => s.replied .a .refusedState [2]
         | .drainOut => (s.moveSpan x .inserted).replied .a .ok [])))
  ∧ (∀ (x : Nat) (s : State), s.rests → x < 16 → BoundaryEvent.drainComplete x ∈ s.owed →
     (∀ y, y < x → BoundaryEvent.drainComplete y ∉ s.owed) →
     let u := { s with owed := s.owed.filter (fun e => e != BoundaryEvent.drainComplete x) }
     let idle := ∀ n, n / 30 = x → (s.circuit n).equipped = true → (s.circuit n).call = .idle
     ((s.span x).state = .drainIn → idle → exec (.drainComplete x) s = .next (u.moveSpan x .inserted))
     ∧ ((s.span x).state = .drainOut → idle → exec (.drainComplete x) s = .next (u.moveSpan x .bypass))
     ∧ (¬ idle ∨ (s.span x).state = .bypass ∨ (s.span x).state = .inserted → exec (.drainComplete x) s = .next u))

/-- Section 3.3 (R44): the run count and the status of a receiver. Sections 3.2 to 3.4, 6.2 and 9.1: a received copper frame.
The samples and the spare-bit history follow the pattern. A code completes with a correct frame where every frame that
carried it had a correct pattern; which frames those are, and the record of the latest sixteen, is log entry 11. At a
declaration of loss the code that stands is held (R42, R43). A marker records tc, clears a declared MARKER_LOSS and hands
D to the attempts that run on the span, and a change of status reaches the Fault Unit. A line-side frame without a marker
raises the marker-loss count of a cut span whose peer is present, once in a local frame (R48, log entry 19). -/
def Obligations.CopperFramesAreReceived : Prop :=
  (∀ (f : Framing) (correct : Bool),
     let g := f.examine correct
     g.good = (correct :: f.good).take 16
     ∧ (f.los = false → correct = true → g.los = false ∧ g.run = 0)
     ∧ (f.los = false → correct = false → f.run < 3 → g.los = false ∧ g.run = f.run + 1)
     ∧ (f.los = false → correct = false → 3 ≤ f.run → g.los = true ∧ g.run = 0)
     ∧ (f.los = true → correct = false → g.los = true ∧ g.run = 0)
     ∧ (f.los = true → correct = true → f.run < 2 → g.los = true ∧ g.run = f.run + 1)
     ∧ (f.los = true → correct = true → 2 ≤ f.run → g.los = false ∧ g.run = 0))
  ∧ (∀ (side : Side) (x : Nat) (pattern : BitVec 7) (spare : Bool) (samples : List Byte) (codes : List CodeArrival)
     (s : State), s.rests → x < 16 → samples.length = 30 →
     let correct := pattern == 0b1010110#7
     let old := s.span x
     let f := (old.framing side).examine correct
     let lost := !(old.framing side).los && f.los
     let marker := side == .line && correct && spare && old.history == List.replicate 7 false
     let present := s.port.los = false ∧ s.peer.silent = false ∧ ∃ a, s.port.wordAge = some a ∧ a < s.peer.silentTime
     let misses := side = .line ∧ old.tested = false ∧ old.state.cut = true ∧ present
     ∃ t : State, exec (.copperFrameReceive side x pattern spare samples codes) s = .next t
       ∧ (t.span x).framing side = f
       ∧ (t.span x).history = (if side = .switch then old.history else if lost || !correct then []
           else (old.history ++ [spare]).drop (if old.history.length < 7 then 0 else 1))
       ∧ (t.span x).tc = (if marker then some s.frameCount else old.tc)
       ∧ (marker = true → (t.span x).lossCount = 0)
       ∧ (marker = false → misses → (t.span x).lossCount = min 1024 (old.lossCount + 1))
       ∧ (marker = false → ¬ misses → (t.span x).lossCount = old.lossCount)
       ∧ (t.span x).tested = (side == .line || old.tested)
       ∧ (t.span x).markerLoss = (!marker && old.markerLoss)
       ∧ (t.span x).state = old.state ∧ (t.span x).relay = old.relay
       ∧ (∀ y, y ≠ x → t.span y = s.span y)
       ∧ (∀ n, n < 480 → n / 30 = x →
           let here (c : Channel) : Recovered := match side with | .line => c.line | .switch => c.switch
           let there (c : Channel) : Recovered := match side with | .line => c.switch | .switch => c.line
           let before := here (s.channel n)
           let now := here (t.channel n)
           let completes (a : CodeArrival) : Prop := a.channel = n % 30 + 1 ∧ ∀ k, k ∈ a.parts → f.good[k]? = some true
           there (t.channel n) = there (s.channel n)
           ∧ now.sample = (if correct then samples.getD (n % 30) 0 else before.sample)
           ∧ (correct = false ∨ (∀ a, a ∈ codes → ¬ completes a) → now.code = before.code)
           ∧ (correct = true → ∀ pre a post, codes = pre ++ a :: post → completes a → (∀ b, b ∈ post → ¬ completes b) →
               now.code = a.code)
           ∧ now.held = (if lost then now.code else before.held))
       ∧ (∀ n, n / 30 ≠ x → t.channel n = s.channel n)
       ∧ (t.fault (match side with | .line => .copperLos | .switch => .switchLos) x).declared
           = (if (old.framing side).los = f.los then
               (s.fault (match side with | .line => .copperLos | .switch => .switchLos) x).declared else f.los)
       ∧ ((old.framing side).los = f.los → marker = false →
           t = { s with spans := t.spans, channels := t.channels })
       ∧ ((old.framing side).los ≠ f.los → marker = false →
           let kind := match side with | .line => FaultKind.copperLos | .switch => .switchLos
           let u := { s with spans := t.spans, channels := t.channels }
           t = if f.los then u.declare kind x else u.clearFault kind x)
       ∧ ((old.framing side).los = f.los → marker = true →
           t = { (if old.markerLoss then s.clearFault .markerLoss x else s) with
             spans := t.spans, channels := t.channels, contexts := t.contexts }
           ∧ ∀ c, c < 8 → t.ctx c = match s.port.tf with
             | some tf =>
               if (s.ctx c).state = .measure ∧ (s.ctx c).running = true ∧ (s.ctx c).n < (s.ctx c).attemptN
                   ∧ (s.ctx c).circuit / 30 = x then
                 (s.ctx c).takeD (differentialDelay s.frameCount tf)
               else s.ctx c
             | none => s.ctx c))

/-! ### The Fibre Port (chapter 4) -/

/-- Sections 4.3, 12.1 and 12.5 (R61, R190): the receiver's status, run count and trial position over the bits of the fibre,
each byte most significant bit first. While it hunts, the first alignment word at any bit of the bits not yet examined
makes a trial position; three consecutive correct words at that position regain the fibre, and a wrong one resumes the hunt at the
next bit. While aligned, a frame with a correct word is judged by its check; a wrong word makes it errored, and the fourth
in a row loses the fibre and begins the hunt at the next bit. A row of the table brings the bits of one local frame, a
position is a bit's place within a local frame, and a frame is examined in the local frame in which its last byte comes
(log entry 12). Sections 4.3, 4.6 and 9.1 (R62, R66, R151): a declaration of FIBRE_LOS makes every slot VACANT, removes
tf, sets the window's loss mark and hands the declaration to the Fault Unit; the rest of the port stays. -/
def Obligations.CarriageFramesAreFound : Prop :=
  (∀ (stream : List Byte) (i : Nat), i + 4304 ≤ 8 * stream.length →
     (frameAt stream i).length = 538
     ∧ ∀ k, k < 4304 → ((frameAt stream i).getD (k / 8) 0).getMsbD (k % 8)
         = (stream.getD ((i + k) / 8) 0).getMsbD ((i + k) % 8))
  ∧ (∀ (position : Nat) (bytes : List Byte) (s : State), s.rests →
     let run := exec (.carriageFrameReceive position bytes) s
     let before := s.port.stream
     let stream := before ++ frameAt bytes position
     let u := { s with port := { s.port with stream := frameAt bytes position } }
     let word (i : Nat) : Prop :=
       256 * ((frameAt stream i).getD 0 0).toNat + ((frameAt stream i).getD 1 0).toNat = 0x3AC5
     let place (q : Nat) : Nat := if q = 0 then 8 * before.length else q
     let hunts (v : State) (first : Nat) : Prop :=
       (∀ k, first ≤ k → k + 4304 ≤ 8 * stream.length → word k → (∀ j, first ≤ j → j < k → ¬ word j) →
         run = .next { v with port := { v.port with trial := some (k % 4304), run := 1 } })
       ∧ ((∀ k, first ≤ k → k + 4304 ≤ 8 * stream.length → ¬ word k) →
         run = .next { v with port := { v.port with trial := none, run := 0 } })
     let p := s.port
     (p.los = true → p.trial = none → hunts u (8 * before.length + 1 - 4304))
     ∧ (∀ q, p.los = true → p.trial = some q →
       (¬ word (place q) → hunts u (place q + 1))
       ∧ (word (place q) → p.run < 2 → run = .next { u with port := { u.port with run := p.run + 1 } })
       ∧ (word (place q) → 2 ≤ p.run → run = .next ((State.clearFault { u with
           port := { u.port with los := false, run := 0, trial := none, position := some q } } .fibreLos 0).judgeFrame
             (frameAt stream (place q)))))
     ∧ (p.los = false → p.position = none → run = .next u)
     ∧ (∀ q, p.los = false → p.position = some q →
       (word (place q) →
           run = .next (State.judgeFrame { u with port := { u.port with run := 0 } } (frameAt stream (place q))))
       ∧ (¬ word (place q) → p.run < 3 →
           run = .next (State.erroredFrame { u with port := { u.port with run := p.run + 1 } }
             (frameAt stream (place q))))
       ∧ (¬ word (place q) → 3 ≤ p.run → hunts u.loseFibre (place q + 1))))
  ∧ (∀ s : State, let t := s.loseFibre
     t.port.los = true ∧ t.port.run = 0 ∧ t.port.trial = none ∧ t.port.tf = none ∧ t.port.lossMark = true
     ∧ (∀ k, k < 512 → t.slotCode k = 15 ∧ t.slotLive k = false ∧ Table.at t.port.samples 0 k = 0xFF
         ∧ Table.at t.port.heldCodes 0 k = s.slotCode k)
     ∧ (t.fault .fibreLos 0).declared = true
     ∧ ((s.fault .fibreLos 0).enabled = true → (t.fault .fibreLos 0).live = true ∧ (t.fault .fibreLos 0).latched = true)
     ∧ t.port = { s.port with
         los := true, run := 0, trial := none, position := none, tf := none, lossMark := true
         codes := t.port.codes, heldCodes := t.port.heldCodes, samples := t.port.samples })

/-- Sections 4.4 and 4.5 (R63, R64, R65): a good frame delivers its samples, its 32 codes, its marker and its word; an
errored one delivers its samples only and is counted; that the window count stays at 8000 is log entry 35 (DESIGN
CHOICE). -/
def Obligations.FramesAreJudged : Prop :=
  ∀ (bytes : List Byte) (s : State), bytes.length = 538 →
    let b (i : Nat) : Byte := bytes.getD i 0
    let q := (256 * (b 2).toNat + (b 3).toNat) % 4096
    let good := (crc16 (bytes.take 536)).toNat = 256 * (b 536).toNat + (b 537).toNat
    let t := s.judgeFrame bytes
    (∀ k, k < 512 → Table.at t.port.samples 0 k = b (24 + k))
    ∧ (¬ good → t = { s with port := { s.port with
        samples := t.port.samples
        erroredFrames := (s.port.erroredFrames + 1) % 4294967296
        windowCount := min 8000 (s.port.windowCount + 1) } })
    ∧ (good →
      (∀ k, k < 512 → t.slotCode k =
        if k / 32 = q % 16 then
          (if k % 2 = 0 then (b (8 + k % 32 / 2) >>> 4).setWidth 4 else (b (8 + k % 32 / 2)).setWidth 4)
        else s.slotCode k)
      ∧ (let wordGood := crc8 [b 4, b 5, b 6] = b 7
         let port := { s.port with
           samples := t.port.samples
           codes := t.port.codes
           tf := if q % 512 = 0 then some s.frameCount else s.port.tf }
         let u := State.reconditionAll { s with port := port }
           ((List.range 480).filter (fun n => (s.circuit n).state == .fibreOnly))
         (wordGood → t = u.validWord {
            step := (b 4).toNat / 16, site := (b 4).toNat / 2 % 8
            slot := 256 * ((b 4).toNat % 2) + (b 5).toNat, argument := b 6 })
         ∧ (¬ wordGood → t = { u with port := { port with wordChecks := min 65535 (s.port.wordChecks + 1) } })))

/-- Section 4.6 (R66): the end of a window of 500 superframes. A window with its loss mark set keeps FIBRE_ERR; any
other compares its count with the threshold. The Fault Unit hears of a change and of nothing else. That the position
stands at 500 until this event is taken is log entry 35 (DESIGN CHOICE). -/
def Obligations.ErroredFrameWindowsEnd : Prop :=
  ∀ s : State, s.rests → BoundaryEvent.windowEnd ∈ s.owed →
    let u := { s with owed := s.owed.filter (fun e => e != BoundaryEvent.windowEnd) }
    let p := s.port
    let err := if p.lossMark then p.err else decide (p.threshold ≤ p.windowCount)
    (p.windowPosition < 500 → exec .windowEnd s = .next u)
    ∧ (500 ≤ p.windowPosition → ∃ t : State, exec .windowEnd s = .next t
        ∧ t.port = { p with windowPosition := 0, windowCount := 0, lossMark := p.los, err := err }
        ∧ (err = p.err → t = { u with port := t.port })
        ∧ (err = true → p.err = false →
            t = { State.declare { u with port := { p with err := true } } .fibreErr 0 with port := t.port })
        ∧ (err = false → p.err = true →
            t = { State.clearFault { u with port := { p with err := false } } .fibreErr 0 with port := t.port }))

/-- Sections 4.6, 6.8, 7.7 and 8.7: the four commands that write clamped settings. CLAMPED is answered where a value was
clamped; the data holds the values as written. A new walk interval restarts the walk counter, and a new peer-silent
time may make PEER_SILENT due at once. -/
def Obligations.SettingsAreClamped : Prop :=
  (∀ (v : Nat) (s : State), s.hears .b (.setFibreThreshold .b v) →
    let w := max 1 (min 8000 v)
    exec (.setFibreThreshold .b v) s = .next (State.replied { s with port := { s.port with threshold := w } } .b
      (if w = v then .ok else .clamped) (u16 w)))
  ∧ (∀ (n spread walk wait : Nat) (s : State), s.hears .b (.setAlignment .b n spread walk wait) →
    let n' := max 4 (min 32 n)
    let p' := min 15 spread
    let w' := max 4 (min 255 walk)
    let t' := max 1 (min 60000 wait)
    exec (.setAlignment .b n spread walk wait) s = .next (State.replied { s with align := {
        n := n', spreadLimit := p', walkInterval := w', poolTimeout := t'
        walkCounter := if w' = s.align.walkInterval then s.align.walkCounter else 0 } } .b
      (if n' = n ∧ p' = spread ∧ w' = walk ∧ t' = wait then .ok else .clamped)
      (u8 n' ++ u8 p' ++ u16 w' ++ u16 t')))
  ∧ (∀ (ra rb bridge step : Nat) (a b : Bool) (s : State), s.hears .b (.setAdmission .b ra rb bridge step) →
    readBool ra = some a → readBool rb = some b →
    let t' := max 10 (min 2000 bridge)
    let u' := max 50 (min 2000 step)
    exec (.setAdmission .b ra rb bridge step) s = .next (State.replied { s with
        admitting := { requireA := a, requireB := b, bridgeTimeout := t', stepTimeout := u' } } .b
      (if t' = bridge ∧ u' = step then .ok else .clamped)
      ([if a then 1 else 0, if b then 1 else 0] ++ u16 t' ++ u16 u')))
  ∧ (∀ (v : Nat) (s : State), s.hears .b (.setPeerSilentTime .b v) →
    let w := max 10 (min 1000 v)
    let u := { s with peer := { s.peer with silentTime := w } }
    let due := s.peer.silent = false ∧ ∃ a, s.port.wordAge = some a ∧ w ≤ a
    (¬ due → exec (.setPeerSilentTime .b v) s = .next (u.replied .b (if w = v then .ok else .clamped) (u16 w)))
    ∧ (due → exec (.setPeerSilentTime .b v) s = .next ((State.declare { u with peer := { u.peer with silent := true } }
        .peerSilent 0).replied .b (if w = v then .ok else .clamped) (u16 w))))

/-! ### The Carriage Map (chapter 5) -/

/-- R76: STAGE_ASSIGN and STAGE_RELEASE append one edit, whatever the map holds, and answer its position and the new
length; a number out of range gives BAD_PARAM, and then a list of 32 gives FULL. R77: DISCARD_STAGING empties the
staging list, also an empty one, answers OK with the number of edits removed, and touches nothing else. -/
def Obligations.EditsAreStaged : Prop :=
  (∀ s : State,
     let run (i : Instr) (ok : Prop) (e : Edit) : Prop :=
       s.hears .b i →
       (¬ ok → exec i s = .next (s.replied .b .badParam []))
       ∧ (ok → 32 ≤ s.map.staging.length → exec i s = .next (s.replied .b .full []))
       ∧ (ok → s.map.staging.length < 32 →
           exec i s = .next (State.replied { s with map := { s.map with staging := s.map.staging ++ [e] } } .b .ok
             [BitVec.ofNat 8 s.map.staging.length, BitVec.ofNat 8 (s.map.staging.length + 1)]))
     (∀ slot n, run (.stageAssign .b slot n) (slot < 512 ∧ n < 480) (.assign slot n))
     ∧ ∀ slot, run (.stageRelease .b slot) (slot < 512) (.release slot))
  ∧ (∀ s : State, s.hears .b (.discardStaging .b) →
     exec (.discardStaging .b) s = .next (State.replied { s with map := { s.map with staging := [] } } .b .ok
       [BitVec.ofNat 8 s.map.staging.length]))

/-- Section 5.3 (R79): why an edit fails against a working copy, and what one that passes makes of it. -/
def Obligations.EditsAreJudgedInOrder : Prop :=
  ∀ (w : State) (slot n : Nat), slot < 512 → n < 480 →
    let other (w' : State) : Prop :=
      (∀ k, k ≠ slot → w'.boundTo k = w.boundTo k) ∧ (∀ m, m ≠ n → w'.circuit m = w.circuit m)
      ∧ w' = { w with circuits := w'.circuits, map := { w.map with entries := w'.map.entries } }
    (∀ (p : Nat) (rest : List Edit) (e : Edit),
      (∀ c, w.editFails e = some c → w.judge p (e :: rest) = .inr (p, c, e))
      ∧ (w.editFails e = none → w.judge p (e :: rest) = (w.makeEdit e).judge (p + 1) rest))
    ∧ (w.boundTo slot ≠ none → w.editFails (.assign slot n) = some .slotAssigned)
    ∧ (w.boundTo slot = none → (w.circuit n).slot ≠ none → w.editFails (.assign slot n) = some .circuitMapped)
    ∧ (w.boundTo slot = none → (w.circuit n).slot = none → w.editFails (.assign slot n) = none
        ∧ let w' := w.makeEdit (.assign slot n)
          w'.boundTo slot = some n ∧ w'.circuit n = { w.circuit n with slot := some slot } ∧ other w')
    ∧ (w.boundTo slot = none → w.editFails (.release slot) = some .slotFree)
    ∧ (w.boundTo slot = some n →
        let free := (w.circuit n).state = .copper ∧ (∀ e, e ∈ w.queue → e.circuit ≠ n) ∧ (w.circuit n).context = none
          ∧ ∀ c, c < 8 → ¬ ((w.ctx c).state = .aborting ∧ (w.ctx c).slot = slot)
        (¬ free → w.editFails (.release slot) = some .circuitInUse)
        ∧ (free → w.editFails (.release slot) = none
          ∧ let w' := w.makeEdit (.release slot)
            w'.boundTo slot = none ∧ w'.circuit n = { w.circuit n with slot := none } ∧ other w'))

/-- Sections 5.3 and 5.4 (R78, R80, R82): APPLY_MAP holds its answer back; at the boundary all edits take effect together with
a new digest and a MAP_APPLIED notice, or none does and the answer names the first that fails, with its position, its
cause and its bytes (those are log entry 17, DEDUCED). That the answer is built at the MAP_APPLY event is log entry 30. -/
def Obligations.MapIsAppliedWholeOrNotAtAll : Prop :=
  (∀ s : State, s.hears .b (.applyMap .b) →
    exec (.applyMap .b) s = .next {
      s with
      map := { s.map with applyPending := true, applyAnswer := true }
      linkB := { s.linkB with handed := none, response := none, rx := s.linkB.rx.answer, buffer := [] } })
  ∧ (∀ s : State, s.rests → BoundaryEvent.mapApply ∈ s.owed → s.map.applyPending = true →
    let u := { s with owed := s.owed.filter (fun e => e != BoundaryEvent.mapApply) }
    let answered (t : State) (status : Status) (data : List Byte) : State :=
      let v := { t with map := { t.map with applyPending := false, applyAnswer := false } }
      if s.map.applyAnswer then v.setLink .b { v.linkB with response := some (v.responseTo .b status data) }
      else if v.linkB.rx = .answering then v.setLink .b { v.linkB with rx := .hunt }
      else v
    (∀ p c e, u.judge 0 s.map.staging = .inr (p, c, e) →
      exec .mapApply s = .next (answered u .refusedState (u8 p ++ u8 c.code ++ e.bytes)))
    ∧ (∀ w, u.judge 0 s.map.staging = .inl w →
      let d := digestOf w.map.entries
      ∃ t : State, exec .mapApply s = .next (answered t .ok (u8 s.map.staging.length ++ u16 d.toNat))
        ∧ t.map = { s.map with
            entries := w.map.entries, staging := [], ownDigest := d
            run := if d = s.map.ownDigest then s.map.run else 0 }
        ∧ (∀ n, n < 480 → (t.circuit n).slot = (w.circuit n).slot)
        ∧ ((∀ n, n < 480 → (s.circuit n).state ≠ .fibreOnly) → (∀ n, n < 480 → (s.circuit n).conditioned =
              s.wantsConditioning n) →
            t = State.raise { w with map := t.map } {
              cls := .mapApplied, subject := none, cause := none, value := some d })))

/-- Section 5.4 (R83): the run count of received DIGEST words: the third different one in a row declares MAP_MISMATCH,
and once declared the third equal one in a row clears it. -/
def Obligations.DigestWordsAreCompared : Prop :=
  ∀ (d : BitVec 16) (s : State),
    let m := s.map
    let set (bad : Bool) (run : Nat) : State :=
      { s with map := { m with peerDigest := some d, mismatch := bad, run := run } }
    (m.mismatch = false → d = m.ownDigest → s.takeDigest d = set false 0)
    ∧ (m.mismatch = false → d ≠ m.ownDigest → m.run < 2 → s.takeDigest d = set false (m.run + 1))
    ∧ (m.mismatch = false → d ≠ m.ownDigest → 2 ≤ m.run → s.takeDigest d = (set true 0).declare .mapMismatch 0)
    ∧ (m.mismatch = true → d ≠ m.ownDigest → s.takeDigest d = set true 0)
    ∧ (m.mismatch = true → d = m.ownDigest → m.run < 2 → s.takeDigest d = set true (m.run + 1))
    ∧ (m.mismatch = true → d = m.ownDigest → 2 ≤ m.run → s.takeDigest d = (set false 0).clearFault .mapMismatch 0)

/-! ### Delay, alignment and cells (chapter 6) -/

/-- Sections 6.2 and 6.3 (R88, R91, R94): D is tc - tf folded into -256 .. 255; an attempt counts, sums and bounds the D
it takes; M is S / N rounded half away from zero, and E is M towards fibre and -M towards copper. -/
def Obligations.DelaysAreMeasured : Prop :=
  (∀ tc tf : Nat, let d := differentialDelay tc tf
    (-256 ≤ d ∧ d ≤ 255) ∧ (512 : Int) ∣ ((tc : Int) - tf - d))
  ∧ (∀ (x : Ctx) (d : Int), let y := x.takeD d
    y.n = x.n + 1 ∧ y.sum = x.sum + d
    ∧ (∀ m, y.min = some m ↔ (x.min = none ∧ m = d) ∨ ∃ k, x.min = some k ∧ m = min k d)
    ∧ (∀ m, y.max = some m ↔ (x.max = none ∧ m = d) ∨ ∃ k, x.max = some k ∧ m = max k d)
    ∧ y = { x with n := y.n, sum := y.sum, min := y.min, max := y.max })
  ∧ (∀ (sum : Int) (n : Nat), 0 < n → let m := meanOf sum n
    2 * (sum - m * n).natAbs ≤ n ∧ (2 * (sum - m * n).natAbs = n → sum.natAbs ≤ (m * n).natAbs)
    ∧ Direction.leadOf .toFibre m = m ∧ Direction.leadOf .toCopper m = -m)

/-- Sections 6.3 and 7.5 (R90, R92, R95, R119): attempt 1 begins where the slot is live, and under FORCED the context is
READY at once; an attempt with its N values ends in READY, ALLOCATE, another attempt or ALIGN_UNSTABLE. Sections 6.4
and 6.5 (R96, R98, R100): the head of the wait list is served when the free count covers its need of |E| + 2 cells,
a younger context is not, and a service that leaves the next head short ends there. Entry to READY (R121, R123, R135)
starts the step timer, or finds the switch due where the peer's READY or SWITCHED is already confirmed; entry to
ALLOCATE (R100, R101) joins the wait list, with a POOL_WAIT notice of the need unless the context is served at once. -/
def Obligations.AttemptsEndAndThePoolServes : Prop :=
  (∀ (c : Nat) (s : State), s.powered = true → s.poolDue = false → c < 8 → (s.ctx c).state = .measure →
     let x := s.ctx c
     let started (u : State) (number : Nat) : State := u.setCtx c { u.ctx c with
       attempt := number, attemptN := s.align.n, attemptLimit := s.align.spreadLimit, start := s.frameCount
       elapsed := 0, n := 0, sum := 0, min := none, max := none, running := true, begun := true }
     (x.begun = false → s.slotLive x.slot = true →
       let u := { s with owed := s.owed.filter (fun e => e != BoundaryEvent.bridgeTimeout c) }
       exec (.attemptStart c) s = .next (match x.policy with
         | .hitless => started u 1
         | .drain => started u 1
         | .forced => (u.setCtx c { x with begun := true }).enterReady c))
     ∧ (x.begun = true ∨ s.slotLive x.slot = false → exec (.attemptStart c) s = .next s)
     ∧ (x.running = true → x.attemptN ≤ x.n →
       let e := x.direction.leadOf (meanOf x.sum x.attemptN)
       let data := (s.circuit x.circuit).cls = .data
       let u := s.setCtx c { x with running := false, lead := some e }
       (x.spread ≤ x.attemptLimit →
         exec (.measurementComplete c) s = .next (
           if e = 0 then u.enterReady c
           else if e < 0 ∧ data then (s.setCtx c { x with running := false, lead := some e, idleOnly := true }).enterReady c
           else u.enterAllocate c))
       ∧ (x.attemptLimit < x.spread → x.attempt < 3 →
         exec (.measurementComplete c) s = .next (started s (x.attempt + 1)))
       ∧ (x.attemptLimit < x.spread → 3 ≤ x.attempt →
         exec (.measurementComplete c) s = .next (s.abort c .alignUnstable)))
     ∧ (x.running = false ∨ x.n < x.attemptN → exec (.measurementComplete c) s = .next s))
  ∧ (∀ (c : Nat) (s : State), c < 8 →
     let x := s.ctx c
     let heard := ∃ b, x.lastStep = some (.ready, b) ∨ x.lastStep = some (.switched, b)
     let ready (due : Bool) : State := { s.setCtx c { x with
         state := .ready, stepTimer := 0, stepRunning := !due, switchDue := due } with
       peer := { s.peer with adverts := s.peer.adverts.map (fun a =>
         if a.kind = .context c then { a with step := .ready, argument := 0 } else a) } }
     let need := (x.lead.getD 0).natAbs + 2
     let waits := { s.setCtx c { x with state := .allocate } with pool := { s.pool with
       waitList := s.pool.waitList ++ [c], waitCount := if s.pool.waitList = [] then 0 else s.pool.waitCount } }
     (heard → s.enterReady c = ready true) ∧ (¬ heard → s.enterReady c = ready false)
     ∧ (s.pool.waitList = [] ∧ need ≤ s.pool.free → s.enterAllocate c = waits)
     ∧ (¬ (s.pool.waitList = [] ∧ need ≤ s.pool.free) → s.enterAllocate c = waits.raise {
         cls := .poolWait, subject := some (.context c), cause := none, value := some (BitVec.ofNat 16 need) }))
  ∧ (∀ s : State, s.powered = true →
     (s.pool.waitList = [] → exec .poolService s = .next s)
     ∧ ∀ (c : Nat) (rest : List Nat) (e : Int), s.pool.waitList = c :: rest → c < 8 → (s.ctx c).lead = some e →
       let need := e.natAbs + 2
       let x := s.ctx c
       let u := State.setCtx { s with pool := { free := s.pool.free - need, waitList := rest, waitCount := 0 } } c
         { x with cells := need }
       let served := if 0 < e then
           (u.setCircuit x.circuit ((u.circuit x.circuit).setLine x.direction.targetPath
             (List.replicate e.toNat none))).enterReady c
         else u.setCtx c { x with cells := need, state := .walkUp }
       (s.pool.free < need → exec .poolService s = .next s)
       ∧ (need ≤ s.pool.free → served.poolDue = false → exec .poolService s = .next served))

/-- Sections 6.1, 6.4 and 6.7 (R87, R97, R98, R104, R105): a walk slot takes the circuits whose number mod W is the walk
counter; that it takes them in ascending number is the model's choice (log entry 15), and that a
context which a slip of the slot lets the pool serve is not stepped in it is log entry 3 (DESIGN CHOICE). A walk-up inserts one sample on the current path, a VOICE residual slips one. -/
def Obligations.WalkSlotsStepTheirCircuits : Prop :=
  (∀ s : State, s.rests → BoundaryEvent.walkSlot ∈ s.owed →
    let u := { s with owed := s.owed.filter (fun e => e != BoundaryEvent.walkSlot) }
    let w := ((List.range 480).filter (fun n => n % s.align.walkInterval == s.align.walkCounter)).foldl State.walkCircuit u
    exec .walkSlot s = .next { w with
      align := { s.align with walkCounter := (s.align.walkCounter + 1) % s.align.walkInterval } })
  ∧ ∀ (n : Nat) (s : State), n < 480 →
    let c := s.circuit n
    let walksUp := ∃ k, c.context = some k ∧ (s.ctx k).state = .walkUp
    (∀ k, c.context = some k → k < 8 → (s.ctx k).state = .walkUp →
      let path := (s.ctx k).direction.currentPath
      let u := s.setCircuit n (c.setLine path (some (c.lastOn path) :: c.line path))
      let e := ((s.ctx k).lead.getD 0).natAbs
      s.walkCircuit n = if e ≤ c.delay path + 1 then u.enterReady k else u)
    ∧ (¬ walksUp → 1 < c.residual → c.cls = .voice →
      let u := s.setCircuit n { c.setLine c.residualPath (c.line c.residualPath).tail with
        residual := c.residual - 1, cellsHeld := c.cellsHeld - 1 }
      s.walkCircuit n = { u with pool := { u.pool with free := s.pool.free + 1 } })
    ∧ (¬ walksUp → c.residual = 1 → c.cls = .voice →
      let u := s.setCircuit n { c.setLine c.residualPath (c.line c.residualPath).tail with residual := 0, cellsHeld := 0 }
      s.walkCircuit n = State.raise { u with pool := { u.pool with free := s.pool.free + c.cellsHeld } } {
        cls := .walkDone, subject := some (.circuit n), cause := none, value := some (BitVec.ofNat 16 c.cellsHeld) })
    ∧ (¬ walksUp → c.residual = 0 ∨ c.cls = .data → s.walkCircuit n = s)

/-- Section 6.5 (R99): free cells, cells of circuits and cells of contexts keep their sum at every event that moves
cells: a service, a slip, a drop, a switch and the end of a context before and after its switch. Sections 1.2, 6.1, 6.5
and 7.1 (R5, R6, R7, R86, R99, R100, R108): every step keeps the laws of migration: the cells are 4096 together and back
every residual, a circuit is in MIGRATING exactly while one context has it, one outside COPPER or in the queue is equipped on
an INSERTED span with a slot, and no circuit is queued twice or both queued and in a context. -/
def Obligations.CellMovesBalance : Prop :=
  (∀ s t : State, s.mapAgrees → s.mapInRange → s.migrationLawful → step s = .next t → t.migrationLawful)
  ∧ ∀ (n c : Nat) (s : State), n < 480 → c < 8 →
    let x := s.ctx c
    (∀ rest, s.pool.waitList = c :: rest → x.cells = 0 → x.need ≤ s.pool.free →
      (s.serve c).totalCells = s.totalCells)
    ∧ (0 < (s.circuit n).residual → (s.circuit n).cellsHeld = (s.circuit n).residual + 2 →
      (s.walkSlip n).totalCells = s.totalCells
      ∧ ((s.walkSlip n).circuit n).cellsHeld = (if (s.circuit n).residual = 1 then 0 else (s.circuit n).residual + 1))
    ∧ ((s.dropResidual n).totalCells = s.totalCells ∧ ((s.dropResidual n).circuit n).cellsHeld = 0)
    ∧ (x.circuit = n → (s.circuit n).cellsHeld = 0 →
      (s.busySwitch c).totalCells = s.totalCells ∧ ((s.busySwitch c).ctx c).cells = 0
      ∧ (s.idleSwitch c).totalCells = s.totalCells ∧ ((s.idleSwitch c).ctx c).cells = 0)
    ∧ (x.circuit = n → (s.circuit n).cellsHeld = 0 →
      ((s.circuit n).delay x.direction.currentPath = 0 ∨ (s.circuit n).delay x.direction.currentPath + 2 ≤ x.cells) →
      (s.settleUnswitched c).totalCells = s.totalCells ∧ ((s.settleUnswitched c).ctx c).cells = 0)
    ∧ (x.circuit = n → (s.settleAll c).totalCells = s.totalCells
      ∧ ((s.settleAll c).ctx c).cells = 0 ∧ ((s.settleAll c).circuit n).cellsHeld = 0)

/-! ### Queue and contexts (chapter 7) -/

/-- Section 7.1 (REQUEST): the first failing check gives the status; a request that passes is appended with the present
stamp, and the answer holds its position and the new length. R111: a re-entering entry stands directly in front of
the first entry younger than itself, by wrapped ages, and a full queue takes none. -/
def Obligations.RequestsJoinTheQueueByAge : Prop :=
  (∀ (n code : Nat) (d : Direction) (s : State), s.hears .b (.request .b n code) → n < 480 →
     readDirection code = some d →
     let c := s.circuit n
     let asked := ∃ e, e ∈ s.queue ∧ e.circuit = n
     exec (.request .b n code) s = .next (
       if c.equipped = false ∨ (s.span (n / 30)).state ≠ .inserted then s.replied .b .refusedState []
       else if s.queued n = true ∨ c.context ≠ none then s.replied .b .busy []
       else if (d = .toFibre ∧ c.state ≠ .copper ∧ c.state ≠ .reverted)
           ∨ (d = .toCopper ∧ c.state ≠ .fibreProtected) then s.replied .b .refusedState []
       else if d = .toFibre ∧ c.slot = none then s.replied .b .notFound []
       else if 64 ≤ s.queue.length then s.replied .b .full []
       else State.replied { s with queue := s.queue ++ [{
           circuit := n, direction := d, origin := .linkB, idleOnly := false, stamp := s.stamp }] } .b .ok
         [BitVec.ofNat 8 s.queue.length, BitVec.ofNat 8 (s.queue.length + 1)])
     ∧ (s.queued n = true ↔ asked))
  ∧ (∀ (e : Entry) (s : State),
     let age (x : Entry) : Nat := (s.stamp + 65536 - x.stamp % 65536) % 65536
     (64 ≤ s.queue.length → s.reenter e = (s, none))
     ∧ (s.queue.length < 64 → ∃ before after, s.queue = before ++ after
         ∧ s.reenter e = ({ s with queue := before ++ e :: after }, some before.length)
         ∧ (∀ x, x ∈ before → age e ≤ age x)
         ∧ ∀ x rest, after = x :: rest → age x < age e))

/-- R110: CANCEL_REQUEST removes the queue entry, or else discards the parked entry of the circuit's context, and
answers that entry's direction and origin; else NOT_FOUND. It is a transport command and no broadcast command. -/
def Obligations.CancelRequestWithdraws : Prop :=
  ∀ (n : Nat) (s : State),
    (s.hears .b (.cancelRequest .b n) →
      (480 ≤ n → exec (.cancelRequest .b n) s = .next (s.replied .b .badParam []))
      ∧ (n < 480 →
        (∀ before e after, s.queue = before ++ e :: after → e.circuit = n →
          (∀ x, x ∈ before ++ after → x.circuit ≠ n) →
          exec (.cancelRequest .b n) s = .next (State.replied { s with queue := before ++ after } .b .ok
            (u8 e.direction.code ++ u8 e.origin.code)))
        ∧ ((∀ e, e ∈ s.queue → e.circuit ≠ n) →
          (∀ c e, (s.circuit n).context = some c → (s.ctx c).parked = some e →
            exec (.cancelRequest .b n) s = .next ((s.setCtx c { s.ctx c with parked := none }).replied .b .ok
              (u8 e.direction.code ++ u8 e.origin.code)))
          ∧ ((∀ c e, (s.circuit n).context = some c → (s.ctx c).parked ≠ some e) →
            exec (.cancelRequest .b n) s = .next (s.replied .b .notFound [])))))
    ∧ (s.hears .a (.cancelRequest .a n) → exec (.cancelRequest .a n) s = .next (s.replied .a .notPermitted []))
    ∧ ∀ (l : Link) (frame : List Byte), par frame 0 = 0x99 → s.broadcastFrame l frame = s

/-- Section 7.2 (R112, R113, R114): nothing is admitted while a halt reason holds; else the first entry that passes the
nine tests takes the lowest free context, and its circuit becomes MIGRATING and is bridged. -/
def Obligations.AdmissionTakesTheFirstThatPasses : Prop :=
  ∀ s : State, s.rests → BoundaryEvent.admission ∈ s.owed →
    let u := { s with owed := s.owed.filter (fun e => e != BoundaryEvent.admission) }
    let halts (k : FaultKind) (x : Nat) : Prop :=
      (s.fault k x).enabled = true ∧ (s.fault k x).live = true ∧ (s.fault k x).actions.halt = true
    let present := s.port.los = false ∧ s.peer.silent = false ∧ ∃ a, s.port.wordAge = some a ∧ a < s.peer.silentTime
    let halted := (∀ c, c < 8 → (s.ctx c).state ≠ .free) ∨ ¬ present ∨ (∃ k, k.isPort = true ∧ halts k 0)
      ∨ (s.admitting.requireA = true ∧ s.linkA.alive = false) ∨ (s.admitting.requireB = true ∧ s.linkB.alive = false)
    let passes (e : Entry) : Prop :=
      let c := s.circuit e.circuit
      let g := s.group c.group
      (s.span (e.circuit / 30)).state = .inserted
      ∧ ¬ (halts .copperLos (e.circuit / 30) ∨ halts .switchLos (e.circuit / 30) ∨ halts .markerLoss (e.circuit / 30))
      ∧ (match e.direction with
          | .toFibre => c.state = .copper ∨ c.state = .reverted
          | .toCopper => c.state = .fibreProtected)
      ∧ g.frozen = false ∧ (e.direction = .toFibre → g.lockedOut = false) ∧ c.held = false ∧ c.residual = 0
      ∧ (∀ slot k, c.slot = some slot → k < 8 → ¬ ((s.ctx k).state = .aborting ∧ (s.ctx k).slot = slot))
      ∧ (g.policy = .drain ∨ e.idleOnly = true → c.call = .idle)
    (halted ∨ (∀ e, e ∈ s.queue → ¬ passes e) → exec .admission s = .next u)
    ∧ ∀ before e after c, ¬ halted → s.queue = before ++ e :: after → (∀ x, x ∈ before → ¬ passes x) → passes e →
      e.circuit < 480 → (∀ x, x ∈ before ++ after → x.circuit ≠ e.circuit) →
      c < 8 → (s.ctx c).state = .free → (∀ k, k < c → (s.ctx k).state ≠ .free) →
      let old := s.circuit e.circuit
      let slot := old.slot.getD 0
      let step := match e.direction with | .toFibre => Step.reqFibre | .toCopper => Step.reqCopper
      ∃ t : State, exec .admission s = .next t
        ∧ t.queue = before ++ after
        ∧ t.ctx c = { Ctx.reset with
            state := .request, role := .initiator, direction := e.direction, circuit := e.circuit, slot := slot
            origin := old.state, policy := (s.group old.group).policy, served := some e, stepRunning := true }
        ∧ (∀ k, k ≠ c → t.ctx k = s.ctx k)
        ∧ (let new := t.circuit e.circuit
          new.state = .migrating ∧ new.transmit = .both ∧ new.receive = old.receive ∧ new.context = some c)
        ∧ (∀ n, n ≠ e.circuit → t.circuit n = s.circuit n)
        ∧ t.peer = s.peer.make { kind := .context c, slot := slot, step := step, argument := 0 }
        ∧ (t.wantsConditioning e.circuit = old.conditioned → t = State.raise {
            u with
            queue := t.queue, contexts := t.contexts, circuits := t.circuits, peer := t.peer } {
              cls := .admitted, subject := some (.circuit e.circuit), cause := none
              value := some (BitVec.ofNat 16 c) })

/-- Section 6.6 and R121: a due switch is made on the target path. On a busy call the new path's delay less the old
path's is the lead E, with its cells; on any other both delays go. An idle-only switch of a busy call is deferred: its
circuit returns to its origin state with last abort cause DEFERRED_DATA, and the served entry re-enters the queue with its
idle-only mark and a DEFERRED notice (R126). A context whose peer is already SWITCHED completes by the event that
follows at once (R122, log entry 3). -/
def Obligations.SwitchAlignsThePaths : Prop :=
  ∀ (c n : Nat) (s : State), s.rests → BoundaryEvent.switch c ∈ s.owed → c < 8 → n < 480 → (s.ctx c).circuit = n →
    (s.ctx c).state = .ready → (s.ctx c).switchDue = true →
    let u := { s with owed := s.owed.filter (fun e => e != BoundaryEvent.switch c) }
    let x := s.ctx c
    let old := s.circuit n
    let target := x.direction.targetPath
    let current := x.direction.currentPath
    (x.idleOnly = true → old.call.busy = true → exec (.switch c) s = .next (u.defer c)
      ∧ ∀ e, x.switched = false → x.parked = none → x.served = some e → s.queue.length < 64 →
        let t := u.defer c
        let back := { e with idleOnly := true }
        let home := if x.origin = .reverted ∧ (s.group old.group).lockedOut = true then .locked else x.origin
        (t.ctx c).state = .aborting ∧ (t.ctx c).abortCause = some .deferredData ∧ (t.ctx c).served = none
        ∧ (t.circuit n).state = home ∧ (t.circuit n).context = none ∧ (t.circuit n).lastAbort = some .deferredData
        ∧ t.queue = (s.reenter back).1.queue
        ∧ t.peer.adverts = s.peer.adverts.map (fun a =>
            if a.kind = .context c then { a with step := .abort, argument := 0x0E } else a)
        ∧ (t.wantsConditioning n = old.conditioned → e.circuit = n → ∀ l p, (s.reenter back).2 = some p →
            t.link l = (s.link l).offer s.stamp {
              cls := .deferred, subject := some (.circuit n), cause := some .deferredData
              value := some (BitVec.ofNat 16 p) }))
    ∧ (x.idleOnly = false ∨ old.call.busy = false → ∃ t : State, exec (.switch c) s = .next t
      ∧ t.ctx c = { x with
          state := .switched, switched := true, switchDue := false, idleOnly := false, stepTimer := 0
          stepRunning := true, cells := 0 }
      ∧ (∀ k, k ≠ c → t.ctx k = s.ctx k)
      ∧ (t.circuit n).receive = target ∧ (t.circuit n).state = old.state ∧ (t.circuit n).transmit = old.transmit
      ∧ (∀ m, m ≠ n → t.circuit m = s.circuit m)
      ∧ t.peer = { s.peer with adverts := s.peer.adverts.map (fun a =>
          if a.kind = .context c then { a with step := .switched, argument := 0 } else a) }
      ∧ (t.wantsConditioning n = old.conditioned →
        let new := t.circuit n
        let lead := x.lead.getD 0
        (old.call.busy = false → new.delay .copper = 0 ∧ new.delay .fibre = 0 ∧ new.residual = 0
          ∧ t.pool = { s.pool with free := s.pool.free + x.cells })
        ∧ (old.call.busy = true → 0 < lead → new.residual = lead.toNat ∧ new.residualPath = target
          ∧ new.cellsHeld = x.cells ∧ new.delay target = old.delay target ∧ new.delay current = old.delay current
          ∧ t.pool = s.pool)
        ∧ (old.call.busy = true → lead ≤ 0 → new.residual = 0 ∧ new.delay current = 0
          ∧ new.delay target = old.delay target ∧ t.pool = { s.pool with free := s.pool.free + x.cells })
        ∧ (old.call.busy = true →
          (old.delay target : Int) = max lead 0 → (old.delay current : Int) = max (-lead) 0 →
          (new.delay target : Int) - old.delay current = lead)))

/-- Section 7.5 (R122): a context in SWITCHED whose last confirmed step is SWITCHED completes: its circuit reaches
FIBRE_PROTECTED or COPPER with its residual, its advertisement lingers, and a parked entry re-enters. -/
def Obligations.ContextsComplete : Prop :=
  ∀ (c n : Nat) (s : State), s.powered = true → s.poolDue = false → c < 8 → n < 480 → (s.ctx c).circuit = n →
    let x := s.ctx c
    let old := s.circuit n
    let done := x.state = .switched ∧ ∃ b, x.lastStep = some (.switched, b)
    (¬ done → exec (.contextCompletion c) s = .next s)
    ∧ (done → ∃ t : State, exec (.contextCompletion c) s = .next t
      ∧ (t.ctx c).state = .free ∧ (t.ctx c).served = none ∧ (t.ctx c).parked = none
      ∧ (t.ctx c).lead = x.lead ∧ (t.ctx c).slot = x.slot ∧ (t.ctx c).circuit = n
      ∧ (let new := t.circuit n
        new.context = none ∧ new.lastAbort = old.lastAbort ∧ new.slot = old.slot
        ∧ match x.direction with
          | .toFibre => new.state = .fibreProtected ∧ new.receive = .fibre ∧ new.transmit = .both
          | .toCopper => new.state = .copper ∧ new.receive = .copper ∧ new.transmit = .copper)
      ∧ t.queue = (s.reenterParked x.parked).queue
      ∧ t.peer.adverts = s.peer.adverts.map (fun a =>
          if a.kind = .context c then { a with kind := .linger 32 s.peer.serial } else a)
      ∧ (t.wantsConditioning n = old.conditioned → x.parked = none →
        (t.circuit n).residual = old.residual
        ∧ ∀ l, t.link l = (s.link l).offer s.stamp {
            cls := .completed, subject := some (.circuit n), cause := none, value := x.lead.map (BitVec.ofInt 16) }))

/-- Section 7.6 (R124, R106): an abort before the switch settles the cells and returns the circuit at once; an abort
after it leaves the circuit to the next boundary. A FREE or ABORTING context is not reached. -/
def Obligations.AbortsEndAContext : Prop :=
  ∀ (c n : Nat) (cause : Cause) (peer : Option Byte) (s : State), c < 8 → n < 480 → (s.ctx c).circuit = n →
    let x := s.ctx c
    let old := s.circuit n
    let t := s.abort c cause peer
    (x.state = .free ∨ x.state = .aborting → t = s)
    ∧ (x.state ≠ .free → x.state ≠ .aborting →
      (t.ctx c).state = .aborting ∧ (t.ctx c).abortCause = some cause ∧ (t.ctx c).abortCount = 0
      ∧ (t.ctx c).stepRunning = false ∧ (t.ctx c).running = false ∧ (t.ctx c).switchDue = false
      ∧ (t.ctx c).lastStep = x.lastStep ∧ (t.ctx c).peerEntry = x.peerEntry
      ∧ (∀ k, k ≠ c → t.ctx k = s.ctx k)
      ∧ t.pool.waitList = s.pool.waitList.filter (fun k => k != c)
      ∧ t.peer.adverts = s.peer.adverts.map (fun a =>
          if a.kind = .context c then { a with step := .abort, argument := cause.byte } else a)
      ∧ (x.switched = true → t.circuits = s.circuits ∧ (t.ctx c).returnPending = true
        ∧ (t.ctx c).served = x.served ∧ (t.ctx c).parked = x.parked ∧ t.pool.free = s.pool.free)
      ∧ (x.switched = false →
        let new := t.circuit n
        let home := if x.origin = .reverted ∧ (s.group old.group).lockedOut = true then .locked else x.origin
        new.state = home ∧ new.context = none ∧ new.lastAbort = some cause
        ∧ new.transmit = home.transmitFor ∧ new.receive = home.receiveFor old.receive
        ∧ (t.ctx c).cells = 0 ∧ (t.ctx c).returnPending = false
        ∧ (t.ctx c).served = none ∧ (t.ctx c).parked = none
        ∧ t.queue = (s.reenterParked x.parked).queue
        ∧ (t.wantsConditioning n = old.conditioned →
          let k := old.delay x.direction.currentPath
          (k = 0 ∨ old.call.busy = false → new.delay .copper = 0 ∧ new.delay .fibre = 0
            ∧ new.residual = old.residual ∧ t.pool.free = s.pool.free + x.cells)
          ∧ (k ≠ 0 → old.call.busy = true → new.residual = k ∧ new.residualPath = x.direction.currentPath
            ∧ new.cellsHeld = k + 2 ∧ new.delay x.direction.currentPath = k ∧ new.delay x.direction.targetPath = 0
            ∧ t.pool.free = s.pool.free + (x.cells - (k + 2)))
          ∧ (x.parked = none → ∀ l, t.link l = (s.link l).offer s.stamp {
              cls := .aborted, subject := some (.circuit n), cause := some cause
              value := some (BitVec.ofNat 16 (c + match peer with | some b => 256 * b.toNat | none => 0)) }))))

/-- Section 7.6 (ABORT_CONTEXT): the answers by the context's state. -/
def Obligations.AbortContextAnswers : Prop :=
  ∀ (c : Nat) (s : State), s.hears .b (.abortContext .b c) →
    let x := s.ctx c
    let run := exec (.abortContext .b c) s
    (8 ≤ c → run = .next (s.replied .b .badParam []))
    ∧ (c < 8 → x.state = .free → run = .next (s.replied .b .notFound []))
    ∧ (∀ cause, c < 8 → x.state = .aborting → x.abortCause = some cause →
        run = .next (s.replied .b .refusedState [BitVec.ofNat 8 cause.code]))
    ∧ (c < 8 → x.state ≠ .free → x.state ≠ .aborting →
        run = .next ((s.abort c .cancelled).replied .b .ok (u16 x.circuit ++ [BitVec.ofNat 8 x.state.code])))

/-- Section 7.6 (R124, R125, R126): at a boundary a pending return brings the circuit back to its origin with no residual,
a deferral's served entry re-enters the queue idle-only, and a parked entry re-enters; a context that may end becomes FREE
with an ABORT linger. -/
def Obligations.AbortedContextsReturnAndEnd : Prop :=
  ∀ (c n : Nat) (s : State), s.rests → c < 8 → n < 480 → (s.ctx c).circuit = n → (s.ctx c).state = .aborting →
    let x := s.ctx c
    let old := s.circuit n
    (BoundaryEvent.abortReturn c ∈ s.owed → x.returnPending = true →
      ∃ t : State, exec (.abortReturn c) s = .next t
        ∧ t.ctx c = { x with served := none, parked := none, returnPending := false }
        ∧ (let new := t.circuit n
          let home := if x.origin = .reverted ∧ (s.group old.group).lockedOut = true then .locked else x.origin
          new.state = home ∧ new.context = none ∧ new.lastAbort = x.abortCause ∧ new.residual = 0
          ∧ new.cellsHeld = 0 ∧ new.delay .copper = 0 ∧ new.delay .fibre = 0
          ∧ new.transmit = home.transmitFor ∧ new.receive = home.receiveFor old.receive)
        ∧ t.pool.free = s.pool.free + old.cellsHeld
        ∧ (∀ m, m ≠ n → t.circuit m = s.circuit m) ∧ t.peer = s.peer
        ∧ (x.deferred = false → t.queue = (s.reenterParked x.parked).queue)
        ∧ (x.deferred = true → x.served = none → t.queue = (s.reenterParked x.parked).queue)
        ∧ (∀ e, x.deferred = true → x.served = some e → x.parked = none →
            t.queue = (s.reenter { e with idleOnly := true }).1.queue))
    ∧ (BoundaryEvent.abortReturn c ∈ s.owed → x.returnPending = false →
      exec (.abortReturn c) s
        = .next { s with owed := s.owed.filter (fun e => e != BoundaryEvent.abortReturn c) })
    ∧ (BoundaryEvent.abortingEnd c ∈ s.owed → x.returnPending = false →
      let u := { s with owed := s.owed.filter (fun e => e != BoundaryEvent.abortingEnd c) }
      let ends := x.peerEntry = false ∨ (∃ b, x.lastStep = some (.abort, b)) ∨ 32 ≤ x.abortCount
      (x.resetPending = true → exec (.abortingEnd c) s = .next (u.setCtx c x.freed))
      ∧ (x.resetPending = false → ¬ ends → exec (.abortingEnd c) s = .next u)
      ∧ (x.resetPending = false → ends → exec (.abortingEnd c) s = .next ((u.beginLinger c).setCtx c x.freed)))

/-- Sections 3.4, 6.3, 6.5 and 7.5 (R48, R93, R101, R119, R123): what each timeout does where it is due; where it is
not, the boundary's events are owed no longer and nothing else changes. -/
def Obligations.TimeoutsActWhereDue : Prop :=
  ∀ (c : Nat) (s : State), s.rests →
    let x := s.ctx c
    let without (e : BoundaryEvent) : State := { s with owed := s.owed.filter (fun y => y != e) }
    (BoundaryEvent.stepTimeout c ∈ s.owed → exec (.stepTimeout c) s = .next (
      if x.stepRunning = true ∧ s.admitting.stepTimeout ≤ x.stepTimer then
        (without (.stepTimeout c)).abort c .stepTimeout
      else without (.stepTimeout c)))
    ∧ (BoundaryEvent.bridgeTimeout c ∈ s.owed → exec (.bridgeTimeout c) s = .next (
      if x.state = .measure ∧ x.begun = false ∧ s.admitting.bridgeTimeout ≤ x.bridgeTimer then
        (without (.bridgeTimeout c)).abort c .bridgeTimeout
      else without (.bridgeTimeout c)))
    ∧ (exec (.markerTimeout c) s = .next (
      if x.state = .measure ∧ x.running = true ∧ (x.attemptN + 2) * 512 ≤ x.elapsed then s.abort c .markerTimeout
      else s))
    ∧ (BoundaryEvent.poolTimeout ∈ s.owed → exec .poolTimeout s = .next (match s.pool.waitList with
      | [] => without .poolTimeout
      | head :: _ => if s.align.poolTimeout < s.pool.waitCount then (without .poolTimeout).abort head .poolTimeout
        else without .poolTimeout))
    ∧ (exec (.markerLoss c) s = .next (
      if (s.span c).state.cut = true ∧ 1024 ≤ (s.span c).lossCount ∧ (s.span c).markerLoss = false then
        (s.setSpan c { s.span c with markerLoss := true }).declare .markerLoss c
      else s))

/-- Sections 7.6 and 8.2 (RESET_MIGRATION): the work is cleared: queue, wait list and peer view are empty, every
advertisement is an ABORT linger with cause RESET, and every context is FREE but those with a return pending. That the
entries of contexts already in ABORTING are discarded too is log entry 14 (DEDUCED); that the answer counts only the
contexts the command aborts is log entry 32 (DESIGN CHOICE). -/
def Obligations.ResetMigrationClearsTheWork : Prop :=
  ∀ s : State, s.hears .b (.resetMigration .b) →
    ∃ t : State, exec (.resetMigration .b) s = .next (t.replied .b .ok
        [BitVec.ofNat 8 (((List.range 8).filter (fun c =>
          decide ((s.ctx c).state ≠ .free ∧ (s.ctx c).state ≠ .aborting))).length), BitVec.ofNat 8 s.queue.length])
      ∧ t.queue = [] ∧ t.pool.waitList = [] ∧ t.peer.view = []
      ∧ t.peer.adverts = s.peer.adverts.map (fun a =>
          { a with kind := .linger 32 s.peer.serial, step := .abort, argument := 2 })
      ∧ (∀ c, c < 8 →
        let pending := ((s.ctx c).state = .aborting ∧ (s.ctx c).returnPending = true)
          ∨ ((s.ctx c).state ≠ .free ∧ (s.ctx c).state ≠ .aborting ∧ (s.ctx c).switched = true)
        (pending → (t.ctx c).state = .aborting ∧ (t.ctx c).returnPending = true ∧ (t.ctx c).resetPending = true)
        ∧ (¬ pending → (t.ctx c).state = .free)
        ∧ ((s.ctx c).state ≠ .free → (t.ctx c).served = none ∧ (t.ctx c).parked = none)
        ∧ ((s.ctx c).state ≠ .free → (s.ctx c).state ≠ .aborting → (t.ctx c).abortCause = some .reset))
      ∧ (∀ n, (∀ c, c < 8 → (s.ctx c).state = .free ∨ (s.ctx c).state = .aborting ∨ (s.ctx c).circuit ≠ n) →
          t.circuit n = s.circuit n)
      ∧ t = { s with
          circuits := t.circuits, groups := t.groups, contexts := t.contexts, queue := t.queue, pool := t.pool
          peer := t.peer, linkA := t.linkA, linkB := t.linkB, owed := t.owed }

/-! ### Peer exchange (chapter 8) -/

/-- Sections 8.3 and 8.7 (R65, R138, R146, R147): a valid word sets the word age to 0 and clears PEER_SILENT; its site
is judged; then a DIGEST goes to the map, a word without a step is dropped, and any other updates the peer view.
PEER_SILENT is declared where the word age has reached the peer-silent time. R139, R141: a sighting is dispatched where it
leaves the slot's entry with a seen count of 2 or more: to the busy context that holds the slot, or else to be answered. -/
def Obligations.ValidWordsAreTakenInOrder : Prop :=
  (∀ (w : ExchangeWord) (s : State),
    let u := { s with port := { s.port with wordAge := some 0 } }
    let v := if s.peer.silent then State.clearFault { u with peer := { u.peer with silent := false } } .peerSilent 0 else u
    let clash (bad : Bool) (run : Nat) : State := { v with peer := { v.peer with clash := bad, clashRun := run } }
    let j := if w.site = s.ownSite then
        (if s.peer.clash then clash true 0 else (clash true s.peer.clashRun).declare .siteClash 0)
      else if s.peer.clash = false then v
      else if s.peer.clashRun < 2 then clash true (s.peer.clashRun + 1)
      else (clash false 0).clearFault .siteClash 0
    (w.step = 8 → s.validWord w = j.takeDigest (BitVec.ofNat 16 (256 * (w.slot % 256) + w.argument.toNat)))
    ∧ (w.step = 0 ∨ 8 < w.step → s.validWord w = j)
    ∧ (∀ step : Step, step ≠ .digest → w.step = step.code →
        s.validWord w = (j.updateView step w).dispatchSighting w.slot))
  ∧ (∀ (slot : Nat) (s : State),
    let entry := s.peer.view.find? (fun e => e.slot == slot)
    (entry = none → s.dispatchSighting slot = s)
    ∧ ∀ e, entry = some e →
      (e.seen < 2 → s.dispatchSighting slot = s)
      ∧ (∀ c, 2 ≤ e.seen → c < 8 → (s.ctx c).state ≠ .free → (s.ctx c).slot = slot →
          (∀ k, k < c → (s.ctx k).state = .free ∨ (s.ctx k).slot ≠ slot) → s.dispatchSighting slot = s.confirm c e)
      ∧ (2 ≤ e.seen → (∀ c, c < 8 → (s.ctx c).state = .free ∨ (s.ctx c).slot ≠ slot) →
          s.dispatchSighting slot = s.answerStep slot e.step))
  ∧ (∀ s : State, s.powered = true →
    let due := s.peer.silent = false ∧ ∃ a, s.port.wordAge = some a ∧ s.peer.silentTime ≤ a
    (due → exec .peerSilent s = .next (State.declare { s with peer := { s.peer with silent := true } } .peerSilent 0))
    ∧ (¬ due → exec .peerSilent s = .next s))

/-- Section 8.3 (R139, R140): a word's entry in the peer view counts its sightings, a seventeenth slot is only counted,
and an entry of age 96 leaves, which the busy context on its slot hears as an age-out; that it stands until this event
is taken is log entry 35 (DESIGN CHOICE). -/
def Obligations.PeerViewFollowsTheWords : Prop :=
  (∀ (step : Step) (w : ExchangeWord) (s : State),
    let t := s.updateView step w
    ((∃ e, e ∈ s.peer.view ∧ e.slot = w.slot) → t = { s with peer := { s.peer with view := s.peer.view.map (fun e =>
      if e.slot = w.slot then {
        slot := e.slot, step := step, argument := w.argument, site := w.site
        seen := if e.step = step then min 255 (e.seen + 1) else 1, age := 0 }
      else e) } })
    ∧ ((∀ e, e ∈ s.peer.view → e.slot ≠ w.slot) → s.peer.view.length < 16 →
      ∃ before after, s.peer.view = before ++ after
        ∧ (∀ e, e ∈ before → e.slot < w.slot) ∧ (∀ e rest, after = e :: rest → w.slot < e.slot)
        ∧ t = { s with peer := { s.peer with view := before ++ {
            slot := w.slot, step := step, argument := w.argument, site := w.site, seen := 1, age := 0 } :: after } })
    ∧ ((∀ e, e ∈ s.peer.view → e.slot ≠ w.slot) → 16 ≤ s.peer.view.length →
      t = { s with peer := { s.peer with viewFull := min 65535 (s.peer.viewFull + 1) } }))
  ∧ (∀ (slot : Nat) (s : State), s.rests →
    let old := s.peer.view.find? (fun e => e.slot == slot)
    let u := { s with peer := { s.peer with view := s.peer.view.filter (fun e => e.slot != slot) } }
    ((∀ e, old = some e → e.age < 96) → exec (.ageOut slot) s = .next s)
    ∧ (∀ e, old = some e → 96 ≤ e.age →
      ((∀ c, c < 8 → (s.ctx c).state = .free ∨ (s.ctx c).slot ≠ slot) → exec (.ageOut slot) s = .next u)
      ∧ (∀ c, c < 8 → (s.ctx c).state ≠ .free → (s.ctx c).slot = slot →
          (∀ k, k < c → (s.ctx k).state = .free ∨ (s.ctx k).slot ≠ slot) →
          exec (.ageOut slot) s = .next (u.setCtx c { s.ctx c with peerEntry := false }))))

/-- Sections 7.3 to 7.6 and 8.6 (R116, R117, R121, R126, R145): what a context does by its state with a confirmed step. Entry to
MEASURE stops the step timer, sets the bridge timer to 0 and advertises BRIDGED; a deferral aborts with DEFERRED_DATA, its
notice and its served entry waiting for the circuit's return where the switch has been made. That an ignored step is
recorded is log entry 13 (DEDUCED); that SWITCHED in SWITCHED only makes the completion due is log entry 3 (DEDUCED). -/
def Obligations.ConfirmedStepsActByState : Prop :=
  ∀ (c : Nat) (e : ViewEntry) (s : State), c < 8 →
    let x := { s.ctx c with lastStep := some (e.step, e.argument), peerEntry := true }
    let u := s.setCtx c x
    let t := s.confirm c e
    let moves := x.state = .request ∨ x.state = .measure ∨ x.state = .allocate ∨ x.state = .walkUp ∨ x.state = .ready
      ∨ x.state = .switched
    let asks (d : Direction) : Prop := e.step = (match d with | .toFibre => .reqFibre | .toCopper => .reqCopper)
    let shows (v : State) (k : Step) (argument : Byte) : PeerExchange := { v.peer with adverts := v.peer.adverts.map (fun a =>
      if a.kind = .context c then { a with step := k, argument := argument } else a) }
    let measuring (y : Ctx) : State := { u.setCtx c { y with
      state := .measure, stepRunning := false, bridgeTimer := 0, begun := false } with peer := shows u .bridged 0 }
    (moves → e.step = .abort → e.argument = 0x0E → x.served ≠ none → t = u.defer c
      ∧ (t.ctx c).state = .aborting ∧ (t.ctx c).abortCause = some .deferredData
      ∧ t.peer.adverts = (shows s .abort 0x0E).adverts
      ∧ (x.switched = true → (t.ctx c).served = x.served ∧ (t.ctx c).returnPending = true ∧ (t.ctx c).deferred = true
        ∧ t.circuits = s.circuits ∧ t.queue = s.queue ∧ t.linkA = s.linkA ∧ t.linkB = s.linkB)
      ∧ (∀ y, x.switched = false → x.served = some y → x.parked = none → x.circuit < 480 → s.queue.length < 64 →
        t.queue = (s.reenter { y with idleOnly := true }).1.queue ∧ (t.circuit x.circuit).context = none
        ∧ (t.circuit x.circuit).lastAbort = some .deferredData))
    ∧ (moves → e.step = .abort → (e.argument ≠ 0x0E ∨ x.served = none) → t = u.abort c .peerAbort (some e.argument))
    ∧ (moves → e.step = .reject → t = u.abort c .peerReject (some e.argument))
    ∧ (x.state = .request → e.step = .bridged → t = measuring x)
    ∧ (∀ d, x.state = .request → asks d →
      (e.site < s.ownSite → t = u)
      ∧ (e.site = s.ownSite ∨ (s.ownSite < e.site ∧ x.direction ≠ d) → t = u.abort c .glare)
      ∧ (s.ownSite < e.site → x.direction = d → t = measuring { x with role := .responder }))
    ∧ (x.state = .ready → (e.step = .ready ∨ e.step = .switched) →
        t = u.setCtx c { x with switchDue := true, stepRunning := false })
    ∧ (x.state = .switched → e.step = .switched → t = u ∧ (t.ctx c).completionDue = true)
    ∧ ((x.state = .free ∨ x.state = .aborting ∨ e.step = .digest
        ∨ (x.state ≠ .request ∧ (e.step = .bridged ∨ e.step = .reqFibre ∨ e.step = .reqCopper))
        ∨ (x.state ≠ .ready ∧ x.state ≠ .switched ∧ (e.step = .ready ∨ e.step = .switched))
        ∨ (x.state = .switched ∧ e.step = .ready)) → t = u)

/-- Sections 7.4 and 8.3 to 8.5 (R118, R141, R142, R144): a confirmed step for a slot that no context holds. A request is judged
by seven checks in order and accepted into the lowest free context, which advertises BRIDGED, with an ADMITTED notice of
its number plus 8; a stale step draws an ABORT linger. Where the slot is live the attempt, or READY under FORCED, follows
by the event ATTEMPT_START at once (log entry 3). -/
def Obligations.PeerStepsAreAnswered : Prop :=
  ∀ (slot : Nat) (s : State),
    let linger (k : Step) (argument : Byte) : State := { s with peer := { s.peer.make {
        kind := .linger 32 s.peer.serial, slot := slot, step := k, argument := argument } with
      serial := s.peer.serial + 1 } }
    let stands (q : Step → Prop) : Prop := ∃ a n k, a ∈ s.peer.adverts ∧ a.kind = .linger n k ∧ a.slot = slot ∧ q a.step
    (∀ k, (k = .bridged ∨ k = .ready ∨ k = .switched) →
      (stands (fun _ => True) → s.answerStep slot k = s) ∧ (¬ stands (fun _ => True) →
        s.answerStep slot k = linger .abort 0x10))
    ∧ (∀ k, (k = .abort ∨ k = .reject ∨ k = .digest) → s.answerStep slot k = s)
    ∧ ∀ d : Direction,
      let k := match d with | .toFibre => Step.reqFibre | .toCopper => Step.reqCopper
      (stands (fun q => q = .abort) → s.answerStep slot k = s)
      ∧ (¬ stands (fun q => q = .abort) →
        (s.boundTo slot = none → s.answerStep slot k = linger .reject 0x20)
        ∧ ∀ n, s.boundTo slot = some n → n < 480 →
          let c := s.circuit n
          let g := s.group c.group
          let ready := c.equipped = true ∧ (s.span (n / 30)).state = .inserted
          let unheld := c.held = false ∧ g.frozen = false ∧ (d = .toFibre → g.lockedOut = false)
          let fits := (d = .toFibre ∧ (c.state = .copper ∨ c.state = .reverted))
            ∨ (d = .toCopper ∧ c.state = .fibreProtected)
          (¬ ready → s.answerStep slot k = linger .reject 0x21)
          ∧ (ready → ¬ unheld → s.answerStep slot k = linger .reject 0x22)
          ∧ (ready → unheld → (¬ fits ∨ c.residual ≠ 0) → s.answerStep slot k = linger .reject 0x23)
          ∧ (ready → unheld → fits → c.residual = 0 → s.halted = true → s.answerStep slot k = linger .reject 0x24)
          ∧ (ready → unheld → fits → c.residual = 0 → s.halted = false → (∀ j, j < 8 → (s.ctx j).state ≠ .free) →
            s.answerStep slot k = linger .reject 0x10)
          ∧ ∀ j, ready → unheld → fits → c.residual = 0 → s.halted = false → j < 8 → (s.ctx j).state = .free →
            (∀ i, i < j → (s.ctx i).state ≠ .free) →
            let t := s.answerStep slot k
            (t.ctx j).state = .measure ∧ (t.ctx j).role = .responder ∧ (t.ctx j).direction = d
            ∧ (t.ctx j).circuit = n ∧ (t.ctx j).slot = slot ∧ (t.ctx j).origin = c.state ∧ (t.ctx j).policy = g.policy
            ∧ (t.ctx j).lastStep = none ∧ (t.ctx j).bridgeTimer = 0 ∧ (t.ctx j).stepRunning = false
            ∧ (t.circuit n).state = .migrating ∧ (t.circuit n).context = some j ∧ (t.circuit n).transmit = .both
            ∧ (t.circuit n).receive = c.receive
            ∧ t.queue = s.queue.filter (fun e => e.circuit != n)
            ∧ (∀ e, s.queue.find? (fun e => e.circuit == n) = some e →
                if e.direction = d then (t.ctx j).served = some e ∧ (t.ctx j).parked = none
                else (t.ctx j).served = none ∧ (t.ctx j).parked = some e)
            ∧ (∀ i, i ≠ j → t.ctx i = s.ctx i) ∧ (∀ m, m ≠ n → t.circuit m = s.circuit m)
            ∧ (let p := s.peer.make { kind := .context j, slot := slot, step := .bridged, argument := 0 }
              t.peer = { p with adverts := p.adverts.map (fun a =>
                if a.kind = .context j then { a with step := .bridged, argument := 0 } else a) })
            ∧ (t.wantsConditioning n = c.conditioned → ∀ l, t.link l = (s.link l).offer s.stamp {
                cls := .admitted, subject := some (.circuit n), cause := none
                value := some (BitVec.ofNat 16 (j + 8)) }))

/-- Section 8.2 (R135, R136, R137): entries keep their places; one that leaves takes nothing else with it and the
rotation goes on naming the same thing; a new entry takes its slot's linger's place or the end. A linger of count 0
expires. -/
def Obligations.AdvertisementsKeepTheirPlaces : Prop :=
  (∀ (i : Nat) (p : PeerExchange), i < p.adverts.length →
    let q := p.removeAt i
    q.adverts = p.adverts.take i ++ p.adverts.drop (i + 1)
    ∧ (p.position = none → q.position = none)
    ∧ (∀ k a, p.position = some k → k ≠ i → p.adverts[k]? = some a → ∃ j, q.position = some j ∧ q.adverts[j]? = some a)
    ∧ (p.position = some i → ∀ a, p.adverts[i + 1]? = some a → q.position = some i ∧ q.adverts[i]? = some a)
    ∧ (p.position = some i → p.adverts[i + 1]? = none → q.position = none))
  ∧ (∀ (a : Advert) (p : PeerExchange),
    let same (x : Advert) : Prop := x.slot = a.slot ∧ ∃ n k, x.kind = .linger n k
    (∀ before x after, p.adverts = before ++ x :: after → same x → (∀ y, y ∈ before → ¬ same y) →
      p.make a = { p with adverts := before ++ a :: after })
    ∧ ((∀ x, x ∈ p.adverts → ¬ same x) → p.adverts.length < 16 → p.make a = { p with adverts := p.adverts ++ [a] })
    ∧ (∀ i n k x, (∀ y, y ∈ p.adverts → ¬ same y) → 16 ≤ p.adverts.length → p.adverts[i]? = some x →
      x.kind = .linger n k →
      (∀ j m o y, p.adverts[j]? = some y → y.kind = .linger m o → k < o ∨ (k = o ∧ i ≤ j)) →
      p.make a = { p.removeAt i with adverts := (p.removeAt i).adverts ++ [a] }))
  ∧ (∀ p : PeerExchange, p.nextPosition = match p.position with
    | none => if p.adverts = [] then none else some 0
    | some k => if k + 1 < p.adverts.length then some (k + 1) else none)
  ∧ (∀ (slot : Nat) (s : State), s.rests → BoundaryEvent.lingerExpiry slot ∈ s.owed →
    let u := { s with owed := s.owed.filter (fun e => e != BoundaryEvent.lingerExpiry slot) }
    let ended (a : Advert) : Prop := a.slot = slot ∧ ∃ k, a.kind = .linger 0 k
    ((∀ a, a ∈ s.peer.adverts → ¬ ended a) → exec (.lingerExpiry slot) s = .next u)
    ∧ ∀ before a after, s.peer.adverts = before ++ a :: after → ended a → (∀ y, y ∈ before → ¬ ended y) →
      exec (.lingerExpiry slot) s = .next { u with peer := s.peer.removeAt before.length })

/-! ### Faults and reversion (chapter 9) -/

/-- Sections 7.6, 9.1, 9.3 and 9.6 (R127, R151, R153, R157, R158, R164): a declaration makes an enabled record live and latched,
with a FAULT_SET notice; with ABORT it then ends, in ascending number, every busy context not in ABORTING that it reaches:
all of them for a port kind, those of the span's circuits for a span kind; with REVERT it pends a revert and zeroes the
fibre health; conditioning is evaluated last (log entry 16). A clearing ends live only; where a span's COPPER_LOS ceases to
be live it pends a revert for the first port kind live with REVERT. A disabled record keeps nothing but the declared
status. -/
def Obligations.FaultsAreDeclaredAndCleared : Prop :=
  (∀ (k : FaultKind) (x : Nat) (s : State), x < 16 →
    let r := s.fault k x
    let subject := Subject.fault k (if k.isPort then 0x40 else x)
    let told (cls : NoticeClass) (new : FaultRecord) : State :=
      (s.setFault k x new).raise { cls := cls, subject := some subject, cause := none, value := none }
    let pends (v : State) (j : FaultKind) : State :=
      { v with faults := { v.faults with revertPending := some (v.faults.revertPending.getD j) } }
    let reverting (j : FaultKind) : Prop :=
      (s.fault j 0).enabled = true ∧ (s.fault j 0).live = true ∧ (s.fault j 0).actions.revert = true
    let conditioned (v : State) : State := v.reconditionAll (match k with
      | .fibreLos => List.range 480
      | .copperLos => (List.range 30).map (30 * x + ·)
      | _ => [])
    (r.enabled = false → s.declare k x = s.setFault k x { r with declared := true }
      ∧ s.clearFault k x = s.setFault k x { r with declared := false })
    ∧ (r.enabled = true →
      let t := s.declare k x
      t.fault k x = { r with declared := true, live := true, latched := true }
      ∧ (∀ j y, j ≠ k ∨ (k.isPort = false ∧ y ≠ x) → y < 16 → t.fault j y = s.fault j y)
      ∧ t.faults.revertPending = (if r.actions.revert = true ∧ s.faults.revertPending = none then some k
          else s.faults.revertPending)
      ∧ t.faults.health = (if r.actions.revert then 0 else s.faults.health)
      ∧ (r.actions.abort = false → k ≠ .fibreLos → k ≠ .copperLos →
          t = { told .faultSet { r with declared := true, live := true, latched := true } with faults := t.faults })
      ∧ (let set := told .faultSet { r with declared := true, live := true, latched := true }
        let ended := if r.actions.abort then (List.range 8).foldl (fun v c =>
            if (v.ctx c).state ≠ .free ∧ (v.ctx c).state ≠ .aborting ∧ (k.isPort = true ∨ (v.ctx c).circuit / 30 = x) then
              v.faultEnds k c
            else v) set else set
        t = conditioned (if r.actions.revert then
          { pends ended k with faults := { (pends ended k).faults with health := 0 } } else ended))
      ∧ let u := s.clearFault k x
        let cleared := told .faultClear { r with declared := false, live := false }
        u.fault k x = { r with declared := false, live := false }
        ∧ (k ≠ .copperLos → u = conditioned cleared)
        ∧ (k = .copperLos →
          ((∀ j, j.isPort = true → ¬ reverting j) → u = conditioned cleared)
          ∧ ∀ j, j.isPort = true → reverting j → (∀ i, i.isPort = true → i.code < j.code → ¬ reverting i) →
            u = conditioned (pends cleared j))))
  ∧ (∀ (k : FaultKind) (c n : Nat) (s : State), c < 8 → n < 480 → (s.ctx c).circuit = n → (s.ctx c).state ≠ .free →
    (s.ctx c).state ≠ .aborting →
    let toFibre := (s.ctx c).direction = .toFibre
    (toFibre → k = .fibreLos ∨ k = .fibreErr → s.faultEnds k c = s.abort c .fibreFault)
    ∧ (toFibre → k = .peerSilent → s.faultEnds k c = s.abort c .peerSilent)
    ∧ (k = .copperLos ∨ k = .switchLos →
        s.faultEnds k c = if toFibre ∧ (s.ctx c).state = .switched then s else s.abort c .copperFault)
    ∧ (k = .mapMismatch ∨ k = .siteClash ∨ k = .markerLoss → s.faultEnds k c = s)
    ∧ (¬ toFibre → k = .fibreLos ∨ k = .fibreErr ∨ k = .peerSilent →
      let t := s.faultEnds k c
      let new := t.circuit n
      new.state = .copper ∧ new.receive = .copper ∧ new.transmit = .copper ∧ new.context = none
      ∧ new.lastAbort = some .fibreFault ∧ new.residual = 0 ∧ new.cellsHeld = 0
      ∧ new.delay .copper = 0 ∧ new.delay .fibre = 0
      ∧ t.pool.free = s.pool.free + (s.ctx c).cells + (s.circuit n).cellsHeld
      ∧ (t.ctx c).state = .aborting ∧ (t.ctx c).abortCause = some .fibreFault ∧ (t.ctx c).returnPending = false
      ∧ (t.ctx c).served = none ∧ (t.ctx c).cells = 0
      ∧ t.queue = (s.reenterParked (s.ctx c).parked).queue
      ∧ (∀ m, m ≠ n → t.circuit m = s.circuit m)))

/-- Section 9.2 (R154, R155): SET_FAULT_POLICY and CLEAR_FAULT in full: the records named are taken one by one in ascending
span, which orders their notices by the model's choice (log entry 15, DESIGN CHOICE), and no other record changes. A policy that enables a record whose condition is declared makes it live, with all
that a declaration does; one that disables a live record ends live and latched, and for COPPER_LOS tests the reverts
(R158); REVERT added to a live record zeroes the fibre health; the conditioning of the circuits concerned is evaluated. The
answer holds each record as it then stands. An action the kind does not permit writes nothing. CLEAR_FAULT clears the latched field of
each record named that is not live and answers the number cleared, with STILL_PRESENT where one is live. The answers'
bytes are log entry 17. -/
def Obligations.FaultRecordsAreSetAndCleared : Prop :=
  ∀ (code scope : Nat) (k : FaultKind) (s : State), s.faultsLawful → readKind code = some k →
    ((k.isPort = true ∧ scope = 0x40) ∨ (k.isPort = false ∧ (scope < 16 ∨ scope = 0xFF))) →
    let targets : List Nat := if k.isPort then [0] else if scope = 0xFF then List.range 16 else [scope]
    let named (x : Nat) : Prop := x < 16 ∧ (k.isPort = true ∨ scope = 0xFF ∨ x = scope)
    (∀ (enabled actions : Nat) (on : Bool) (acts : Actions),
      s.hears .b (.setFaultPolicy .b code scope enabled actions) → readBool enabled = some on →
      readActions actions = some acts →
      let conditioned (x : Nat) (v : State) : State := v.reconditionAll (match k with
        | .fibreLos => List.range 480
        | .copperLos => (List.range 30).map (30 * x + ·)
        | _ => [])
      let reverts (v : State) : State :=
        match [FaultKind.fibreLos, .fibreErr, .peerSilent, .mapMismatch, .siteClash].find? (fun j =>
          (v.fault j 0).enabled && (v.fault j 0).live && (v.fault j 0).actions.revert) with
        | some j => { v with faults := { v.faults with revertPending := some (v.faults.revertPending.getD j) } }
        | none => v
      let write (v : State) (x : Nat) : State :=
        let r := v.fault k x
        let w := v.setFault k x { r with enabled := on, actions := acts, live := r.live && on, latched := r.latched && on }
        if on = true ∧ r.enabled = false then (if r.declared then w.declare k x else w)
        else if on then conditioned x (
          if r.live = true ∧ acts.revert = true ∧ r.actions.revert = false then
            { w with faults := { w.faults with health := 0 } }
          else w)
        else conditioned x (if k = .copperLos ∧ r.enabled = true ∧ r.live = true then reverts w else w)
      let t := targets.foldl write s
      (acts.within k.permitted = false →
        exec (.setFaultPolicy .b code scope enabled actions) s = .next (s.replied .b .badParam []))
      ∧ (acts.within k.permitted = true →
        exec (.setFaultPolicy .b code scope enabled actions) s = .next (t.replied .b .ok (targets.flatMap (fun x =>
          let r := t.fault k x
          [if r.enabled then 1 else 0, BitVec.ofNat 8 actions, if r.live then 1 else 0, if r.latched then 1 else 0])))
        ∧ (∀ x, named x →
          let r := s.fault k x
          t.fault k x = {
            enabled := on, actions := acts, declared := r.declared
            live := on && (if r.enabled then r.live else r.declared)
            latched := on && (if r.enabled then r.latched else r.declared) })
        ∧ (∀ j y, y < 16 → (j ≠ k ∨ ¬ named y) → t.fault j y = s.fault j y)))
    ∧ (∀ l : Link, s.hears l (.clearFault l code scope) →
      let t := targets.foldl (fun v x =>
        if (v.fault k x).live then v else v.setFault k x { v.fault k x with latched := false }) s
      exec (.clearFault l code scope) s = .next (t.replied l
        (if targets.any (fun x => (s.fault k x).live) then .stillPresent else .ok)
        [BitVec.ofNat 8 (targets.filter (fun x => !(s.fault k x).live && (s.fault k x).latched)).length])
      ∧ (∀ x, named x → t.fault k x = { s.fault k x with
          latched := (s.fault k x).live && (s.fault k x).latched })
      ∧ (∀ j y, y < 16 → (j ≠ k ∨ ¬ named y) → t.fault j y = s.fault j y)
      ∧ t = { s with faults := { s.faults with records := t.faults.records } })

/-- Sections 9.3 and 9.4 (R157 to R160): a pending revert takes every FIBRE_PROTECTED circuit whose copper is not lost,
drops its residual, raises a REVERTED notice for each in ascending number with the pending cause and the cells returned, and
counts each of its groups once; a group that meets its limit is locked out, with a LOCKOUT notice of its count; that several
groups' notices stand in ascending group number is the model's choice (log entry 15, DESIGN CHOICE). -/
def Obligations.RevertsReturnCircuitsToCopper : Prop :=
  ∀ (k : FaultKind) (s : State), s.rests → BoundaryEvent.revert ∈ s.owed → s.faults.revertPending = some k →
    let taken (n : Nat) : Bool := (s.circuit n).state == .fibreProtected
      && !((s.fault .copperLos (n / 30)).enabled && (s.fault .copperLos (n / 30)).live)
    ∃ t : State, exec .revert s = .next t
      ∧ t.faults = { s.faults with revertPending := none }
      ∧ (∀ n, n < 480 →
        let old := s.circuit n
        let new := t.circuit n
        let out := (t.group old.group).lockedOut
        (taken n = true → new.state = (if out then .locked else .reverted) ∧ new.receive = .copper
          ∧ new.transmit = .both ∧ new.residual = 0 ∧ new.cellsHeld = 0 ∧ new.delay .fibre = 0
          ∧ new.conditioned = false)
        ∧ (taken n = false → new = { old with state :=
            if old.state = .reverted ∧ out = true ∧ (s.group old.group).lockedOut = false then .locked
            else old.state }))
      ∧ (∀ g, g < 16 →
        let old := s.group g
        let new := t.group g
        let count := if old.revertCount < 15 then old.revertCount + 1 else old.revertCount
        ((∃ n, n < 480 ∧ taken n = true ∧ (s.circuit n).group = g) →
          new.revertCount = count
          ∧ new.windowTimer = (if old.revertCount < 15 ∧ old.windowTimer = none then some old.lockoutWindow
              else old.windowTimer)
          ∧ new.lockedOut = (old.lockedOut || decide (old.lockoutLimit ≠ 0 ∧ old.lockoutLimit ≤ count)))
        ∧ ((∀ n, n < 480 → taken n = true → (s.circuit n).group ≠ g) → new = old))
      ∧ t.pool = { s.pool with
          free := s.pool.free + sumOf (((List.range 480).filter taken).map (fun n => (s.circuit n).cellsHeld)) }
      ∧ t.queue = s.queue ∧ t.contexts = s.contexts
      ∧ (∀ l, t.link l = ((List.range 16).filter (fun g => (t.group g).lockedOut && !(s.group g).lockedOut)).foldl
          (fun j g => j.offer s.stamp { cls := .lockout, subject := some (.group g), cause := none
                                        value := some (BitVec.ofNat 16 (t.group g).revertCount) })
          (((List.range 480).filter taken).foldl
            (fun j n => j.offer s.stamp { cls := .reverted, subject := some (.circuit n), cause := some (.faultOf k)
                                          value := some (BitVec.ofNat 16 (s.circuit n).cellsHeld) })
            (s.link l)))

/-- Sections 9.4 and 9.5 (R159, R162, R163): a slow tick moves the window timers and the fibre-health count and queues
the REVERTED circuits of qualifying groups, each with an AUTO_QUEUED notice of the position it takes; a window that expires
clears its group's count; that its timer stands at 1 until then is log entry 35 (DESIGN CHOICE). -/
def Obligations.SlowTicksReturnCircuitsToFibre : Prop :=
  (∀ s : State, s.rests → BoundaryEvent.slowTick ∈ s.owed →
    let faulty := ∃ k, k.isPort = true ∧ (s.fault k 0).enabled = true ∧ (s.fault k 0).live = true
      ∧ (s.fault k 0).actions.revert = true
    let joins (health n : Nat) : Bool :=
      let g := s.group (s.circuit n).group
      (s.circuit n).state == .reverted && s.queue.all (fun e => e.circuit != n)
        && g.autoReturn && !g.lockedOut && decide (g.recoveryHold ≤ health)
    ∃ t : State, exec .slowTick s = .next t
      ∧ (faulty → t.faults.health = 0) ∧ (¬ faulty → t.faults.health = min 255 (s.faults.health + 1))
      ∧ t.faults = { s.faults with health := t.faults.health }
      ∧ (∀ g, g < 16 → t.group g = { s.group g with windowTimer := match (s.group g).windowTimer with
          | some k => if k ≤ 1 then some k else some (k - 1)
          | none => none })
      ∧ (∀ g, g < 16 → (∃ k, (s.group g).windowTimer = some k ∧ k ≤ 1) → BoundaryEvent.windowExpiry g ∈ t.owed)
      ∧ t.queue = s.queue ++ (((List.range 480).filter (joins t.faults.health)).take (64 - s.queue.length)).map (fun n =>
          { circuit := n, direction := .toFibre, origin := .auto, idleOnly := false, stamp := s.stamp })
      ∧ (∀ l, t.link l = (t.queue.zipIdx.drop s.queue.length).foldl (fun j e => j.offer s.stamp {
          cls := .autoQueued, subject := some (.circuit e.1.circuit), cause := none
          value := some (BitVec.ofNat 16 e.2) }) (s.link l))
      ∧ t = { s with
          groups := t.groups, faults := t.faults, queue := t.queue, owed := t.owed, linkA := t.linkA, linkB := t.linkB })
  ∧ (∀ (g : Nat) (s : State), s.rests → BoundaryEvent.windowExpiry g ∈ s.owed →
    exec (.windowExpiry g) s = .next (State.setGroup
      { s with owed := s.owed.filter (fun e => e != BoundaryEvent.windowExpiry g) } g
      { s.group g with revertCount := 0, windowTimer := none }))

/-- Sections 9.4 and 9.7 (CLEAR_LOCKOUT, COMMIT, UNCOMMIT): a cleared group starts counting afresh and its LOCKED
circuits are REVERTED; COMMIT releases the copper standby of a protected circuit and UNCOMMIT restores it. -/
def Obligations.LockoutAndStandbyAreReleased : Prop :=
  (∀ (target : Nat) (s : State), s.hears .b (.clearLockout .b target) → (target < 16 ∨ target = 0xFF) →
    let aims (g : Nat) : Bool := decide (g < 16) && (target == 0xFF || g == target)
    ∃ t : State, exec (.clearLockout .b target) s = .next (t.replied .b .ok (u16 ((List.range 480).countP (fun n =>
        (s.circuit n).state == .locked && aims (s.circuit n).group))))
      ∧ (∀ g, g < 16 → t.group g = if aims g then
          { s.group g with lockedOut := false, revertCount := 0, windowTimer := none } else s.group g)
      ∧ (∀ n, n < 480 → t.circuit n = if (s.circuit n).state = .locked ∧ aims (s.circuit n).group = true then
          { s.circuit n with state := .reverted } else s.circuit n)
      ∧ t = { s with groups := t.groups, circuits := t.circuits, owed := t.owed })
  ∧ (∀ (n : Nat) (s : State), s.hears .b (.commit .b n) → n < 480 →
    exec (.commit .b n) s = .next (
      if (s.circuit n).state ≠ .fibreProtected ∨ s.queued n = true then s.replied .b .refusedState []
      else ((s.setCircuit n { s.circuit n with
          state := .fibreOnly, receive := .fibre, transmit := .fibre }).recondition n).replied .b .ok []))
  ∧ (∀ (n : Nat) (s : State), s.hears .b (.uncommit .b n) → n < 480 →
    exec (.uncommit .b n) s = .next (
      if (s.circuit n).state ≠ .fibreOnly then s.replied .b .refusedState []
      else ((s.setCircuit n { s.circuit n with
          state := .fibreProtected, receive := .fibre, transmit := .both }).recondition n).replied .b .ok []))

/-! ### Control links and notices (chapters 10 and 11) -/

/-- Sections 10.2 to 10.4 (R169, R170, R171, R174): what the line events make of a link's record while no complete frame
and no command handed over waits on it. A line reset of link B also cancels the answer of a pending apply. -/
def Obligations.LineEventsFollowTheReceiveState : Prop :=
  ∀ (l : Link) (s : State), s.rests →
    let k := s.link l
    k.handed = none → ¬ (3 ≤ k.buffer.length ∧ k.buffer.length = (k.buffer.getD 2 0).toNat + 5) →
    let abandoned : LinkRec := { k with rx := .hunt, buffer := [], framingErrors := min 65535 (k.framingErrors + 1) }
    let assembling := k.rx = .hunt ∨ k.rx = .inFrame
    let bits (b : Byte) : List Bool := [b.getLsbD 0, b.getLsbD 1, b.getLsbD 2, b.getLsbD 3, b.getLsbD 4, b.getLsbD 5,
      b.getLsbD 6, b.getLsbD 7]
    (∀ r : Response, r.bits = r.bytes.flatMap (fun b => [false] ++ bits b ++ [true]))
    ∧ (∀ b : Byte, exec (.character l (bits b)) s = .next (
      if k.rx = .hunt ∧ 128 ≤ b.toNat ∧ b.toNat < 192 then s.setLink l { k with rx := .inFrame, buffer := [b] }
      else if k.rx = .inFrame ∧ k.buffer.length = 2 ∧ 40 < b.toNat then s.setLink l abandoned
      else if k.rx = .inFrame then s.setLink l { k with buffer := k.buffer ++ [b] }
      else s))
    ∧ exec (.characterError l) s = .next (if assembling then s.setLink l abandoned else s)
    ∧ exec (.interByteTimeout l) s = .next (if k.rx = .inFrame then s.setLink l abandoned else s)
    ∧ exec (.responseSent l) s = .next (
      if k.response = none then s
      else s.setLink l { k with response := none, rx := if k.rx = .answering then .hunt else k.rx })
    ∧ (∀ t : State, t = s.setLink l { k with rx := .syncWait, rate := none, buffer := [], response := none } →
      exec (.lineReset l) s = .next (
        match l with | .a => t | .b => { t with map := { s.map with applyAnswer := false } }))
    ∧ ∀ (rate : Nat) (sampled : Byte) (stop : Bool),
      let good := 19200 ≤ rate ∧ rate ≤ 1000000 ∧ sampled = 0xC3 ∧ stop = true
      exec (.syncCharacter l rate (bits sampled) stop) s = .next (
        if k.rx ≠ .syncWait then s
        else if good then s.setLink l { k with
          rate := some rate, rx := if l = .b ∧ s.map.applyPending = true then .answering else .hunt }
        else s.setLink l { k with rx := .unsynced, framingErrors := min 65535 (k.framingErrors + 1) })

/-- Sections 10.3 and 12.3: a good frame that carries a well-formed command of the catalogue to the part's own address
refreshes the watchdog and hands over exactly that command; from the wrong role it draws NOT_PERMITTED. -/
def Obligations.CommandFramesHandOverTheirCommand : Prop :=
  ∀ (i : Instr) (l : Link) (role : CommandRole) (code : Nat) (parameters : List Byte) (s : State),
    i.wellFormed = true → sentCommand i = some (l, role, code, parameters) → s.rests → s.ownAddress < 63 →
    (s.link l).buffer = commandBytes s.ownAddress code parameters →
    let u := s.refreshed l { s.link l with rx := .hunt, buffer := [] }
    parameters.length ≤ 40
    ∧ (role.permits l = true →
      exec (.commandFrame l) s = .next (u.setLink l { u.link l with rx := .answering, handed := some i }))
    ∧ (role.permits l = false →
      exec (.commandFrame l) s = .next (u.setLink l { u.link l with
        rx := .answering, response := some (u.responseTo l .notPermitted []) }))

/-- Sections 10.3 and 10.4 (R171, R172, R173): the frames that carry no command to the part: one that is not complete,
one with a bad check, one for another address, a broadcast, an unknown code, a wrong length. -/
def Obligations.OtherFramesAreJudged : Prop :=
  ∀ (l : Link) (s : State), s.rests →
    let k := s.link l
    let b (i : Nat) : Nat := (k.buffer.getD i 0).toNat
    let complete := 3 ≤ k.buffer.length ∧ k.buffer.length = b 2 + 5
    let body := k.buffer.take (b 2 + 3)
    let check := (crc16 body).toNat = 256 * b (b 2 + 3) + b (b 2 + 4)
    let emptied : LinkRec := { k with rx := .hunt, buffer := [] }
    let u := s.refreshed l emptied
    let refused (st : Status) : State :=
      u.setLink l { u.link l with rx := .answering, response := some (u.responseTo l st []) }
    let known := 0x80 ≤ b 0 ∧ b 0 ≤ 0xAB
    (¬ complete → exec (.commandFrame l) s = .next s)
    ∧ (complete → ¬ check → exec (.commandFrame l) s
        = .next (s.setLink l { emptied with crcErrors := min 65535 (k.crcErrors + 1) }))
    ∧ (complete → check →
      (b 1 ≠ 63 → b 1 ≠ s.ownAddress → exec (.commandFrame l) s = .next (s.setLink l emptied))
      ∧ (b 1 = 63 →
        ((b 0 ≠ 0x86 ∧ b 0 ≠ 0x87 ∧ b 0 ≠ 0xAB) ∨ ((b 0 = 0x86 ∨ b 0 = 0x87) ∧ (l = .b ∨ b 2 ≠ 1 ∨ (16 ≤ b 3 ∧ b 3 ≠ 0xFF))) →
          exec (.commandFrame l) s = .next u)
        ∧ ((b 0 = 0x86 ∨ b 0 = 0x87) → l = .a → b 2 = 1 → (b 3 < 16 ∨ b 3 = 0xFF) → ∃ t : State,
          exec (.commandFrame l) s = .next t ∧ t = { u with groups := t.groups }
          ∧ ∀ g, g < 16 → t.group g =
              if b 3 = 0xFF ∨ g = b 3 then { s.group g with frozen := decide (b 0 = 0x86) } else s.group g)
        ∧ (b 0 = 0xAB → (b 2 ≠ 19 ∨ ∃ i, i < 18 ∧ 4 ≤ b (3 + i)) → exec (.commandFrame l) s = .next u)
        ∧ (b 0 = 0xAB → b 2 = 19 → (∀ i, i < 18 → b (3 + i) < 4) → ∃ t : State, exec (.commandFrame l) s = .next t
          ∧ (∀ i, i < 18 → Table.at (t.link l).levels 0 i = b (3 + i))
          ∧ t = u.setLink l { u.link l with
              levels := (t.link l).levels, threshold := max 1 (min 3 (b 21))
              attention := (u.link l).overflow
                || (u.link l).notices.any (fun x => decide (max 1 (min 3 (b 21)) ≤ x.level)) }))
      ∧ (b 1 = s.ownAddress → b 1 ≠ 63 →
        (¬ known → exec (.commandFrame l) s = .next (refused .badCommand))
        ∧ (∀ role length i, catalogue l (body.drop 3) (b 0) = some (role, length, i) → role.permits l = true →
          b 2 ≠ length → exec (.commandFrame l) s = .next (refused .badParam))))

/-- Sections 10.3 to 10.6 (R173, R174, R175): a command from a link without its role, or with a parameter out of range,
is answered and changes nothing but its link; one that reaches a link that does not take it, or a part strapped to 63
(R178), is lost (log entry 26). -/
def Obligations.RefusedCommandsChangeNothing : Prop :=
  (∀ (i : Instr) (l : Link) (role : CommandRole) (code : Nat) (parameters : List Byte) (s : State),
    sentCommand i = some (l, role, code, parameters) →
    (s.hears l i → role.permits l = false → exec i s = .next (s.replied l .notPermitted []))
    ∧ (s.powered = true → s.quiet = true → (s.link l).handed ≠ some i →
        ((s.link l).handed ≠ none ∨ (s.link l).rx = .answering ∨ (s.link l).rx = .unsynced ∨ (s.link l).rx = .syncWait
          ∨ (l = .b ∧ s.map.applyPending = true)) →
        exec i s = .next s)
    ∧ (s.powered = true → s.quiet = true → s.ownAddress = 63 → exec i s = .next s))
  ∧ ∀ s : State,
    let bad (l : Link) (i : Instr) (p : Prop) : Prop := s.hears l i → p → exec i s = .next (s.replied l .badParam [])
    let target (g : Nat) : Prop := g < 16 ∨ g = 0xFF
    let scope (k x : Nat) : Prop := (k < 5 ∧ x = 0x40) ∨ (5 ≤ k ∧ k < 8 ∧ (x < 16 ∨ x = 0xFF))
    (∀ n g c, bad .a (.equip .a n g c) (480 ≤ n ∨ 16 ≤ g ∨ 2 ≤ c))
    ∧ (∀ n, bad .a (.unequip .a n) (480 ≤ n) ∧ bad .a (.hold .a n) (480 ≤ n) ∧ bad .a (.unhold .a n) (480 ≤ n)
      ∧ bad .b (.commit .b n) (480 ≤ n) ∧ bad .b (.uncommit .b n) (480 ≤ n))
    ∧ (∀ n c, bad .a (.setClass .a n c) (480 ≤ n ∨ 2 ≤ c) ∧ bad .a (.setGroup .a n c) (480 ≤ n ∨ 16 ≤ c)
      ∧ bad .b (.request .b n c) (480 ≤ n ∨ 2 ≤ c))
    ∧ (∀ g, bad .a (.freeze .a g) (¬ target g) ∧ bad .a (.thaw .a g) (¬ target g)
      ∧ bad .b (.clearLockout .b g) (¬ target g))
    ∧ (∀ g p a h m w, bad .b (.setMigration .b g p a h m w) (¬ target g ∨ 3 ≤ p ∨ 2 ≤ a))
    ∧ (∀ g i z a b x y c q, bad .a (.setSignalling .a g i z a b x y c q)
      (¬ target g ∨ 15 ≤ i ∨ 15 ≤ z ∨ 15 ≤ a ∨ 15 ≤ b ∨ 15 ≤ c ∨ 8 ≤ x ∨ 8 ≤ y ∨ ¬ [i, z, a, b].Nodup))
    ∧ (∀ x m, bad .a (.insertSpan .a x m) (16 ≤ x ∨ 2 ≤ m) ∧ bad .a (.bypassSpan .a x m) (16 ≤ x ∨ 2 ≤ m)
      ∧ bad .a (.cancelSpan .a x) (16 ≤ x))
    ∧ (∀ a b t u, bad .b (.setAdmission .b a b t u) (2 ≤ a ∨ 2 ≤ b))
    ∧ (∀ k x e a, bad .b (.setFaultPolicy .b k x e a) (¬ scope k x ∨ 2 ≤ e ∨ 16 ≤ a))
    ∧ ∀ l : Link,
      (∀ k x, bad l (.clearFault l k x) (¬ scope k x))
      ∧ (∀ f n, bad l (.readCircuits l f n) (480 ≤ f ∨ n = 0) ∧ bad l (.readMap l f n) (512 ≤ f ∨ n = 0)
        ∧ bad l (.readQueue l f n) (64 ≤ f ∨ n = 0))
      ∧ (∀ n, bad l (.readGroup l n) (16 ≤ n) ∧ bad l (.readSpan l n) (16 ≤ n) ∧ bad l (.readContext l n) (8 ≤ n)
        ∧ bad l (.readPeer l n) (2 ≤ n) ∧ bad l (.readCounters l n) (2 ≤ n) ∧ bad l (.takeNotices l n) (n = 0))
      ∧ ∀ (v : List Nat) (t : Nat), bad l (.setNoticeLevels l v t) (v.length ≠ 18 ∨ ∃ n, n ∈ v ∧ 4 ≤ n)

/-- Section 10.5 (R176, R177): KEEPALIVE answers OK, and brought to its block without a frame it refreshes the watchdog
as its frame would (log entry 6); a link whose count has reached its strap's timeout becomes SILENT at the boundary, also
where a good frame of the same superframe follows it (`State.refreshed`, Safety.lean). -/
def Obligations.WatchdogsHearTheirControllers : Prop :=
  ∀ (l : Link) (s : State),
    let k := s.link l
    let told (t : State) (cls : NoticeClass) : State := t.raise {
      cls := cls, subject := none, cause := none, value := some (match l with | .a => 0 | .b => 1) }
    let without : State := { s with owed := s.owed.filter (fun e => e != BoundaryEvent.linkSilent l) }
    (s.hears l (.keepalive l) → exec (.keepalive l) s = .next (State.replied (
      if k.handed ≠ none then s else s.refreshed l k) l .ok []))
    ∧ (s.rests → BoundaryEvent.linkSilent l ∈ s.owed →
      let timeout : Option Nat := if s.watchdogStrap = 1 then some 1000 else if s.watchdogStrap = 2 then some 4000
        else if s.watchdogStrap = 3 then some 16000 else none
      let due := k.alive = true ∧ ∃ t c, timeout = some t ∧ k.watchdog = some c ∧ t ≤ c
      (due → exec (.linkSilent l) s = .next (told (without.setLink l { k with alive := false }) .linkSilent))
      ∧ (¬ due → exec (.linkSilent l) s = .next without))

/-- Sections 11.3 to 11.6 (R182, R184 to R187): an event is offered to both links by their own levels and numbers; a
full queue loses it and sets the overflow mark; TAKE_NOTICES removes the oldest, SET_NOTICE_LEVELS writes the table. That a
set overflow mark is sent as 1 is log entry 17 (DEDUCED). -/
def Obligations.NoticesAreQueuedAndTaken : Prop :=
  (∀ (e : Event) (s : State), let t := s.raise e
    t = { s with linkA := t.linkA, linkB := t.linkB }
    ∧ ∀ l : Link,
      let k := s.link l
      let level := Table.at k.levels 0 e.cls.code
      let new : Notice := { sequence := k.nextSequence, cls := e.cls, level := level, stamp := s.stamp
                            subject := e.subject, cause := e.cause, value := e.value }
      (level = 0 → t.link l = k)
      ∧ (level ≠ 0 → k.notices.length < 32 → t.link l = { k with
          notices := k.notices ++ [new], nextSequence := (k.nextSequence + 1) % 256
          attention := k.overflow || (k.notices ++ [new]).any (fun n => decide (k.threshold ≤ n.level)) })
      ∧ (level ≠ 0 → 32 ≤ k.notices.length → t.link l = { k with
          nextSequence := (k.nextSequence + 1) % 256, overflow := true, attention := true }))
  ∧ ∀ (l : Link) (s : State),
    let k := s.link l
    (∀ count : Nat, s.hears l (.takeNotices l count) → 0 < count →
      let n := min count 8
      let rest := k.notices.drop n
      exec (.takeNotices l count) s = .next (State.replied (s.setLink l { k with
          notices := rest, overflow := false, attention := rest.any (fun x => decide (k.threshold ≤ x.level)) }) l
        (if count ≤ 8 then .ok else .clamped)
        ([if k.overflow then 1 else 0, BitVec.ofNat 8 (min n k.notices.length), BitVec.ofNat 8 rest.length]
          ++ (k.notices.take n).flatMap Notice.bytes)))
    ∧ (∀ (levels : List Nat) (threshold : Nat), s.hears l (.setNoticeLevels l levels threshold) →
      levels.length = 18 → (∀ n, n ∈ levels → n < 4) →
      let w := max 1 (min 3 threshold)
      ∃ t : State, exec (.setNoticeLevels l levels threshold) s = .next (t.replied l
          (if w = threshold then .ok else .clamped) (levels.map (BitVec.ofNat 8) ++ [BitVec.ofNat 8 w]))
        ∧ (∀ i, i < 18 → Table.at (t.link l).levels 0 i = levels.getD i 0)
        ∧ t = s.setLink l { k with
            levels := (t.link l).levels, threshold := w
            attention := k.overflow || k.notices.any (fun x => decide (w ≤ x.level)) })

/-- Sections 1.5, 3.7, 5.5 and 7.7 (READ_CIRCUITS, READ_GROUP, READ_SPAN, READ_MAP, READ_STAGING, READ_QUEUE): a read
changes nothing but its link and answers with the records that exist, in their order. The layout is that of log
entry 17. -/
def Obligations.RecordsAreRead : Prop :=
  ∀ (l : Link) (s : State),
    let records (first count most limit : Nat) : List Nat :=
      (List.range (min (min count most) (limit - first))).map (fun i => first + i)
    (∀ first count, s.hears l (.readCircuits l first count) → first < 480 → 0 < count →
      let one (f : Filter) : List Byte :=
        u8 f.accepted.toNat ++ optField 1 (fun (c : Code) => u8 c.toNat) f.candidate ++ u8 f.count
      exec (.readCircuits l first count) s = .next (s.replied l .ok ((records first count 7 480).flatMap (fun n =>
        let c := s.circuit n
        u16 n ++ flag c.equipped ++ flag c.held ++ u8 c.cls.code ++ u8 c.group ++ u8 c.state.code
          ++ optField 1 u8 c.context ++ u8 c.receive.code ++ u8 c.transmit.code ++ optField 2 u16 c.slot
          ++ optField 1 (fun e => u8 e.direction.code) (s.queue.find? (fun e => e.circuit == n))
          ++ one c.forward ++ one c.backward ++ u8 c.call.code ++ flag c.conditioned ++ u16 c.residual
          ++ u8 c.residualPath.code ++ u16 c.cellsHeld ++ optField 1 (fun x => u8 x.code) c.lastAbort))))
    ∧ (∀ n, s.hears l (.readGroup l n) → n < 16 →
      let g := s.group n
      exec (.readGroup l n) s = .next (s.replied l .ok (
        u8 g.idle.toNat ++ u8 g.seize.toNat ++ u8 g.answer.toNat ++ u8 g.block.toNat ++ u8 g.seizeIndex
          ++ u8 g.clearIndex ++ u8 g.conditioning.toNat ++ [g.quiet] ++ u8 g.policy.code ++ flag g.autoReturn
          ++ u8 g.recoveryHold ++ u8 g.lockoutLimit ++ u8 g.lockoutWindow ++ flag g.frozen ++ flag g.lockedOut
          ++ u8 g.revertCount ++ optField 1 u8 g.windowTimer ++ u16 g.seizureCount ++ u16 g.busyCount)))
    ∧ (∀ x, s.hears l (.readSpan l x) → x < 16 →
      let p := s.span x
      exec (.readSpan l x) s = .next (s.replied l .ok (
        u8 p.state.code ++ flag p.relay ++ flag p.line.los ++ u8 p.line.run ++ flag p.switch.los ++ u8 p.switch.run
          ++ flag p.markerLoss ++ u16 p.lossCount ++ optField 2 u16 p.tc
          ++ u8 ((List.range 30).countP (fun c =>
              (s.circuit (30 * x + c)).equipped && (s.circuit (30 * x + c)).call != .idle)))))
    ∧ (∀ first count, s.hears l (.readMap l first count) → first < 512 → 0 < count →
      exec (.readMap l first count) s = .next (s.replied l .ok (
        u16 s.map.ownDigest.toNat ++ optField 2 (fun d => u16 d.toNat) s.map.peerDigest ++ flag s.map.mismatch
          ++ u8 s.map.run ++ flag s.map.applyPending ++ (records first count 16 512).flatMap (fun k =>
            u16 k ++ optField 2 u16 (s.boundTo k) ++ u8 (s.slotCode k).toNat ++ flag (s.slotCode k != 15)))))
    ∧ (s.hears l (.readStaging l) →
      exec (.readStaging l) s = .next (s.replied l .ok (
        u8 s.map.staging.length ++ flag s.map.applyPending ++ s.map.staging.flatMap (fun e => match e with
          | .assign slot n => u8 0 ++ u16 slot ++ u16 n
          | .release slot => u8 1 ++ u16 slot))))
    ∧ (∀ first count, s.hears l (.readQueue l first count) → first < 64 → 0 < count →
      exec (.readQueue l first count) s = .next (s.replied l .ok (
        u8 s.queue.length ++ (records first count 16 s.queue.length).flatMap s.entryBytes))
      ∧ ∀ i e, s.queue[i]? = some e → s.entryBytes i =
          u8 i ++ u16 e.circuit ++ u8 e.direction.code ++ u8 e.origin.code ++ flag e.idleOnly ++ u16 e.stamp
            ++ optField 1 (fun t => u8 t.code) (s.firstFailing e))

/-- Sections 7.7, 8.8, 9.2 and 10.7 (READ_CONTEXT, READ_PEER, READ_FAULTS, READ_STATUS, READ_COUNTERS): what they
answer; only a clearing READ_COUNTERS changes more than its link, the seven counters. The layout is that of log
entry 17 (DEDUCED); the head's wait count without a presence byte is log entry 31 (DESIGN CHOICE), and the origin state's
code and the optional advertised step are log entry 33 (DEDUCED). -/
def Obligations.ViewsOfThePartAreRead : Prop :=
  ∀ (l : Link) (s : State),
    (∀ n, s.hears l (.readContext l n) → n < 8 →
      let x := s.ctx n
      let place := s.pool.waitList.findIdx? (fun c => c == n)
      exec (.readContext l n) s = .next (s.replied l .ok (
        u8 x.state.code ++ u8 x.role.code ++ u8 x.direction.code ++ u16 x.circuit ++ u16 x.slot ++ u8 x.origin.code
          ++ u8 x.policy.code ++ u8 x.attempt ++ u8 x.attemptN ++ u8 x.attemptLimit ++ u16 x.start ++ u16 x.elapsed
          ++ u8 x.n ++ s16 x.sum ++ optField 2 s16 x.min ++ optField 2 s16 x.max ++ optField 2 s16 x.lead
          ++ u16 x.cells ++ flag x.switched ++ u16 x.stepTimer ++ u16 x.bridgeTimer ++ u8 x.abortCount
          ++ optField 2 (fun p => u8 p.1.code ++ [p.2]) x.lastStep ++ flag x.peerEntry
          ++ optField 4 (fun e => u8 e.origin.code ++ u16 e.stamp ++ flag e.idleOnly) x.served
          ++ optField 5 (fun e => u8 e.direction.code ++ u8 e.origin.code ++ u16 e.stamp ++ flag e.idleOnly) x.parked
          ++ optField 1 (fun c => u8 c.code) x.abortCause ++ optField 1 u8 place
          ++ optField 2 u16 (place.map (fun i => if i = 0 then s.pool.waitCount else 0))
          ++ u16 ((s.circuit x.circuit).delay .copper) ++ u16 ((s.circuit x.circuit).delay .fibre)
          ++ optField 1 (fun a => u8 a.step.code) (s.peer.adverts.find? (fun a => a.kind == .context n)))))
    ∧ (∀ part, s.hears l (.readPeer l part) → part < 2 →
      let p := s.peer
      let head := u8 s.ownSite ++ u16 p.silentTime ++ flag p.silent ++ flag p.clash ++ u8 p.clashRun
        ++ u8 (p.adverts.length + 1) ++ u8 (p.position.getD p.adverts.length)
      exec (.readPeer l part) s = .next (s.replied l .ok (
        if part = 0 then head ++ p.adverts.flatMap (fun a => match a.kind with
          | .context c => u8 0 ++ u8 c ++ u16 a.slot ++ u8 a.step.code ++ [a.argument]
          | .linger n _ => u8 1 ++ u16 a.slot ++ u8 a.step.code ++ [a.argument] ++ u8 n)
        else head ++ u8 p.view.length ++ p.view.flatMap (fun e =>
            u16 e.slot ++ u8 e.step.code ++ [e.argument] ++ u8 e.site ++ u8 e.seen ++ u8 e.age
              ++ flag (decide (2 ≤ e.seen)))
          ++ u16 p.viewFull)))
    ∧ (s.hears l (.readFaults l) → exec (.readFaults l) s = .next (s.replied l .ok (
        (Table.toList s.faults.records).map (fun r => BitVec.ofNat 8 (
          (if r.actions.revert then 1 else 0) + (if r.actions.condition then 2 else 0)
            + (if r.actions.abort then 4 else 0) + (if r.actions.halt then 8 else 0) + (if r.enabled then 16 else 0)
            + (if r.live then 32 else 0) + (if r.latched then 64 else 0) + (if r.declared then 128 else 0)))
          ++ flag s.faults.revertPending.isSome ++ u8 s.faults.health)))
    ∧ (s.hears l (.readStatus l) →
      let link (m : Link) : List Byte := flag (!(s.link m).alive) ++ optField 2 u16 (s.link m).watchdog
        ++ u8 (if m = l then 4 else (s.link m).rx.code) ++ optField 3 u24 (s.link m).rate
      let busy := (List.range 8).countP (fun c => decide ((s.ctx c).state ≠ .free))
      exec (.readStatus l) s = .next (s.replied l .ok (
        u8 (match s.resetCause with | .powerOn => 0 | .pin => 1) ++ u8 s.ownAddress ++ u8 s.ownSite
          ++ u8 s.watchdogStrap ++ u16 s.stamp ++ u16 s.frameCount
          ++ (List.range 16).flatMap (fun x => u8 (s.span x).state.code)
          ++ flag (decide (busy = 8)) ++ flag (!s.peerPresent) ++ flag s.portHalt ++ flag s.linkASilent
          ++ flag s.linkBSilent ++ flag s.admitting.requireA ++ flag s.admitting.requireB ++ flag s.peerPresent
          ++ flag s.port.los ++ optField 2 u16 s.port.wordAge ++ flag s.peer.silent ++ u8 busy ++ u8 s.queue.length
          ++ flag s.map.mismatch ++ flag s.map.applyPending ++ u16 s.pool.free
          ++ s.pool.waitList.map (BitVec.ofNat 8) ++ u16 s.pool.waitCount ++ u8 s.align.n ++ u8 s.align.spreadLimit
          ++ u16 s.align.walkInterval ++ u16 s.align.poolTimeout ++ u8 s.align.walkCounter ++ link .a ++ link .b)))
    ∧ (∀ clear c, s.hears l (.readCounters l clear) → readBool clear = some c →
      exec (.readCounters l clear) s = .next (State.replied (
        if c then { s with
          linkA := { s.linkA with crcErrors := 0, framingErrors := 0 }
          linkB := { s.linkB with crcErrors := 0, framingErrors := 0 }
          port := { s.port with erroredFrames := 0, wordChecks := 0 }
          peer := { s.peer with viewFull := 0 } } else s) l .ok (
        u16 s.linkA.crcErrors ++ u16 s.linkA.framingErrors ++ u16 s.linkB.crcErrors ++ u16 s.linkB.framingErrors
          ++ u32 s.port.erroredFrames ++ u16 s.port.wordChecks ++ u16 s.port.windowPosition ++ u16 s.port.windowCount
          ++ u16 s.peer.viewFull)))
end

