-- ==== Sys2Proof/Laws/Table.lean ====
section
/-! SUPPORT. Laws/Table.lean: reading a table after an update. -/

namespace Sys2Proof

theorem mapFrom_getD {α β : Type} (f : Nat → α → β) (l : List α) (k i : Nat) (d : α) (e : β) (h : i < l.length) :
    (mapFrom f k l).getD i e = f (k + i) (l.getD i d) := by
  induction l generalizing k i with
  | nil => simp at h
  | cons a rest ih =>
    cases i with
    | zero => simp [mapFrom]
    | succ j =>
      have hj : j < rest.length := by simpa using h
      simpa [mapFrom, Nat.add_assoc, Nat.add_comm 1 j] using ih (k + 1) j hj

variable {α β : Type} {n : Nat}

theorem Table.at_put_eq (t : Vector α n) (d v : α) {i : Nat} (h : i < n) : Table.at (Table.put t i v) d i = v := by
  simp [Table.at, Table.put, List.getD_eq_getElem?_getD, h]

theorem Table.at_put_ne (t : Vector α n) (d v : α) {i j : Nat} (h : j ≠ i) :
    Table.at (Table.put t i v) d j = Table.at t d j := by
  simp [Table.at, Table.put, List.getD_eq_getElem?_getD, Ne.symm h]

theorem Table.at_of_le (t : Vector α n) (d : α) {i : Nat} (h : n ≤ i) : Table.at t d i = d := by
  simp [Table.at, List.getD_eq_getElem?_getD, h]

theorem Table.put_of_le (t : Vector α n) (v : α) {i : Nat} (h : n ≤ i) : Table.put t i v = t := by
  cases t with
  | mk a ha =>
    simp only [Table.put, Vector.mk.injEq]
    rw [List.set_eq_of_length_le (by simpa [ha] using h)]

/-- The later of two writes of one entry stands. -/
theorem Table.put_put (t : Vector α n) (v w : α) (i : Nat) : Table.put (Table.put t i v) i w = Table.put t i w := by
  simp [Table.put]

/-- A table read after one entry has been changed by a function of itself. -/
theorem Table.at_put_at (t : Vector α n) (d v : α) (i j : Nat) :
    Table.at (Table.put t i v) d j = if j = i ∧ i < n then v else Table.at t d j := by
  by_cases hj : j = i
  · subst hj
    by_cases hn : j < n
    · simp [hn, Table.at_put_eq]
    · simp [hn, Table.put_of_le t v (Nat.le_of_not_lt hn)]
  · simp [hj, Table.at_put_ne t d v hj]

theorem Table.at_mapIdx (t : Vector α n) (f : Nat → α → β) (d : α) (e : β) {i : Nat} (h : i < n) :
    Table.at (Table.mapIdx t f) e i = f i (Table.at t d i) := by
  have h' : i < t.toArray.toList.length := by simpa using h
  have := mapFrom_getD f t.toArray.toList 0 i d e h'
  simpa [Table.at, Table.mapIdx] using this

theorem Table.at_fill (v d : α) {i : Nat} (h : i < n) : Table.at (Table.fill n v) d i = v := by
  simp [Table.at, Table.fill, List.getD_eq_getElem?_getD, h]

/-- A table filled with its own default reads as the default everywhere. -/
theorem Table.at_fill_same (v : α) (i : Nat) : Table.at (Table.fill n v) v i = v := by
  by_cases h : i < n
  · exact Table.at_fill v v h
  · exact Table.at_of_le _ v (Nat.le_of_not_lt h)

theorem Table.toList_length (t : Vector α n) : (Table.toList t).length = n := by
  simp [Table.toList]

/-- Two tables that read alike are one table. -/
theorem Table.ext_at (t u : Vector α n) (d : α) (h : ∀ i, i < n → Table.at t d i = Table.at u d i) : t = u := by
  apply Vector.ext
  intro i hi
  have := h i hi
  simpa [Table.at, List.getD_eq_getElem?_getD, hi] using this

end Sys2Proof
end

