-- ==== Sys2Proof/Laws/State.lean ====
section
/-! SUPPORT. Laws/State.lean: what each update of the state changes and what it leaves, field by field. -/

namespace Sys2Proof.Machine

/-! ### setCircuit -/

@[simp] theorem State.setCircuit_pending (s : State) (n : Nat) (c : Circuit) : (s.setCircuit n c).pending = s.pending := rfl
@[simp] theorem State.setCircuit_powered (s : State) (n : Nat) (c : Circuit) : (s.setCircuit n c).powered = s.powered := rfl
@[simp] theorem State.setCircuit_resetCause (s : State) (n : Nat) (c : Circuit) : (s.setCircuit n c).resetCause = s.resetCause := rfl
@[simp] theorem State.setCircuit_ownAddress (s : State) (n : Nat) (c : Circuit) : (s.setCircuit n c).ownAddress = s.ownAddress := rfl
@[simp] theorem State.setCircuit_ownSite (s : State) (n : Nat) (c : Circuit) : (s.setCircuit n c).ownSite = s.ownSite := rfl
@[simp] theorem State.setCircuit_watchdogStrap (s : State) (n : Nat) (c : Circuit) : (s.setCircuit n c).watchdogStrap = s.watchdogStrap := rfl
@[simp] theorem State.setCircuit_frameCount (s : State) (n : Nat) (c : Circuit) : (s.setCircuit n c).frameCount = s.frameCount := rfl
@[simp] theorem State.setCircuit_stamp (s : State) (n : Nat) (c : Circuit) : (s.setCircuit n c).stamp = s.stamp := rfl
@[simp] theorem State.setCircuit_boundaryDue (s : State) (n : Nat) (c : Circuit) : (s.setCircuit n c).boundaryDue = s.boundaryDue := rfl
@[simp] theorem State.setCircuit_owed (s : State) (n : Nat) (c : Circuit) : (s.setCircuit n c).owed = s.owed := rfl
@[simp] theorem State.setCircuit_channels (s : State) (n : Nat) (c : Circuit) : (s.setCircuit n c).channels = s.channels := rfl
@[simp] theorem State.setCircuit_groups (s : State) (n : Nat) (c : Circuit) : (s.setCircuit n c).groups = s.groups := rfl
@[simp] theorem State.setCircuit_spans (s : State) (n : Nat) (c : Circuit) : (s.setCircuit n c).spans = s.spans := rfl
@[simp] theorem State.setCircuit_port (s : State) (n : Nat) (c : Circuit) : (s.setCircuit n c).port = s.port := rfl
@[simp] theorem State.setCircuit_map (s : State) (n : Nat) (c : Circuit) : (s.setCircuit n c).map = s.map := rfl
@[simp] theorem State.setCircuit_align (s : State) (n : Nat) (c : Circuit) : (s.setCircuit n c).align = s.align := rfl
@[simp] theorem State.setCircuit_pool (s : State) (n : Nat) (c : Circuit) : (s.setCircuit n c).pool = s.pool := rfl
@[simp] theorem State.setCircuit_queue (s : State) (n : Nat) (c : Circuit) : (s.setCircuit n c).queue = s.queue := rfl
@[simp] theorem State.setCircuit_admitting (s : State) (n : Nat) (c : Circuit) : (s.setCircuit n c).admitting = s.admitting := rfl
@[simp] theorem State.setCircuit_contexts (s : State) (n : Nat) (c : Circuit) : (s.setCircuit n c).contexts = s.contexts := rfl
@[simp] theorem State.setCircuit_peer (s : State) (n : Nat) (c : Circuit) : (s.setCircuit n c).peer = s.peer := rfl
@[simp] theorem State.setCircuit_faults (s : State) (n : Nat) (c : Circuit) : (s.setCircuit n c).faults = s.faults := rfl
@[simp] theorem State.setCircuit_linkA (s : State) (n : Nat) (c : Circuit) : (s.setCircuit n c).linkA = s.linkA := rfl
@[simp] theorem State.setCircuit_linkB (s : State) (n : Nat) (c : Circuit) : (s.setCircuit n c).linkB = s.linkB := rfl
@[simp] theorem State.setCircuit_out (s : State) (n : Nat) (c : Circuit) : (s.setCircuit n c).out = s.out := rfl

/-! ### modCircuit -/

@[simp] theorem State.modCircuit_pending (s : State) (n : Nat) (f : Circuit → Circuit) : (s.modCircuit n f).pending = s.pending := rfl
@[simp] theorem State.modCircuit_powered (s : State) (n : Nat) (f : Circuit → Circuit) : (s.modCircuit n f).powered = s.powered := rfl
@[simp] theorem State.modCircuit_resetCause (s : State) (n : Nat) (f : Circuit → Circuit) : (s.modCircuit n f).resetCause = s.resetCause := rfl
@[simp] theorem State.modCircuit_ownAddress (s : State) (n : Nat) (f : Circuit → Circuit) : (s.modCircuit n f).ownAddress = s.ownAddress := rfl
@[simp] theorem State.modCircuit_ownSite (s : State) (n : Nat) (f : Circuit → Circuit) : (s.modCircuit n f).ownSite = s.ownSite := rfl
@[simp] theorem State.modCircuit_watchdogStrap (s : State) (n : Nat) (f : Circuit → Circuit) : (s.modCircuit n f).watchdogStrap = s.watchdogStrap := rfl
@[simp] theorem State.modCircuit_frameCount (s : State) (n : Nat) (f : Circuit → Circuit) : (s.modCircuit n f).frameCount = s.frameCount := rfl
@[simp] theorem State.modCircuit_stamp (s : State) (n : Nat) (f : Circuit → Circuit) : (s.modCircuit n f).stamp = s.stamp := rfl
@[simp] theorem State.modCircuit_boundaryDue (s : State) (n : Nat) (f : Circuit → Circuit) : (s.modCircuit n f).boundaryDue = s.boundaryDue := rfl
@[simp] theorem State.modCircuit_owed (s : State) (n : Nat) (f : Circuit → Circuit) : (s.modCircuit n f).owed = s.owed := rfl
@[simp] theorem State.modCircuit_channels (s : State) (n : Nat) (f : Circuit → Circuit) : (s.modCircuit n f).channels = s.channels := rfl
@[simp] theorem State.modCircuit_groups (s : State) (n : Nat) (f : Circuit → Circuit) : (s.modCircuit n f).groups = s.groups := rfl
@[simp] theorem State.modCircuit_spans (s : State) (n : Nat) (f : Circuit → Circuit) : (s.modCircuit n f).spans = s.spans := rfl
@[simp] theorem State.modCircuit_port (s : State) (n : Nat) (f : Circuit → Circuit) : (s.modCircuit n f).port = s.port := rfl
@[simp] theorem State.modCircuit_map (s : State) (n : Nat) (f : Circuit → Circuit) : (s.modCircuit n f).map = s.map := rfl
@[simp] theorem State.modCircuit_align (s : State) (n : Nat) (f : Circuit → Circuit) : (s.modCircuit n f).align = s.align := rfl
@[simp] theorem State.modCircuit_pool (s : State) (n : Nat) (f : Circuit → Circuit) : (s.modCircuit n f).pool = s.pool := rfl
@[simp] theorem State.modCircuit_queue (s : State) (n : Nat) (f : Circuit → Circuit) : (s.modCircuit n f).queue = s.queue := rfl
@[simp] theorem State.modCircuit_admitting (s : State) (n : Nat) (f : Circuit → Circuit) : (s.modCircuit n f).admitting = s.admitting := rfl
@[simp] theorem State.modCircuit_contexts (s : State) (n : Nat) (f : Circuit → Circuit) : (s.modCircuit n f).contexts = s.contexts := rfl
@[simp] theorem State.modCircuit_peer (s : State) (n : Nat) (f : Circuit → Circuit) : (s.modCircuit n f).peer = s.peer := rfl
@[simp] theorem State.modCircuit_faults (s : State) (n : Nat) (f : Circuit → Circuit) : (s.modCircuit n f).faults = s.faults := rfl
@[simp] theorem State.modCircuit_linkA (s : State) (n : Nat) (f : Circuit → Circuit) : (s.modCircuit n f).linkA = s.linkA := rfl
@[simp] theorem State.modCircuit_linkB (s : State) (n : Nat) (f : Circuit → Circuit) : (s.modCircuit n f).linkB = s.linkB := rfl
@[simp] theorem State.modCircuit_out (s : State) (n : Nat) (f : Circuit → Circuit) : (s.modCircuit n f).out = s.out := rfl

/-! ### setGroup -/

@[simp] theorem State.setGroup_pending (s : State) (n : Nat) (g : Group) : (s.setGroup n g).pending = s.pending := rfl
@[simp] theorem State.setGroup_powered (s : State) (n : Nat) (g : Group) : (s.setGroup n g).powered = s.powered := rfl
@[simp] theorem State.setGroup_resetCause (s : State) (n : Nat) (g : Group) : (s.setGroup n g).resetCause = s.resetCause := rfl
@[simp] theorem State.setGroup_ownAddress (s : State) (n : Nat) (g : Group) : (s.setGroup n g).ownAddress = s.ownAddress := rfl
@[simp] theorem State.setGroup_ownSite (s : State) (n : Nat) (g : Group) : (s.setGroup n g).ownSite = s.ownSite := rfl
@[simp] theorem State.setGroup_watchdogStrap (s : State) (n : Nat) (g : Group) : (s.setGroup n g).watchdogStrap = s.watchdogStrap := rfl
@[simp] theorem State.setGroup_frameCount (s : State) (n : Nat) (g : Group) : (s.setGroup n g).frameCount = s.frameCount := rfl
@[simp] theorem State.setGroup_stamp (s : State) (n : Nat) (g : Group) : (s.setGroup n g).stamp = s.stamp := rfl
@[simp] theorem State.setGroup_boundaryDue (s : State) (n : Nat) (g : Group) : (s.setGroup n g).boundaryDue = s.boundaryDue := rfl
@[simp] theorem State.setGroup_owed (s : State) (n : Nat) (g : Group) : (s.setGroup n g).owed = s.owed := rfl
@[simp] theorem State.setGroup_circuits (s : State) (n : Nat) (g : Group) : (s.setGroup n g).circuits = s.circuits := rfl
@[simp] theorem State.setGroup_channels (s : State) (n : Nat) (g : Group) : (s.setGroup n g).channels = s.channels := rfl
@[simp] theorem State.setGroup_spans (s : State) (n : Nat) (g : Group) : (s.setGroup n g).spans = s.spans := rfl
@[simp] theorem State.setGroup_port (s : State) (n : Nat) (g : Group) : (s.setGroup n g).port = s.port := rfl
@[simp] theorem State.setGroup_map (s : State) (n : Nat) (g : Group) : (s.setGroup n g).map = s.map := rfl
@[simp] theorem State.setGroup_align (s : State) (n : Nat) (g : Group) : (s.setGroup n g).align = s.align := rfl
@[simp] theorem State.setGroup_pool (s : State) (n : Nat) (g : Group) : (s.setGroup n g).pool = s.pool := rfl
@[simp] theorem State.setGroup_queue (s : State) (n : Nat) (g : Group) : (s.setGroup n g).queue = s.queue := rfl
@[simp] theorem State.setGroup_admitting (s : State) (n : Nat) (g : Group) : (s.setGroup n g).admitting = s.admitting := rfl
@[simp] theorem State.setGroup_contexts (s : State) (n : Nat) (g : Group) : (s.setGroup n g).contexts = s.contexts := rfl
@[simp] theorem State.setGroup_peer (s : State) (n : Nat) (g : Group) : (s.setGroup n g).peer = s.peer := rfl
@[simp] theorem State.setGroup_faults (s : State) (n : Nat) (g : Group) : (s.setGroup n g).faults = s.faults := rfl
@[simp] theorem State.setGroup_linkA (s : State) (n : Nat) (g : Group) : (s.setGroup n g).linkA = s.linkA := rfl
@[simp] theorem State.setGroup_linkB (s : State) (n : Nat) (g : Group) : (s.setGroup n g).linkB = s.linkB := rfl
@[simp] theorem State.setGroup_out (s : State) (n : Nat) (g : Group) : (s.setGroup n g).out = s.out := rfl

/-! ### modGroup -/

@[simp] theorem State.modGroup_pending (s : State) (n : Nat) (f : Group → Group) : (s.modGroup n f).pending = s.pending := rfl
@[simp] theorem State.modGroup_powered (s : State) (n : Nat) (f : Group → Group) : (s.modGroup n f).powered = s.powered := rfl
@[simp] theorem State.modGroup_resetCause (s : State) (n : Nat) (f : Group → Group) : (s.modGroup n f).resetCause = s.resetCause := rfl
@[simp] theorem State.modGroup_ownAddress (s : State) (n : Nat) (f : Group → Group) : (s.modGroup n f).ownAddress = s.ownAddress := rfl
@[simp] theorem State.modGroup_ownSite (s : State) (n : Nat) (f : Group → Group) : (s.modGroup n f).ownSite = s.ownSite := rfl
@[simp] theorem State.modGroup_watchdogStrap (s : State) (n : Nat) (f : Group → Group) : (s.modGroup n f).watchdogStrap = s.watchdogStrap := rfl
@[simp] theorem State.modGroup_frameCount (s : State) (n : Nat) (f : Group → Group) : (s.modGroup n f).frameCount = s.frameCount := rfl
@[simp] theorem State.modGroup_stamp (s : State) (n : Nat) (f : Group → Group) : (s.modGroup n f).stamp = s.stamp := rfl
@[simp] theorem State.modGroup_boundaryDue (s : State) (n : Nat) (f : Group → Group) : (s.modGroup n f).boundaryDue = s.boundaryDue := rfl
@[simp] theorem State.modGroup_owed (s : State) (n : Nat) (f : Group → Group) : (s.modGroup n f).owed = s.owed := rfl
@[simp] theorem State.modGroup_circuits (s : State) (n : Nat) (f : Group → Group) : (s.modGroup n f).circuits = s.circuits := rfl
@[simp] theorem State.modGroup_channels (s : State) (n : Nat) (f : Group → Group) : (s.modGroup n f).channels = s.channels := rfl
@[simp] theorem State.modGroup_spans (s : State) (n : Nat) (f : Group → Group) : (s.modGroup n f).spans = s.spans := rfl
@[simp] theorem State.modGroup_port (s : State) (n : Nat) (f : Group → Group) : (s.modGroup n f).port = s.port := rfl
@[simp] theorem State.modGroup_map (s : State) (n : Nat) (f : Group → Group) : (s.modGroup n f).map = s.map := rfl
@[simp] theorem State.modGroup_align (s : State) (n : Nat) (f : Group → Group) : (s.modGroup n f).align = s.align := rfl
@[simp] theorem State.modGroup_pool (s : State) (n : Nat) (f : Group → Group) : (s.modGroup n f).pool = s.pool := rfl
@[simp] theorem State.modGroup_queue (s : State) (n : Nat) (f : Group → Group) : (s.modGroup n f).queue = s.queue := rfl
@[simp] theorem State.modGroup_admitting (s : State) (n : Nat) (f : Group → Group) : (s.modGroup n f).admitting = s.admitting := rfl
@[simp] theorem State.modGroup_contexts (s : State) (n : Nat) (f : Group → Group) : (s.modGroup n f).contexts = s.contexts := rfl
@[simp] theorem State.modGroup_peer (s : State) (n : Nat) (f : Group → Group) : (s.modGroup n f).peer = s.peer := rfl
@[simp] theorem State.modGroup_faults (s : State) (n : Nat) (f : Group → Group) : (s.modGroup n f).faults = s.faults := rfl
@[simp] theorem State.modGroup_linkA (s : State) (n : Nat) (f : Group → Group) : (s.modGroup n f).linkA = s.linkA := rfl
@[simp] theorem State.modGroup_linkB (s : State) (n : Nat) (f : Group → Group) : (s.modGroup n f).linkB = s.linkB := rfl
@[simp] theorem State.modGroup_out (s : State) (n : Nat) (f : Group → Group) : (s.modGroup n f).out = s.out := rfl

/-! ### setSpan -/

@[simp] theorem State.setSpan_pending (s : State) (n : Nat) (x : Span) : (s.setSpan n x).pending = s.pending := rfl
@[simp] theorem State.setSpan_powered (s : State) (n : Nat) (x : Span) : (s.setSpan n x).powered = s.powered := rfl
@[simp] theorem State.setSpan_resetCause (s : State) (n : Nat) (x : Span) : (s.setSpan n x).resetCause = s.resetCause := rfl
@[simp] theorem State.setSpan_ownAddress (s : State) (n : Nat) (x : Span) : (s.setSpan n x).ownAddress = s.ownAddress := rfl
@[simp] theorem State.setSpan_ownSite (s : State) (n : Nat) (x : Span) : (s.setSpan n x).ownSite = s.ownSite := rfl
@[simp] theorem State.setSpan_watchdogStrap (s : State) (n : Nat) (x : Span) : (s.setSpan n x).watchdogStrap = s.watchdogStrap := rfl
@[simp] theorem State.setSpan_frameCount (s : State) (n : Nat) (x : Span) : (s.setSpan n x).frameCount = s.frameCount := rfl
@[simp] theorem State.setSpan_stamp (s : State) (n : Nat) (x : Span) : (s.setSpan n x).stamp = s.stamp := rfl
@[simp] theorem State.setSpan_boundaryDue (s : State) (n : Nat) (x : Span) : (s.setSpan n x).boundaryDue = s.boundaryDue := rfl
@[simp] theorem State.setSpan_owed (s : State) (n : Nat) (x : Span) : (s.setSpan n x).owed = s.owed := rfl
@[simp] theorem State.setSpan_circuits (s : State) (n : Nat) (x : Span) : (s.setSpan n x).circuits = s.circuits := rfl
@[simp] theorem State.setSpan_channels (s : State) (n : Nat) (x : Span) : (s.setSpan n x).channels = s.channels := rfl
@[simp] theorem State.setSpan_groups (s : State) (n : Nat) (x : Span) : (s.setSpan n x).groups = s.groups := rfl
@[simp] theorem State.setSpan_port (s : State) (n : Nat) (x : Span) : (s.setSpan n x).port = s.port := rfl
@[simp] theorem State.setSpan_map (s : State) (n : Nat) (x : Span) : (s.setSpan n x).map = s.map := rfl
@[simp] theorem State.setSpan_align (s : State) (n : Nat) (x : Span) : (s.setSpan n x).align = s.align := rfl
@[simp] theorem State.setSpan_pool (s : State) (n : Nat) (x : Span) : (s.setSpan n x).pool = s.pool := rfl
@[simp] theorem State.setSpan_queue (s : State) (n : Nat) (x : Span) : (s.setSpan n x).queue = s.queue := rfl
@[simp] theorem State.setSpan_admitting (s : State) (n : Nat) (x : Span) : (s.setSpan n x).admitting = s.admitting := rfl
@[simp] theorem State.setSpan_contexts (s : State) (n : Nat) (x : Span) : (s.setSpan n x).contexts = s.contexts := rfl
@[simp] theorem State.setSpan_peer (s : State) (n : Nat) (x : Span) : (s.setSpan n x).peer = s.peer := rfl
@[simp] theorem State.setSpan_faults (s : State) (n : Nat) (x : Span) : (s.setSpan n x).faults = s.faults := rfl
@[simp] theorem State.setSpan_linkA (s : State) (n : Nat) (x : Span) : (s.setSpan n x).linkA = s.linkA := rfl
@[simp] theorem State.setSpan_linkB (s : State) (n : Nat) (x : Span) : (s.setSpan n x).linkB = s.linkB := rfl
@[simp] theorem State.setSpan_out (s : State) (n : Nat) (x : Span) : (s.setSpan n x).out = s.out := rfl

/-! ### modSpan -/

@[simp] theorem State.modSpan_pending (s : State) (n : Nat) (f : Span → Span) : (s.modSpan n f).pending = s.pending := rfl
@[simp] theorem State.modSpan_powered (s : State) (n : Nat) (f : Span → Span) : (s.modSpan n f).powered = s.powered := rfl
@[simp] theorem State.modSpan_resetCause (s : State) (n : Nat) (f : Span → Span) : (s.modSpan n f).resetCause = s.resetCause := rfl
@[simp] theorem State.modSpan_ownAddress (s : State) (n : Nat) (f : Span → Span) : (s.modSpan n f).ownAddress = s.ownAddress := rfl
@[simp] theorem State.modSpan_ownSite (s : State) (n : Nat) (f : Span → Span) : (s.modSpan n f).ownSite = s.ownSite := rfl
@[simp] theorem State.modSpan_watchdogStrap (s : State) (n : Nat) (f : Span → Span) : (s.modSpan n f).watchdogStrap = s.watchdogStrap := rfl
@[simp] theorem State.modSpan_frameCount (s : State) (n : Nat) (f : Span → Span) : (s.modSpan n f).frameCount = s.frameCount := rfl
@[simp] theorem State.modSpan_stamp (s : State) (n : Nat) (f : Span → Span) : (s.modSpan n f).stamp = s.stamp := rfl
@[simp] theorem State.modSpan_boundaryDue (s : State) (n : Nat) (f : Span → Span) : (s.modSpan n f).boundaryDue = s.boundaryDue := rfl
@[simp] theorem State.modSpan_owed (s : State) (n : Nat) (f : Span → Span) : (s.modSpan n f).owed = s.owed := rfl
@[simp] theorem State.modSpan_circuits (s : State) (n : Nat) (f : Span → Span) : (s.modSpan n f).circuits = s.circuits := rfl
@[simp] theorem State.modSpan_channels (s : State) (n : Nat) (f : Span → Span) : (s.modSpan n f).channels = s.channels := rfl
@[simp] theorem State.modSpan_groups (s : State) (n : Nat) (f : Span → Span) : (s.modSpan n f).groups = s.groups := rfl
@[simp] theorem State.modSpan_port (s : State) (n : Nat) (f : Span → Span) : (s.modSpan n f).port = s.port := rfl
@[simp] theorem State.modSpan_map (s : State) (n : Nat) (f : Span → Span) : (s.modSpan n f).map = s.map := rfl
@[simp] theorem State.modSpan_align (s : State) (n : Nat) (f : Span → Span) : (s.modSpan n f).align = s.align := rfl
@[simp] theorem State.modSpan_pool (s : State) (n : Nat) (f : Span → Span) : (s.modSpan n f).pool = s.pool := rfl
@[simp] theorem State.modSpan_queue (s : State) (n : Nat) (f : Span → Span) : (s.modSpan n f).queue = s.queue := rfl
@[simp] theorem State.modSpan_admitting (s : State) (n : Nat) (f : Span → Span) : (s.modSpan n f).admitting = s.admitting := rfl
@[simp] theorem State.modSpan_contexts (s : State) (n : Nat) (f : Span → Span) : (s.modSpan n f).contexts = s.contexts := rfl
@[simp] theorem State.modSpan_peer (s : State) (n : Nat) (f : Span → Span) : (s.modSpan n f).peer = s.peer := rfl
@[simp] theorem State.modSpan_faults (s : State) (n : Nat) (f : Span → Span) : (s.modSpan n f).faults = s.faults := rfl
@[simp] theorem State.modSpan_linkA (s : State) (n : Nat) (f : Span → Span) : (s.modSpan n f).linkA = s.linkA := rfl
@[simp] theorem State.modSpan_linkB (s : State) (n : Nat) (f : Span → Span) : (s.modSpan n f).linkB = s.linkB := rfl
@[simp] theorem State.modSpan_out (s : State) (n : Nat) (f : Span → Span) : (s.modSpan n f).out = s.out := rfl

/-! ### setCtx -/

@[simp] theorem State.setCtx_pending (s : State) (n : Nat) (x : Ctx) : (s.setCtx n x).pending = s.pending := rfl
@[simp] theorem State.setCtx_powered (s : State) (n : Nat) (x : Ctx) : (s.setCtx n x).powered = s.powered := rfl
@[simp] theorem State.setCtx_resetCause (s : State) (n : Nat) (x : Ctx) : (s.setCtx n x).resetCause = s.resetCause := rfl
@[simp] theorem State.setCtx_ownAddress (s : State) (n : Nat) (x : Ctx) : (s.setCtx n x).ownAddress = s.ownAddress := rfl
@[simp] theorem State.setCtx_ownSite (s : State) (n : Nat) (x : Ctx) : (s.setCtx n x).ownSite = s.ownSite := rfl
@[simp] theorem State.setCtx_watchdogStrap (s : State) (n : Nat) (x : Ctx) : (s.setCtx n x).watchdogStrap = s.watchdogStrap := rfl
@[simp] theorem State.setCtx_frameCount (s : State) (n : Nat) (x : Ctx) : (s.setCtx n x).frameCount = s.frameCount := rfl
@[simp] theorem State.setCtx_stamp (s : State) (n : Nat) (x : Ctx) : (s.setCtx n x).stamp = s.stamp := rfl
@[simp] theorem State.setCtx_boundaryDue (s : State) (n : Nat) (x : Ctx) : (s.setCtx n x).boundaryDue = s.boundaryDue := rfl
@[simp] theorem State.setCtx_owed (s : State) (n : Nat) (x : Ctx) : (s.setCtx n x).owed = s.owed := rfl
@[simp] theorem State.setCtx_circuits (s : State) (n : Nat) (x : Ctx) : (s.setCtx n x).circuits = s.circuits := rfl
@[simp] theorem State.setCtx_channels (s : State) (n : Nat) (x : Ctx) : (s.setCtx n x).channels = s.channels := rfl
@[simp] theorem State.setCtx_groups (s : State) (n : Nat) (x : Ctx) : (s.setCtx n x).groups = s.groups := rfl
@[simp] theorem State.setCtx_spans (s : State) (n : Nat) (x : Ctx) : (s.setCtx n x).spans = s.spans := rfl
@[simp] theorem State.setCtx_port (s : State) (n : Nat) (x : Ctx) : (s.setCtx n x).port = s.port := rfl
@[simp] theorem State.setCtx_map (s : State) (n : Nat) (x : Ctx) : (s.setCtx n x).map = s.map := rfl
@[simp] theorem State.setCtx_align (s : State) (n : Nat) (x : Ctx) : (s.setCtx n x).align = s.align := rfl
@[simp] theorem State.setCtx_pool (s : State) (n : Nat) (x : Ctx) : (s.setCtx n x).pool = s.pool := rfl
@[simp] theorem State.setCtx_queue (s : State) (n : Nat) (x : Ctx) : (s.setCtx n x).queue = s.queue := rfl
@[simp] theorem State.setCtx_admitting (s : State) (n : Nat) (x : Ctx) : (s.setCtx n x).admitting = s.admitting := rfl
@[simp] theorem State.setCtx_peer (s : State) (n : Nat) (x : Ctx) : (s.setCtx n x).peer = s.peer := rfl
@[simp] theorem State.setCtx_faults (s : State) (n : Nat) (x : Ctx) : (s.setCtx n x).faults = s.faults := rfl
@[simp] theorem State.setCtx_linkA (s : State) (n : Nat) (x : Ctx) : (s.setCtx n x).linkA = s.linkA := rfl
@[simp] theorem State.setCtx_linkB (s : State) (n : Nat) (x : Ctx) : (s.setCtx n x).linkB = s.linkB := rfl
@[simp] theorem State.setCtx_out (s : State) (n : Nat) (x : Ctx) : (s.setCtx n x).out = s.out := rfl

/-! ### modCtx -/

@[simp] theorem State.modCtx_pending (s : State) (n : Nat) (f : Ctx → Ctx) : (s.modCtx n f).pending = s.pending := rfl
@[simp] theorem State.modCtx_powered (s : State) (n : Nat) (f : Ctx → Ctx) : (s.modCtx n f).powered = s.powered := rfl
@[simp] theorem State.modCtx_resetCause (s : State) (n : Nat) (f : Ctx → Ctx) : (s.modCtx n f).resetCause = s.resetCause := rfl
@[simp] theorem State.modCtx_ownAddress (s : State) (n : Nat) (f : Ctx → Ctx) : (s.modCtx n f).ownAddress = s.ownAddress := rfl
@[simp] theorem State.modCtx_ownSite (s : State) (n : Nat) (f : Ctx → Ctx) : (s.modCtx n f).ownSite = s.ownSite := rfl
@[simp] theorem State.modCtx_watchdogStrap (s : State) (n : Nat) (f : Ctx → Ctx) : (s.modCtx n f).watchdogStrap = s.watchdogStrap := rfl
@[simp] theorem State.modCtx_frameCount (s : State) (n : Nat) (f : Ctx → Ctx) : (s.modCtx n f).frameCount = s.frameCount := rfl
@[simp] theorem State.modCtx_stamp (s : State) (n : Nat) (f : Ctx → Ctx) : (s.modCtx n f).stamp = s.stamp := rfl
@[simp] theorem State.modCtx_boundaryDue (s : State) (n : Nat) (f : Ctx → Ctx) : (s.modCtx n f).boundaryDue = s.boundaryDue := rfl
@[simp] theorem State.modCtx_owed (s : State) (n : Nat) (f : Ctx → Ctx) : (s.modCtx n f).owed = s.owed := rfl
@[simp] theorem State.modCtx_circuits (s : State) (n : Nat) (f : Ctx → Ctx) : (s.modCtx n f).circuits = s.circuits := rfl
@[simp] theorem State.modCtx_channels (s : State) (n : Nat) (f : Ctx → Ctx) : (s.modCtx n f).channels = s.channels := rfl
@[simp] theorem State.modCtx_groups (s : State) (n : Nat) (f : Ctx → Ctx) : (s.modCtx n f).groups = s.groups := rfl
@[simp] theorem State.modCtx_spans (s : State) (n : Nat) (f : Ctx → Ctx) : (s.modCtx n f).spans = s.spans := rfl
@[simp] theorem State.modCtx_port (s : State) (n : Nat) (f : Ctx → Ctx) : (s.modCtx n f).port = s.port := rfl
@[simp] theorem State.modCtx_map (s : State) (n : Nat) (f : Ctx → Ctx) : (s.modCtx n f).map = s.map := rfl
@[simp] theorem State.modCtx_align (s : State) (n : Nat) (f : Ctx → Ctx) : (s.modCtx n f).align = s.align := rfl
@[simp] theorem State.modCtx_pool (s : State) (n : Nat) (f : Ctx → Ctx) : (s.modCtx n f).pool = s.pool := rfl
@[simp] theorem State.modCtx_queue (s : State) (n : Nat) (f : Ctx → Ctx) : (s.modCtx n f).queue = s.queue := rfl
@[simp] theorem State.modCtx_admitting (s : State) (n : Nat) (f : Ctx → Ctx) : (s.modCtx n f).admitting = s.admitting := rfl
@[simp] theorem State.modCtx_peer (s : State) (n : Nat) (f : Ctx → Ctx) : (s.modCtx n f).peer = s.peer := rfl
@[simp] theorem State.modCtx_faults (s : State) (n : Nat) (f : Ctx → Ctx) : (s.modCtx n f).faults = s.faults := rfl
@[simp] theorem State.modCtx_linkA (s : State) (n : Nat) (f : Ctx → Ctx) : (s.modCtx n f).linkA = s.linkA := rfl
@[simp] theorem State.modCtx_linkB (s : State) (n : Nat) (f : Ctx → Ctx) : (s.modCtx n f).linkB = s.linkB := rfl
@[simp] theorem State.modCtx_out (s : State) (n : Nat) (f : Ctx → Ctx) : (s.modCtx n f).out = s.out := rfl

/-! ### setFault -/

@[simp] theorem State.setFault_pending (s : State) (k : FaultKind) (n : Nat) (r : FaultRecord) : (s.setFault k n r).pending = s.pending := rfl
@[simp] theorem State.setFault_powered (s : State) (k : FaultKind) (n : Nat) (r : FaultRecord) : (s.setFault k n r).powered = s.powered := rfl
@[simp] theorem State.setFault_resetCause (s : State) (k : FaultKind) (n : Nat) (r : FaultRecord) : (s.setFault k n r).resetCause = s.resetCause := rfl
@[simp] theorem State.setFault_ownAddress (s : State) (k : FaultKind) (n : Nat) (r : FaultRecord) : (s.setFault k n r).ownAddress = s.ownAddress := rfl
@[simp] theorem State.setFault_ownSite (s : State) (k : FaultKind) (n : Nat) (r : FaultRecord) : (s.setFault k n r).ownSite = s.ownSite := rfl
@[simp] theorem State.setFault_watchdogStrap (s : State) (k : FaultKind) (n : Nat) (r : FaultRecord) : (s.setFault k n r).watchdogStrap = s.watchdogStrap := rfl
@[simp] theorem State.setFault_frameCount (s : State) (k : FaultKind) (n : Nat) (r : FaultRecord) : (s.setFault k n r).frameCount = s.frameCount := rfl
@[simp] theorem State.setFault_stamp (s : State) (k : FaultKind) (n : Nat) (r : FaultRecord) : (s.setFault k n r).stamp = s.stamp := rfl
@[simp] theorem State.setFault_boundaryDue (s : State) (k : FaultKind) (n : Nat) (r : FaultRecord) : (s.setFault k n r).boundaryDue = s.boundaryDue := rfl
@[simp] theorem State.setFault_owed (s : State) (k : FaultKind) (n : Nat) (r : FaultRecord) : (s.setFault k n r).owed = s.owed := rfl
@[simp] theorem State.setFault_circuits (s : State) (k : FaultKind) (n : Nat) (r : FaultRecord) : (s.setFault k n r).circuits = s.circuits := rfl
@[simp] theorem State.setFault_channels (s : State) (k : FaultKind) (n : Nat) (r : FaultRecord) : (s.setFault k n r).channels = s.channels := rfl
@[simp] theorem State.setFault_groups (s : State) (k : FaultKind) (n : Nat) (r : FaultRecord) : (s.setFault k n r).groups = s.groups := rfl
@[simp] theorem State.setFault_spans (s : State) (k : FaultKind) (n : Nat) (r : FaultRecord) : (s.setFault k n r).spans = s.spans := rfl
@[simp] theorem State.setFault_port (s : State) (k : FaultKind) (n : Nat) (r : FaultRecord) : (s.setFault k n r).port = s.port := rfl
@[simp] theorem State.setFault_map (s : State) (k : FaultKind) (n : Nat) (r : FaultRecord) : (s.setFault k n r).map = s.map := rfl
@[simp] theorem State.setFault_align (s : State) (k : FaultKind) (n : Nat) (r : FaultRecord) : (s.setFault k n r).align = s.align := rfl
@[simp] theorem State.setFault_pool (s : State) (k : FaultKind) (n : Nat) (r : FaultRecord) : (s.setFault k n r).pool = s.pool := rfl
@[simp] theorem State.setFault_queue (s : State) (k : FaultKind) (n : Nat) (r : FaultRecord) : (s.setFault k n r).queue = s.queue := rfl
@[simp] theorem State.setFault_admitting (s : State) (k : FaultKind) (n : Nat) (r : FaultRecord) : (s.setFault k n r).admitting = s.admitting := rfl
@[simp] theorem State.setFault_contexts (s : State) (k : FaultKind) (n : Nat) (r : FaultRecord) : (s.setFault k n r).contexts = s.contexts := rfl
@[simp] theorem State.setFault_peer (s : State) (k : FaultKind) (n : Nat) (r : FaultRecord) : (s.setFault k n r).peer = s.peer := rfl
@[simp] theorem State.setFault_linkA (s : State) (k : FaultKind) (n : Nat) (r : FaultRecord) : (s.setFault k n r).linkA = s.linkA := rfl
@[simp] theorem State.setFault_linkB (s : State) (k : FaultKind) (n : Nat) (r : FaultRecord) : (s.setFault k n r).linkB = s.linkB := rfl
@[simp] theorem State.setFault_out (s : State) (k : FaultKind) (n : Nat) (r : FaultRecord) : (s.setFault k n r).out = s.out := rfl

/-! ### returnCells -/

@[simp] theorem State.returnCells_pending (s : State) (k : Nat) : (s.returnCells k).pending = s.pending := rfl
@[simp] theorem State.returnCells_powered (s : State) (k : Nat) : (s.returnCells k).powered = s.powered := rfl
@[simp] theorem State.returnCells_resetCause (s : State) (k : Nat) : (s.returnCells k).resetCause = s.resetCause := rfl
@[simp] theorem State.returnCells_ownAddress (s : State) (k : Nat) : (s.returnCells k).ownAddress = s.ownAddress := rfl
@[simp] theorem State.returnCells_ownSite (s : State) (k : Nat) : (s.returnCells k).ownSite = s.ownSite := rfl
@[simp] theorem State.returnCells_watchdogStrap (s : State) (k : Nat) : (s.returnCells k).watchdogStrap = s.watchdogStrap := rfl
@[simp] theorem State.returnCells_frameCount (s : State) (k : Nat) : (s.returnCells k).frameCount = s.frameCount := rfl
@[simp] theorem State.returnCells_stamp (s : State) (k : Nat) : (s.returnCells k).stamp = s.stamp := rfl
@[simp] theorem State.returnCells_boundaryDue (s : State) (k : Nat) : (s.returnCells k).boundaryDue = s.boundaryDue := rfl
@[simp] theorem State.returnCells_owed (s : State) (k : Nat) : (s.returnCells k).owed = s.owed := rfl
@[simp] theorem State.returnCells_circuits (s : State) (k : Nat) : (s.returnCells k).circuits = s.circuits := rfl
@[simp] theorem State.returnCells_channels (s : State) (k : Nat) : (s.returnCells k).channels = s.channels := rfl
@[simp] theorem State.returnCells_groups (s : State) (k : Nat) : (s.returnCells k).groups = s.groups := rfl
@[simp] theorem State.returnCells_spans (s : State) (k : Nat) : (s.returnCells k).spans = s.spans := rfl
@[simp] theorem State.returnCells_port (s : State) (k : Nat) : (s.returnCells k).port = s.port := rfl
@[simp] theorem State.returnCells_map (s : State) (k : Nat) : (s.returnCells k).map = s.map := rfl
@[simp] theorem State.returnCells_align (s : State) (k : Nat) : (s.returnCells k).align = s.align := rfl
@[simp] theorem State.returnCells_queue (s : State) (k : Nat) : (s.returnCells k).queue = s.queue := rfl
@[simp] theorem State.returnCells_admitting (s : State) (k : Nat) : (s.returnCells k).admitting = s.admitting := rfl
@[simp] theorem State.returnCells_contexts (s : State) (k : Nat) : (s.returnCells k).contexts = s.contexts := rfl
@[simp] theorem State.returnCells_peer (s : State) (k : Nat) : (s.returnCells k).peer = s.peer := rfl
@[simp] theorem State.returnCells_faults (s : State) (k : Nat) : (s.returnCells k).faults = s.faults := rfl
@[simp] theorem State.returnCells_linkA (s : State) (k : Nat) : (s.returnCells k).linkA = s.linkA := rfl
@[simp] theorem State.returnCells_linkB (s : State) (k : Nat) : (s.returnCells k).linkB = s.linkB := rfl
@[simp] theorem State.returnCells_out (s : State) (k : Nat) : (s.returnCells k).out = s.out := rfl

/-! ### forget -/

@[simp] theorem State.forget_pending (s : State) (e : BoundaryEvent) : (s.forget e).pending = s.pending := rfl
@[simp] theorem State.forget_powered (s : State) (e : BoundaryEvent) : (s.forget e).powered = s.powered := rfl
@[simp] theorem State.forget_resetCause (s : State) (e : BoundaryEvent) : (s.forget e).resetCause = s.resetCause := rfl
@[simp] theorem State.forget_ownAddress (s : State) (e : BoundaryEvent) : (s.forget e).ownAddress = s.ownAddress := rfl
@[simp] theorem State.forget_ownSite (s : State) (e : BoundaryEvent) : (s.forget e).ownSite = s.ownSite := rfl
@[simp] theorem State.forget_watchdogStrap (s : State) (e : BoundaryEvent) : (s.forget e).watchdogStrap = s.watchdogStrap := rfl
@[simp] theorem State.forget_frameCount (s : State) (e : BoundaryEvent) : (s.forget e).frameCount = s.frameCount := rfl
@[simp] theorem State.forget_stamp (s : State) (e : BoundaryEvent) : (s.forget e).stamp = s.stamp := rfl
@[simp] theorem State.forget_boundaryDue (s : State) (e : BoundaryEvent) : (s.forget e).boundaryDue = s.boundaryDue := rfl
@[simp] theorem State.forget_circuits (s : State) (e : BoundaryEvent) : (s.forget e).circuits = s.circuits := rfl
@[simp] theorem State.forget_channels (s : State) (e : BoundaryEvent) : (s.forget e).channels = s.channels := rfl
@[simp] theorem State.forget_groups (s : State) (e : BoundaryEvent) : (s.forget e).groups = s.groups := rfl
@[simp] theorem State.forget_spans (s : State) (e : BoundaryEvent) : (s.forget e).spans = s.spans := rfl
@[simp] theorem State.forget_port (s : State) (e : BoundaryEvent) : (s.forget e).port = s.port := rfl
@[simp] theorem State.forget_map (s : State) (e : BoundaryEvent) : (s.forget e).map = s.map := rfl
@[simp] theorem State.forget_align (s : State) (e : BoundaryEvent) : (s.forget e).align = s.align := rfl
@[simp] theorem State.forget_pool (s : State) (e : BoundaryEvent) : (s.forget e).pool = s.pool := rfl
@[simp] theorem State.forget_queue (s : State) (e : BoundaryEvent) : (s.forget e).queue = s.queue := rfl
@[simp] theorem State.forget_admitting (s : State) (e : BoundaryEvent) : (s.forget e).admitting = s.admitting := rfl
@[simp] theorem State.forget_contexts (s : State) (e : BoundaryEvent) : (s.forget e).contexts = s.contexts := rfl
@[simp] theorem State.forget_peer (s : State) (e : BoundaryEvent) : (s.forget e).peer = s.peer := rfl
@[simp] theorem State.forget_faults (s : State) (e : BoundaryEvent) : (s.forget e).faults = s.faults := rfl
@[simp] theorem State.forget_linkA (s : State) (e : BoundaryEvent) : (s.forget e).linkA = s.linkA := rfl
@[simp] theorem State.forget_linkB (s : State) (e : BoundaryEvent) : (s.forget e).linkB = s.linkB := rfl
@[simp] theorem State.forget_out (s : State) (e : BoundaryEvent) : (s.forget e).out = s.out := rfl

/-! ### raise -/

@[simp] theorem State.raise_pending (s : State) (e : Event) : (s.raise e).pending = s.pending := rfl
@[simp] theorem State.raise_powered (s : State) (e : Event) : (s.raise e).powered = s.powered := rfl
@[simp] theorem State.raise_resetCause (s : State) (e : Event) : (s.raise e).resetCause = s.resetCause := rfl
@[simp] theorem State.raise_ownAddress (s : State) (e : Event) : (s.raise e).ownAddress = s.ownAddress := rfl
@[simp] theorem State.raise_ownSite (s : State) (e : Event) : (s.raise e).ownSite = s.ownSite := rfl
@[simp] theorem State.raise_watchdogStrap (s : State) (e : Event) : (s.raise e).watchdogStrap = s.watchdogStrap := rfl
@[simp] theorem State.raise_frameCount (s : State) (e : Event) : (s.raise e).frameCount = s.frameCount := rfl
@[simp] theorem State.raise_stamp (s : State) (e : Event) : (s.raise e).stamp = s.stamp := rfl
@[simp] theorem State.raise_boundaryDue (s : State) (e : Event) : (s.raise e).boundaryDue = s.boundaryDue := rfl
@[simp] theorem State.raise_owed (s : State) (e : Event) : (s.raise e).owed = s.owed := rfl
@[simp] theorem State.raise_circuits (s : State) (e : Event) : (s.raise e).circuits = s.circuits := rfl
@[simp] theorem State.raise_channels (s : State) (e : Event) : (s.raise e).channels = s.channels := rfl
@[simp] theorem State.raise_groups (s : State) (e : Event) : (s.raise e).groups = s.groups := rfl
@[simp] theorem State.raise_spans (s : State) (e : Event) : (s.raise e).spans = s.spans := rfl
@[simp] theorem State.raise_port (s : State) (e : Event) : (s.raise e).port = s.port := rfl
@[simp] theorem State.raise_map (s : State) (e : Event) : (s.raise e).map = s.map := rfl
@[simp] theorem State.raise_align (s : State) (e : Event) : (s.raise e).align = s.align := rfl
@[simp] theorem State.raise_pool (s : State) (e : Event) : (s.raise e).pool = s.pool := rfl
@[simp] theorem State.raise_queue (s : State) (e : Event) : (s.raise e).queue = s.queue := rfl
@[simp] theorem State.raise_admitting (s : State) (e : Event) : (s.raise e).admitting = s.admitting := rfl
@[simp] theorem State.raise_contexts (s : State) (e : Event) : (s.raise e).contexts = s.contexts := rfl
@[simp] theorem State.raise_peer (s : State) (e : Event) : (s.raise e).peer = s.peer := rfl
@[simp] theorem State.raise_faults (s : State) (e : Event) : (s.raise e).faults = s.faults := rfl
@[simp] theorem State.raise_out (s : State) (e : Event) : (s.raise e).out = s.out := rfl

/-! ### setLink -/

@[simp] theorem State.setLink_pending (s : State) (l : Link) (k : LinkRec) : (s.setLink l k).pending = s.pending := by cases l <;> rfl
@[simp] theorem State.setLink_powered (s : State) (l : Link) (k : LinkRec) : (s.setLink l k).powered = s.powered := by cases l <;> rfl
@[simp] theorem State.setLink_resetCause (s : State) (l : Link) (k : LinkRec) : (s.setLink l k).resetCause = s.resetCause := by cases l <;> rfl
@[simp] theorem State.setLink_ownAddress (s : State) (l : Link) (k : LinkRec) : (s.setLink l k).ownAddress = s.ownAddress := by cases l <;> rfl
@[simp] theorem State.setLink_ownSite (s : State) (l : Link) (k : LinkRec) : (s.setLink l k).ownSite = s.ownSite := by cases l <;> rfl
@[simp] theorem State.setLink_watchdogStrap (s : State) (l : Link) (k : LinkRec) : (s.setLink l k).watchdogStrap = s.watchdogStrap := by cases l <;> rfl
@[simp] theorem State.setLink_frameCount (s : State) (l : Link) (k : LinkRec) : (s.setLink l k).frameCount = s.frameCount := by cases l <;> rfl
@[simp] theorem State.setLink_stamp (s : State) (l : Link) (k : LinkRec) : (s.setLink l k).stamp = s.stamp := by cases l <;> rfl
@[simp] theorem State.setLink_boundaryDue (s : State) (l : Link) (k : LinkRec) : (s.setLink l k).boundaryDue = s.boundaryDue := by cases l <;> rfl
@[simp] theorem State.setLink_owed (s : State) (l : Link) (k : LinkRec) : (s.setLink l k).owed = s.owed := by cases l <;> rfl
@[simp] theorem State.setLink_circuits (s : State) (l : Link) (k : LinkRec) : (s.setLink l k).circuits = s.circuits := by cases l <;> rfl
@[simp] theorem State.setLink_channels (s : State) (l : Link) (k : LinkRec) : (s.setLink l k).channels = s.channels := by cases l <;> rfl
@[simp] theorem State.setLink_groups (s : State) (l : Link) (k : LinkRec) : (s.setLink l k).groups = s.groups := by cases l <;> rfl
@[simp] theorem State.setLink_spans (s : State) (l : Link) (k : LinkRec) : (s.setLink l k).spans = s.spans := by cases l <;> rfl
@[simp] theorem State.setLink_port (s : State) (l : Link) (k : LinkRec) : (s.setLink l k).port = s.port := by cases l <;> rfl
@[simp] theorem State.setLink_map (s : State) (l : Link) (k : LinkRec) : (s.setLink l k).map = s.map := by cases l <;> rfl
@[simp] theorem State.setLink_align (s : State) (l : Link) (k : LinkRec) : (s.setLink l k).align = s.align := by cases l <;> rfl
@[simp] theorem State.setLink_pool (s : State) (l : Link) (k : LinkRec) : (s.setLink l k).pool = s.pool := by cases l <;> rfl
@[simp] theorem State.setLink_queue (s : State) (l : Link) (k : LinkRec) : (s.setLink l k).queue = s.queue := by cases l <;> rfl
@[simp] theorem State.setLink_admitting (s : State) (l : Link) (k : LinkRec) : (s.setLink l k).admitting = s.admitting := by cases l <;> rfl
@[simp] theorem State.setLink_contexts (s : State) (l : Link) (k : LinkRec) : (s.setLink l k).contexts = s.contexts := by cases l <;> rfl
@[simp] theorem State.setLink_peer (s : State) (l : Link) (k : LinkRec) : (s.setLink l k).peer = s.peer := by cases l <;> rfl
@[simp] theorem State.setLink_faults (s : State) (l : Link) (k : LinkRec) : (s.setLink l k).faults = s.faults := by cases l <;> rfl
@[simp] theorem State.setLink_out (s : State) (l : Link) (k : LinkRec) : (s.setLink l k).out = s.out := by cases l <;> rfl

/-! ### modLink -/

@[simp] theorem State.modLink_pending (s : State) (l : Link) (f : LinkRec → LinkRec) : (s.modLink l f).pending = s.pending := by cases l <;> rfl
@[simp] theorem State.modLink_powered (s : State) (l : Link) (f : LinkRec → LinkRec) : (s.modLink l f).powered = s.powered := by cases l <;> rfl
@[simp] theorem State.modLink_resetCause (s : State) (l : Link) (f : LinkRec → LinkRec) : (s.modLink l f).resetCause = s.resetCause := by cases l <;> rfl
@[simp] theorem State.modLink_ownAddress (s : State) (l : Link) (f : LinkRec → LinkRec) : (s.modLink l f).ownAddress = s.ownAddress := by cases l <;> rfl
@[simp] theorem State.modLink_ownSite (s : State) (l : Link) (f : LinkRec → LinkRec) : (s.modLink l f).ownSite = s.ownSite := by cases l <;> rfl
@[simp] theorem State.modLink_watchdogStrap (s : State) (l : Link) (f : LinkRec → LinkRec) : (s.modLink l f).watchdogStrap = s.watchdogStrap := by cases l <;> rfl
@[simp] theorem State.modLink_frameCount (s : State) (l : Link) (f : LinkRec → LinkRec) : (s.modLink l f).frameCount = s.frameCount := by cases l <;> rfl
@[simp] theorem State.modLink_stamp (s : State) (l : Link) (f : LinkRec → LinkRec) : (s.modLink l f).stamp = s.stamp := by cases l <;> rfl
@[simp] theorem State.modLink_boundaryDue (s : State) (l : Link) (f : LinkRec → LinkRec) : (s.modLink l f).boundaryDue = s.boundaryDue := by cases l <;> rfl
@[simp] theorem State.modLink_owed (s : State) (l : Link) (f : LinkRec → LinkRec) : (s.modLink l f).owed = s.owed := by cases l <;> rfl
@[simp] theorem State.modLink_circuits (s : State) (l : Link) (f : LinkRec → LinkRec) : (s.modLink l f).circuits = s.circuits := by cases l <;> rfl
@[simp] theorem State.modLink_channels (s : State) (l : Link) (f : LinkRec → LinkRec) : (s.modLink l f).channels = s.channels := by cases l <;> rfl
@[simp] theorem State.modLink_groups (s : State) (l : Link) (f : LinkRec → LinkRec) : (s.modLink l f).groups = s.groups := by cases l <;> rfl
@[simp] theorem State.modLink_spans (s : State) (l : Link) (f : LinkRec → LinkRec) : (s.modLink l f).spans = s.spans := by cases l <;> rfl
@[simp] theorem State.modLink_port (s : State) (l : Link) (f : LinkRec → LinkRec) : (s.modLink l f).port = s.port := by cases l <;> rfl
@[simp] theorem State.modLink_map (s : State) (l : Link) (f : LinkRec → LinkRec) : (s.modLink l f).map = s.map := by cases l <;> rfl
@[simp] theorem State.modLink_align (s : State) (l : Link) (f : LinkRec → LinkRec) : (s.modLink l f).align = s.align := by cases l <;> rfl
@[simp] theorem State.modLink_pool (s : State) (l : Link) (f : LinkRec → LinkRec) : (s.modLink l f).pool = s.pool := by cases l <;> rfl
@[simp] theorem State.modLink_queue (s : State) (l : Link) (f : LinkRec → LinkRec) : (s.modLink l f).queue = s.queue := by cases l <;> rfl
@[simp] theorem State.modLink_admitting (s : State) (l : Link) (f : LinkRec → LinkRec) : (s.modLink l f).admitting = s.admitting := by cases l <;> rfl
@[simp] theorem State.modLink_contexts (s : State) (l : Link) (f : LinkRec → LinkRec) : (s.modLink l f).contexts = s.contexts := by cases l <;> rfl
@[simp] theorem State.modLink_peer (s : State) (l : Link) (f : LinkRec → LinkRec) : (s.modLink l f).peer = s.peer := by cases l <;> rfl
@[simp] theorem State.modLink_faults (s : State) (l : Link) (f : LinkRec → LinkRec) : (s.modLink l f).faults = s.faults := by cases l <;> rfl
@[simp] theorem State.modLink_out (s : State) (l : Link) (f : LinkRec → LinkRec) : (s.modLink l f).out = s.out := by cases l <;> rfl

/-! ### answer -/

@[simp] theorem State.answer_pending (s : State) (l : Link) (st : Status) (data : List Byte) : (s.answer l st data).pending = s.pending := by cases l <;> rfl
@[simp] theorem State.answer_powered (s : State) (l : Link) (st : Status) (data : List Byte) : (s.answer l st data).powered = s.powered := by cases l <;> rfl
@[simp] theorem State.answer_resetCause (s : State) (l : Link) (st : Status) (data : List Byte) : (s.answer l st data).resetCause = s.resetCause := by cases l <;> rfl
@[simp] theorem State.answer_ownAddress (s : State) (l : Link) (st : Status) (data : List Byte) : (s.answer l st data).ownAddress = s.ownAddress := by cases l <;> rfl
@[simp] theorem State.answer_ownSite (s : State) (l : Link) (st : Status) (data : List Byte) : (s.answer l st data).ownSite = s.ownSite := by cases l <;> rfl
@[simp] theorem State.answer_watchdogStrap (s : State) (l : Link) (st : Status) (data : List Byte) : (s.answer l st data).watchdogStrap = s.watchdogStrap := by cases l <;> rfl
@[simp] theorem State.answer_frameCount (s : State) (l : Link) (st : Status) (data : List Byte) : (s.answer l st data).frameCount = s.frameCount := by cases l <;> rfl
@[simp] theorem State.answer_stamp (s : State) (l : Link) (st : Status) (data : List Byte) : (s.answer l st data).stamp = s.stamp := by cases l <;> rfl
@[simp] theorem State.answer_boundaryDue (s : State) (l : Link) (st : Status) (data : List Byte) : (s.answer l st data).boundaryDue = s.boundaryDue := by cases l <;> rfl
@[simp] theorem State.answer_owed (s : State) (l : Link) (st : Status) (data : List Byte) : (s.answer l st data).owed = s.owed := by cases l <;> rfl
@[simp] theorem State.answer_circuits (s : State) (l : Link) (st : Status) (data : List Byte) : (s.answer l st data).circuits = s.circuits := by cases l <;> rfl
@[simp] theorem State.answer_channels (s : State) (l : Link) (st : Status) (data : List Byte) : (s.answer l st data).channels = s.channels := by cases l <;> rfl
@[simp] theorem State.answer_groups (s : State) (l : Link) (st : Status) (data : List Byte) : (s.answer l st data).groups = s.groups := by cases l <;> rfl
@[simp] theorem State.answer_spans (s : State) (l : Link) (st : Status) (data : List Byte) : (s.answer l st data).spans = s.spans := by cases l <;> rfl
@[simp] theorem State.answer_port (s : State) (l : Link) (st : Status) (data : List Byte) : (s.answer l st data).port = s.port := by cases l <;> rfl
@[simp] theorem State.answer_map (s : State) (l : Link) (st : Status) (data : List Byte) : (s.answer l st data).map = s.map := by cases l <;> rfl
@[simp] theorem State.answer_align (s : State) (l : Link) (st : Status) (data : List Byte) : (s.answer l st data).align = s.align := by cases l <;> rfl
@[simp] theorem State.answer_pool (s : State) (l : Link) (st : Status) (data : List Byte) : (s.answer l st data).pool = s.pool := by cases l <;> rfl
@[simp] theorem State.answer_queue (s : State) (l : Link) (st : Status) (data : List Byte) : (s.answer l st data).queue = s.queue := by cases l <;> rfl
@[simp] theorem State.answer_admitting (s : State) (l : Link) (st : Status) (data : List Byte) : (s.answer l st data).admitting = s.admitting := by cases l <;> rfl
@[simp] theorem State.answer_contexts (s : State) (l : Link) (st : Status) (data : List Byte) : (s.answer l st data).contexts = s.contexts := by cases l <;> rfl
@[simp] theorem State.answer_peer (s : State) (l : Link) (st : Status) (data : List Byte) : (s.answer l st data).peer = s.peer := by cases l <;> rfl
@[simp] theorem State.answer_faults (s : State) (l : Link) (st : Status) (data : List Byte) : (s.answer l st data).faults = s.faults := by cases l <;> rfl
@[simp] theorem State.answer_out (s : State) (l : Link) (st : Status) (data : List Byte) : (s.answer l st data).out = s.out := by cases l <;> rfl

/-! ### Reading one record after an update -/

theorem State.circuit_setCircuit (s : State) (n m : Nat) (c : Circuit) :
    (s.setCircuit n c).circuit m = if m = n ∧ n < 480 then c else s.circuit m :=
  Table.at_put_at _ _ _ _ _

theorem State.circuit_modCircuit (s : State) (n m : Nat) (f : Circuit → Circuit) :
    (s.modCircuit n f).circuit m = if m = n ∧ n < 480 then f (s.circuit n) else s.circuit m :=
  Table.at_put_at _ _ _ _ _

theorem State.group_modGroup (s : State) (n m : Nat) (f : Group → Group) :
    (s.modGroup n f).group m = if m = n ∧ n < 16 then f (s.group n) else s.group m :=
  Table.at_put_at _ _ _ _ _

theorem State.span_modSpan (s : State) (n m : Nat) (f : Span → Span) :
    (s.modSpan n f).span m = if m = n ∧ n < 16 then f (s.span n) else s.span m :=
  Table.at_put_at _ _ _ _ _

theorem State.ctx_setCtx (s : State) (n m : Nat) (x : Ctx) :
    (s.setCtx n x).ctx m = if m = n ∧ n < 8 then x else s.ctx m :=
  Table.at_put_at _ _ _ _ _

theorem State.ctx_modCtx (s : State) (n m : Nat) (f : Ctx → Ctx) :
    (s.modCtx n f).ctx m = if m = n ∧ n < 8 then f (s.ctx n) else s.ctx m :=
  Table.at_put_at _ _ _ _ _

@[simp] theorem State.link_setLink_same (s : State) (l : Link) (k : LinkRec) : (s.setLink l k).link l = k := by
  cases l <;> rfl

@[simp] theorem State.link_modLink_same (s : State) (l : Link) (f : LinkRec → LinkRec) :
    (s.modLink l f).link l = f (s.link l) := by
  cases l <;> rfl

theorem State.link_modLink_other (s : State) (l m : Link) (f : LinkRec → LinkRec) (h : m ≠ l) :
    (s.modLink l f).link m = s.link m := by
  cases l <;> cases m <;> first | rfl | exact absurd rfl h

/-- A read of one circuit depends on the circuits alone; likewise for the other tables. -/
theorem State.circuit_congr {s t : State} (h : t.circuits = s.circuits) (n : Nat) : t.circuit n = s.circuit n := by
  simp [State.circuit, h]

theorem State.group_congr {s t : State} (h : t.groups = s.groups) (n : Nat) : t.group n = s.group n := by
  simp [State.group, h]

theorem State.span_congr {s t : State} (h : t.spans = s.spans) (n : Nat) : t.span n = s.span n := by
  simp [State.span, h]

theorem State.ctx_congr {s t : State} (h : t.contexts = s.contexts) (n : Nat) : t.ctx n = s.ctx n := by
  simp [State.ctx, h]

end Sys2Proof.Machine
end

