-- ==== Sys2Proof/Laws/Settle.lean ====
section
/-! SUPPORT. Laws/Settle.lean: a state with nothing due at once is settled; how a row and a command are taken there. -/

namespace Sys2Proof.Machine

theorem State.servicePool_of_not_due {s : State} (h : s.poolDue = false) (k : Nat) : s.servicePool k = s := by
  cases k with
  | zero => rfl
  | succ k =>
    cases hw : s.pool.waitList with
    | nil => simp [State.servicePool, hw]
    | cons c rest => simp [State.servicePool, hw, h]

theorem State.serviceAll_of_not_due {s : State} (h : s.poolDue = false) : s.serviceAll = s :=
  State.servicePool_of_not_due h 8

theorem State.settleContext_of_quiet {s : State} {c : Nat} (hp : s.poolDue = false) (h : s.quietAt c = true) :
    s.settleContext c = s := by
  simp only [State.quietAt, Bool.and_eq_true, Bool.not_eq_true'] at h
  obtain ⟨⟨h1, h2⟩, h3⟩ := h
  simp [State.settleContext, State.serviceAll_of_not_due hp, State.completeIfDue, State.startIfDue,
    State.measureIfDue, h1, h2, h3]

theorem State.foldl_settleContext {s : State} (hp : s.poolDue = false) (cs : List Nat)
    (h : cs.all s.quietAt = true) : cs.foldl State.settleContext s = s := by
  induction cs with
  | nil => rfl
  | cons c rest ih =>
    simp only [List.all_cons, Bool.and_eq_true] at h
    simp only [List.foldl_cons, State.settleContext_of_quiet hp h.1]
    exact ih h.2

/-- Where nothing falls due at once, settling changes nothing. -/
theorem State.settle_of_quiet {s : State} (h : s.quiet = true) : s.settle = s := by
  simp only [State.quiet, Bool.and_eq_true, Bool.not_eq_true'] at h
  obtain ⟨⟨h1, h2⟩, h3⟩ := h
  simp [State.settle, State.declareSilentIfDue, h1, State.foldl_settleContext h2 _ h3,
    State.serviceAll_of_not_due h2]

theorem State.event_of_quiet {s : State} (hp : s.powered = true) (h : s.quiet = true) (act : State → State) :
    s.event act = act s := by
  simp [State.event, hp, State.settle_of_quiet h]

theorem State.event_unpowered {s : State} (hp : s.powered = false) (act : State → State) : s.event act = s := by
  simp [State.event, hp]

theorem State.owedEvent_of_quiet {s : State} (hp : s.powered = true) (h : s.quiet = true) (e : BoundaryEvent)
    (act : State → State) : s.owedEvent e act = if s.owed.contains e then act (s.forget e) else s := by
  simp only [State.owedEvent, State.event_of_quiet hp h, State.takeOwed]

/-- A command that its link carries, to a block whose role it has: the block's outcome, answered. -/
theorem State.command_of_takes {s : State} {l : Link} {role : CommandRole} {i : Instr} (hp : s.powered = true)
    (h : s.quiet = true) (ht : s.takes l i = true) (hr : role.permits l = true) (body : State → Reply) :
    s.command l role i body = (body s).state.respond l (body s).status (body s).data := by
  simp [State.command, State.event_of_quiet hp h, ht, hr]

/-- A command from the wrong role is answered NOT_PERMITTED. -/
theorem State.command_wrong_role {s : State} {l : Link} {role : CommandRole} {i : Instr} (hp : s.powered = true)
    (h : s.quiet = true) (ht : s.takes l i = true) (hr : role.permits l = false) (body : State → Reply) :
    s.command l role i body = s.respond l .notPermitted [] := by
  simp [State.command, State.event_of_quiet hp h, ht, hr]

end Sys2Proof.Machine
end

