-- ==== Sys2Proof/Laws/Commands.lean ====
section
/-! SUPPORT. Laws/Commands.lean: what a row or a controller command comes to at a part that rests, in the words of
Safety.lean. -/

namespace Sys2Proof.Machine

theorem State.respond_eq (s : State) (l : Link) (st : Status) (d : List Byte) :
    s.respond l st d = s.replied l st d := by cases l <;> rfl

/-- A command that is heard, from a link with its role: its block's outcome, answered. -/
theorem State.command_heard {s : State} {l : Link} {role : CommandRole} {i : Instr} (h : s.hears l i)
    (hr : role.permits l = true) (body : State → Reply) :
    s.command l role i body = (body s).state.replied l (body s).status (body s).data := by
  rw [State.command_of_takes h.1 h.2.1 h.2.2 hr, State.respond_eq]

/-- A command that is heard, from a link without its role. -/
theorem State.command_refused {s : State} {l : Link} {role : CommandRole} {i : Instr} (h : s.hears l i)
    (hr : role.permits l = false) (body : State → Reply) :
    s.command l role i body = s.replied l .notPermitted [] := by
  rw [State.command_wrong_role h.1 h.2.1 h.2.2 hr, State.respond_eq]

theorem State.event_rests {s : State} (h : s.rests) (act : State → State) : s.event act = act s :=
  State.event_of_quiet h.1 h.2 act

/-- An event that is owed at a part that rests. -/
theorem State.owedEvent_rests {s : State} {e : BoundaryEvent} (h : s.rests) (ho : e ∈ s.owed) (act : State → State) :
    s.owedEvent e act = act (s.forget e) := by
  rw [State.owedEvent_of_quiet h.1 h.2, if_pos (by simpa using ho)]

/-- An event that is not owed does not occur. -/
theorem State.owedEvent_not_owed {s : State} {e : BoundaryEvent} (h : s.rests) (ho : e ∉ s.owed)
    (act : State → State) : s.owedEvent e act = s := by
  rw [State.owedEvent_of_quiet h.1 h.2, if_neg (by simpa using ho)]

/-- A row of an event that falls due at its cause's own event, at a part that rests: the pool has nothing to serve. -/
theorem State.serviceAll_rests {s : State} (h : s.rests) : s.serviceAll = s := by
  have := h.2
  simp only [State.quiet, Bool.and_eq_true, Bool.not_eq_true'] at this
  exact State.serviceAll_of_not_due this.1.2

end Sys2Proof.Machine
end

