-- ==== Sys2Proof/Laws/Conditioning.lean ====
section
/-! SUPPORT. Laws/Conditioning.lean: what the derivation of call states and the evaluation of conditioning can do, said
once (R29 to R34, R105, R164). -/

namespace Sys2Proof.Machine

/-- From `s` to `t` only call states and conditioning have been evaluated again, and only for the circuits of `ns`: with
them go the backward filter, a residual dropped at IDLE with its cells, the two counts of groups, and notices. -/
structure Rederived (ns : List Nat) (s t : State) : Prop where
  same : t = { s with
    circuits := t.circuits, groups := t.groups, pool := t.pool, linkA := t.linkA, linkB := t.linkB }
  others : ∀ m, m ∉ ns → t.circuit m = s.circuit m
  circuit : ∀ m, t.circuit m = { s.circuit m with
    backward := (t.circuit m).backward, call := (t.circuit m).call, conditioned := (t.circuit m).conditioned
    residual := (t.circuit m).residual, cellsHeld := (t.circuit m).cellsHeld
    copperLine := (t.circuit m).copperLine, fibreLine := (t.circuit m).fibreLine }
  group : ∀ g, t.group g = { s.group g with
    busyCount := (t.group g).busyCount, seizureCount := (t.group g).seizureCount }
  pool : t.pool = { s.pool with free := t.pool.free }

namespace Rederived

theorem refl (ns : List Nat) (s : State) : Rederived ns s s := ⟨rfl, fun _ _ => rfl, fun _ => rfl, fun _ => rfl, rfl⟩

theorem trans {ns : List Nat} {s t u : State} (h : Rederived ns s t) (k : Rederived ns t u) : Rederived ns s u where
  same := by rw [k.same, h.same]
  others := fun m hm => (k.others m hm).trans (h.others m hm)
  circuit := fun m => by rw [k.circuit m, h.circuit m]
  group := fun g => by rw [k.group g, h.group g]
  pool := by rw [k.pool, h.pool]

theorem mono {ns ms : List Nat} {s t : State} (h : Rederived ns s t) (hs : ∀ n, n ∈ ns → n ∈ ms) : Rederived ms s t :=
  ⟨h.same, fun m hm => h.others m (fun hn => hm (hs m hn)), h.circuit, h.group, h.pool⟩

theorem foldl {f : State → Nat → State} (h : ∀ t n, Rederived [n] t (f t n)) (ns : List Nat) (s : State) :
    Rederived ns s (ns.foldl f s) := by
  induction ns generalizing s with
  | nil => exact refl _ s
  | cons n rest ih =>
    exact ((h s n).mono (by simp)).trans ((ih (f s n)).mono (fun m hm => List.mem_cons_of_mem _ hm))

theorem links (ns : List Nat) (s : State) (a b : LinkRec) : Rederived ns s { s with linkA := a, linkB := b } :=
  ⟨rfl, fun _ _ => rfl, fun _ => rfl, fun _ => rfl, rfl⟩

theorem raise (ns : List Nat) (s : State) (e : Event) : Rederived ns s (s.raise e) := links ns s _ _

theorem raiseIf (ns : List Nat) (s : State) (e : Option Event) : Rederived ns s (s.raiseIf e) := by
  cases e with
  | none => exact refl ns s
  | some e => exact raise ns s e

/-- One circuit changed in the fields that the derivation may change. -/
theorem modCircuit {s : State} {n : Nat} {f : Circuit → Circuit}
    (h : f (s.circuit n) = { s.circuit n with
      backward := (f (s.circuit n)).backward, call := (f (s.circuit n)).call
      conditioned := (f (s.circuit n)).conditioned, residual := (f (s.circuit n)).residual
      cellsHeld := (f (s.circuit n)).cellsHeld, copperLine := (f (s.circuit n)).copperLine
      fibreLine := (f (s.circuit n)).fibreLine }) : Rederived [n] s (s.modCircuit n f) where
  same := rfl
  others := fun m hm => by
    rw [State.circuit_modCircuit, if_neg]; exact fun hc => hm (by simp [hc.1])
  circuit := fun m => by
    rw [State.circuit_modCircuit]
    split
    · next hm => rw [hm.1]; exact h
    · rfl
  group := fun _ => rfl
  pool := rfl

theorem modGroup {ns : List Nat} {s : State} {n : Nat} {f : Group → Group}
    (h : ∀ g, f g = { g with busyCount := (f g).busyCount, seizureCount := (f g).seizureCount }) :
    Rederived ns s (s.modGroup n f) where
  same := rfl
  others := fun _ _ => rfl
  circuit := fun _ => rfl
  group := fun g => by
    rw [State.group_modGroup]
    split
    · next hg => rw [hg.1]; exact h _
    · rfl
  pool := rfl

theorem returnCells (ns : List Nat) (s : State) (k : Nat) : Rederived ns s (s.returnCells k) :=
  ⟨rfl, fun _ _ => rfl, fun _ => rfl, fun _ => rfl, rfl⟩

theorem dropResidual (s : State) (n : Nat) : Rederived [n] s (s.dropResidual n) := by
  refine (modCircuit ?_).trans (returnCells _ _ _)
  cases h : (s.circuit n).residualPath <;> simp [Circuit.dropOn, Circuit.setLine, h]

theorem dropAtIdle (s : State) (n : Nat) : Rederived [n] s (s.dropAtIdle n) := by
  unfold State.dropAtIdle
  split
  · exact refl _ s
  · exact (dropResidual s n).trans (raise _ _ _)

theorem countChange (g : Group) (a b : CallState) : g.countChange a b = { g with
    busyCount := (g.countChange a b).busyCount, seizureCount := (g.countChange a b).seizureCount } := by
  cases a <;> cases b <;> rfl

theorem changeCall (s : State) (n : Nat) (new : CallState) : Rederived [n] s (s.changeCall n new) := by
  have h : Rederived [n] s (((s.modCircuit n (fun c => { c with call := new })).modGroup (s.circuit n).group
      (fun g => g.countChange (s.circuit n).call new)).raiseIf (callNotice n (s.circuit n).call new)) :=
    ((modCircuit rfl).trans (modGroup (fun g => countChange g _ _))).trans (raiseIf _ _ _)
  simp only [State.changeCall]
  split
  · exact h.trans (dropAtIdle _ n)
  · exact h

theorem deriveCall (s : State) (n : Nat) : Rederived [n] s (s.deriveCall n) := by
  unfold State.deriveCall
  split
  · exact refl _ s
  · exact changeCall s n _

theorem recondition (s : State) (n : Nat) : Rederived [n] s (s.recondition n) := by
  unfold State.recondition
  split
  · exact refl _ s
  · split
    · exact modCircuit rfl
    · exact (modCircuit rfl).trans (deriveCall _ n)

theorem reconditionAll (s : State) (ns : List Nat) : Rederived ns s (s.reconditionAll ns) := foldl recondition ns s

/-- R164's condition reads nothing that a derivation changes. -/
theorem wants {ns : List Nat} {s t : State} (h : Rederived ns s t) (n : Nat) :
    t.wantsConditioning n = s.wantsConditioning n := by
  have hs := h.same
  have hc := h.circuit n
  have h1 : (t.circuit n).equipped = (s.circuit n).equipped := by rw [hc]
  have h2 : (t.circuit n).state = (s.circuit n).state := by rw [hc]
  have h3 : (t.circuit n).receive = (s.circuit n).receive := by rw [hc]
  have h4 : (t.circuit n).slot = (s.circuit n).slot := by rw [hc]
  have h5 : t.spans = s.spans := by rw [hs]
  have h6 : t.faults = s.faults := by rw [hs]
  have h7 : t.port = s.port := by rw [hs]
  simp only [State.wantsConditioning, State.pathless, State.copperDown, State.fibreDown, State.liveWith, State.fault,
    State.ownSlotLive, State.slotLive, State.slotCode, State.span, h1, h2, h3, h4, h5, h6, h7]

end Rederived

/-! ### Conditioning follows its condition -/

theorem State.circuit_raiseIf (s : State) (e : Option Event) (m : Nat) : (s.raiseIf e).circuit m = s.circuit m := by
  cases e <;> rfl

theorem State.circuit_modGroup (s : State) (g : Nat) (f : Group → Group) (m : Nat) :
    (s.modGroup g f).circuit m = s.circuit m := rfl

/-- A derivation leaves the conditioned marks. -/
theorem State.conditioned_changeCall (s : State) (n m : Nat) (new : CallState) :
    ((s.changeCall n new).circuit m).conditioned = (s.circuit m).conditioned := by
  have key : ∀ t : State, ((t.dropAtIdle n).circuit m).conditioned = (t.circuit m).conditioned := by
    intro t
    unfold State.dropAtIdle
    split
    · rfl
    · change ((t.modCircuit n (fun c => { c.dropOn c.residualPath with residual := 0, cellsHeld := 0 })).circuit
        m).conditioned = _
      rw [State.circuit_modCircuit]
      split
      · next hm => rw [hm.1]; cases (t.circuit n).residualPath <;> rfl
      · rfl
  simp only [State.changeCall]
  split
  · rw [key, State.circuit_raiseIf, State.circuit_modGroup, State.circuit_modCircuit]
    split
    · next hm => rw [hm.1]
    · rfl
  · rw [State.circuit_raiseIf, State.circuit_modGroup, State.circuit_modCircuit]
    split
    · next hm => rw [hm.1]
    · rfl

theorem State.conditioned_deriveCall (s : State) (n m : Nat) :
    ((s.deriveCall n).circuit m).conditioned = (s.circuit m).conditioned := by
  unfold State.deriveCall
  split
  · rfl
  · exact State.conditioned_changeCall s n m _

/-- A circuit whose conditioning is right already is left alone. -/
theorem State.recondition_of_right {s : State} {n : Nat} (h : (s.circuit n).conditioned = s.wantsConditioning n) :
    s.recondition n = s := by
  unfold State.recondition; rw [if_pos h.symm]

/-- After the evaluation for a circuit its conditioned mark is R164's condition. -/
theorem State.conditioned_recondition {s : State} {n : Nat} (h : n < 480) :
    ((s.recondition n).circuit n).conditioned = s.wantsConditioning n := by
  unfold State.recondition
  split
  · next hw => exact hw.symm
  · next hw =>
    split
    · next hc =>
      rw [State.circuit_modCircuit, if_pos ⟨rfl, h⟩]
      cases hx : s.wantsConditioning n
      · rfl
      · exact absurd (by rw [hx, hc]) hw
    · next hc =>
      rw [State.conditioned_deriveCall, State.circuit_modCircuit, if_pos ⟨rfl, h⟩]
      cases hx : s.wantsConditioning n
      · exact absurd (by rw [hx]; cases hy : (s.circuit n).conditioned
                         · rfl
                         · exact absurd hy hc) hw
      · rfl

/-- After the evaluation for several circuits the mark of each is R164's condition, and that of every other circuit is
what it was. -/
theorem State.conditioned_reconditionAll {s : State} {ns : List Nat} {n : Nat} (h : n < 480) :
    ((s.reconditionAll ns).circuit n).conditioned
      = if n ∈ ns then s.wantsConditioning n else (s.circuit n).conditioned := by
  induction ns generalizing s with
  | nil => rfl
  | cons k rest ih =>
    have hr := Rederived.recondition s k
    change ((State.reconditionAll (s.recondition k) rest).circuit n).conditioned = _
    rw [ih, hr.wants]
    by_cases hn : n ∈ rest
    · simp [hn]
    · by_cases hk : n = k
      · subst hk; simp [hn, State.conditioned_recondition h]
      · simp [hn, hk, hr.others n (by simp [hk])]

/-- Where every circuit of the list is right already, nothing changes. -/
theorem State.reconditionAll_of_right {s : State} {ns : List Nat}
    (h : ∀ n, n ∈ ns → (s.circuit n).conditioned = s.wantsConditioning n) : s.reconditionAll ns = s := by
  induction ns with
  | nil => rfl
  | cons k rest ih =>
    have hk := State.recondition_of_right (h k (by simp))
    change State.reconditionAll (s.recondition k) rest = s
    rw [hk]; exact ih (fun n hn => h n (List.mem_cons_of_mem _ hn))

end Sys2Proof.Machine
end

