-- ==== Sys2Proof/Laws/Contexts.lean ====
section
/-! SUPPORT. Laws/Contexts.lean: what an operation of one migration context can do to the part, said once (chapters 6 and
7): aborts, deferrals, returns, completions, switches, attempts and services. -/

namespace Sys2Proof.Machine

/-- From `s` to `t` context `c` has been worked on, and its circuit with it. No other context and no other circuit
changes; of the circuit neither its provisioning nor its slot; of the advertisements neither places nor slots. -/
structure Worked (c : Nat) (s t : State) : Prop where
  same : t = { s with
    owed := t.owed, circuits := t.circuits, groups := t.groups, contexts := t.contexts, queue := t.queue
    pool := t.pool, peer := t.peer, linkA := t.linkA, linkB := t.linkB }
  contexts : ∀ k, k ≠ c → t.ctx k = s.ctx k
  circuits : ∀ m, m ≠ (s.ctx c).circuit → t.circuit m = s.circuit m
  names : (t.ctx c).circuit = (s.ctx c).circuit ∧ (t.ctx c).slot = (s.ctx c).slot
    ∧ (t.ctx c).direction = (s.ctx c).direction ∧ (t.ctx c).origin = (s.ctx c).origin
    ∧ (t.ctx c).policy = (s.ctx c).policy ∧ (t.ctx c).lastStep = (s.ctx c).lastStep
    ∧ (t.ctx c).peerEntry = (s.ctx c).peerEntry ∧ (t.ctx c).role = (s.ctx c).role
  provisioning : ∀ m, (t.circuit m).equipped = (s.circuit m).equipped ∧ (t.circuit m).group = (s.circuit m).group
    ∧ (t.circuit m).cls = (s.circuit m).cls ∧ (t.circuit m).held = (s.circuit m).held
    ∧ (t.circuit m).slot = (s.circuit m).slot ∧ (t.circuit m).forward = (s.circuit m).forward
    ∧ (t.circuit m).copperLast = (s.circuit m).copperLast ∧ (t.circuit m).fibreLast = (s.circuit m).fibreLast
  group : ∀ g, t.group g = { s.group g with
    busyCount := (t.group g).busyCount, seizureCount := (t.group g).seizureCount }
  peer : t.peer = { s.peer with adverts := t.peer.adverts, serial := t.peer.serial }
  adverts : t.peer.adverts.map Advert.slot = s.peer.adverts.map Advert.slot

namespace Worked

theorem refl (c : Nat) (s : State) : Worked c s s :=
  ⟨rfl, fun _ _ => rfl, fun _ _ => rfl, ⟨rfl, rfl, rfl, rfl, rfl, rfl, rfl, rfl⟩,
    fun _ => ⟨rfl, rfl, rfl, rfl, rfl, rfl, rfl, rfl⟩, fun _ => rfl, rfl, rfl⟩

theorem trans {c : Nat} {s t u : State} (h : Worked c s t) (k : Worked c t u) : Worked c s u where
  same := by rw [k.same, h.same]
  contexts := fun i hi => (k.contexts i hi).trans (h.contexts i hi)
  circuits := fun m hm => (k.circuits m (by rw [h.names.1]; exact hm)).trans (h.circuits m hm)
  names := by
    obtain ⟨a1, a2, a3, a4, a5, a6, a7, a8⟩ := h.names
    obtain ⟨b1, b2, b3, b4, b5, b6, b7, b8⟩ := k.names
    exact ⟨b1.trans a1, b2.trans a2, b3.trans a3, b4.trans a4, b5.trans a5, b6.trans a6, b7.trans a7, b8.trans a8⟩
  provisioning := fun m => by
    obtain ⟨a1, a2, a3, a4, a5, a6, a7, a8⟩ := h.provisioning m
    obtain ⟨b1, b2, b3, b4, b5, b6, b7, b8⟩ := k.provisioning m
    exact ⟨b1.trans a1, b2.trans a2, b3.trans a3, b4.trans a4, b5.trans a5, b6.trans a6, b7.trans a7, b8.trans a8⟩
  group := fun g => by rw [k.group g, h.group g]
  peer := by rw [k.peer, h.peer]
  adverts := k.adverts.trans h.adverts

theorem ite {c : Nat} {s t u : State} {p : Prop} [Decidable p] (h : p → Worked c s t) (k : ¬ p → Worked c s u) :
    Worked c s (if p then t else u) := by
  split
  · next hp => exact h hp
  · next hp => exact k hp

/-! ### The plain operations -/

theorem of_plain (c : Nat) (s : State) (o : List BoundaryEvent) (q : List Entry) (p : Pool) (a b : LinkRec) :
    Worked c s { s with owed := o, queue := q, pool := p, linkA := a, linkB := b } :=
  ⟨rfl, fun _ _ => rfl, fun _ _ => rfl, ⟨rfl, rfl, rfl, rfl, rfl, rfl, rfl, rfl⟩,
    fun _ => ⟨rfl, rfl, rfl, rfl, rfl, rfl, rfl, rfl⟩, fun _ => rfl, rfl, rfl⟩

theorem raise (c : Nat) (s : State) (e : Event) : Worked c s (s.raise e) := of_plain c s _ _ _ _ _
theorem forget (c : Nat) (s : State) (e : BoundaryEvent) : Worked c s (s.forget e) := of_plain c s _ _ _ _ _
theorem returnCells (c : Nat) (s : State) (k : Nat) : Worked c s (s.returnCells k) := of_plain c s _ _ _ _ _
theorem leaveWaitList (c k : Nat) (s : State) : Worked c s (s.leaveWaitList k) := of_plain c s _ _ _ _ _
theorem forgetContext (c k : Nat) (s : State) : Worked c s (s.forgetContext k) := of_plain c s _ _ _ _ _

/-- The context's own record changes in what it may. -/
theorem modCtx {c : Nat} {s : State} {f : Ctx → Ctx}
    (h : (f (s.ctx c)).circuit = (s.ctx c).circuit ∧ (f (s.ctx c)).slot = (s.ctx c).slot
      ∧ (f (s.ctx c)).direction = (s.ctx c).direction ∧ (f (s.ctx c)).origin = (s.ctx c).origin
      ∧ (f (s.ctx c)).policy = (s.ctx c).policy ∧ (f (s.ctx c)).lastStep = (s.ctx c).lastStep
      ∧ (f (s.ctx c)).peerEntry = (s.ctx c).peerEntry ∧ (f (s.ctx c)).role = (s.ctx c).role) :
    Worked c s (s.modCtx c f) where
  same := rfl
  contexts := fun k hk => by rw [State.ctx_modCtx, if_neg (fun hc => hk hc.1)]
  circuits := fun _ _ => rfl
  names := by
    rw [State.ctx_modCtx]
    split
    · exact h
    · exact ⟨rfl, rfl, rfl, rfl, rfl, rfl, rfl, rfl⟩
  provisioning := fun _ => ⟨rfl, rfl, rfl, rfl, rfl, rfl, rfl, rfl⟩
  group := fun _ => rfl
  peer := rfl
  adverts := rfl

/-- The context's circuit changes in what it may. -/
theorem modCircuit {c : Nat} {s : State} {f : Circuit → Circuit}
    (h : ∀ x : Circuit, (f x).equipped = x.equipped ∧ (f x).group = x.group ∧ (f x).cls = x.cls ∧ (f x).held = x.held
      ∧ (f x).slot = x.slot ∧ (f x).forward = x.forward ∧ (f x).copperLast = x.copperLast
      ∧ (f x).fibreLast = x.fibreLast) :
    Worked c s (s.modCircuit (s.ctx c).circuit f) where
  same := rfl
  contexts := fun _ _ => rfl
  circuits := fun m hm => by rw [State.circuit_modCircuit, if_neg (fun hc => hm hc.1)]
  names := ⟨rfl, rfl, rfl, rfl, rfl, rfl, rfl, rfl⟩
  provisioning := fun m => by
    rw [State.circuit_modCircuit]
    split
    · next hm => rw [hm.1]; exact h _
    · exact ⟨rfl, rfl, rfl, rfl, rfl, rfl, rfl, rfl⟩
  group := fun _ => rfl
  peer := rfl
  adverts := rfl

theorem recondition (c : Nat) (s : State) : Worked c s (s.recondition (s.ctx c).circuit) := by
  have h := Rederived.recondition s (s.ctx c).circuit
  have hs := h.same
  have hx : ∀ k, (s.recondition (s.ctx c).circuit).ctx k = s.ctx k := fun k => by rw [hs]; rfl
  have hp : (s.recondition (s.ctx c).circuit).peer = s.peer := by rw [hs]
  refine ⟨?_, fun k _ => hx k, fun m hm => h.others m (by simpa using hm), ?_, fun m => ?_, h.group, ?_, ?_⟩
  · rw [hs]
  · rw [hx]; exact ⟨rfl, rfl, rfl, rfl, rfl, rfl, rfl, rfl⟩
  · rw [h.circuit m]; exact ⟨rfl, rfl, rfl, rfl, rfl, rfl, rfl, rfl⟩
  · rw [hp]
  · rw [hp]

theorem adverts_mapped (c : Nat) (s : State) (f : Advert → Advert) (n : Nat) (h : ∀ a, (f a).slot = a.slot) :
    Worked c s { s with peer := { s.peer with adverts := s.peer.adverts.map f, serial := n } } :=
  ⟨rfl, fun _ _ => rfl, fun _ _ => rfl, ⟨rfl, rfl, rfl, rfl, rfl, rfl, rfl, rfl⟩,
    fun _ => ⟨rfl, rfl, rfl, rfl, rfl, rfl, rfl, rfl⟩, fun _ => rfl, rfl,
    by simp only [List.map_map]; exact List.map_congr_left (fun a _ => h a)⟩

theorem advertise (c k : Nat) (s : State) (step : Step) (a : Byte) : Worked c s (s.advertise k step a) :=
  adverts_mapped c s _ s.peer.serial (fun x => by split <;> rfl)

theorem beginLinger (c k : Nat) (s : State) : Worked c s (s.beginLinger k) :=
  adverts_mapped c s _ _ (fun x => by split <;> rfl)

/-! ### Entering and preparing -/

theorem enterReady (c : Nat) (s : State) : Worked c s (s.enterReady c) :=
  (modCtx (by exact ⟨rfl, rfl, rfl, rfl, rfl, rfl, rfl, rfl⟩)).trans (advertise _ _ _ _ _)

theorem enterMeasure (c : Nat) (s : State) : Worked c s (s.enterMeasure c) :=
  (modCtx (by exact ⟨rfl, rfl, rfl, rfl, rfl, rfl, rfl, rfl⟩)).trans (advertise _ _ _ _ _)

theorem beginAttempt (c k : Nat) (s : State) : Worked c s (s.beginAttempt c k) :=
  modCtx (by exact ⟨rfl, rfl, rfl, rfl, rfl, rfl, rfl, rfl⟩)

theorem enterAllocate (c : Nat) (s : State) : Worked c s (s.enterAllocate c) := by
  have h : Worked c s { s.modCtx c (fun x => { x with state := .allocate }) with pool := {
      s.pool with
      waitList := s.pool.waitList ++ [c]
      waitCount := if s.pool.waitList.isEmpty then 0 else s.pool.waitCount } } :=
    (modCtx (by exact ⟨rfl, rfl, rfl, rfl, rfl, rfl, rfl, rfl⟩)).trans (of_plain _ _ _ _ _ _ _)
  simp only [State.enterAllocate]
  split
  · exact h
  · exact h.trans (raise _ _ _)

theorem prepareSwitch (c : Nat) (s : State) : Worked c s (s.prepareSwitch c) := by
  simp only [State.prepareSwitch]
  split
  · exact enterReady c s
  · split
    · exact (modCtx (by exact ⟨rfl, rfl, rfl, rfl, rfl, rfl, rfl, rfl⟩)).trans (enterReady c _)
    · exact enterAllocate c s

theorem startAttempt (c : Nat) (s : State) : Worked c s (s.startAttempt c) := by
  simp only [State.startAttempt]
  refine (forget c s (.bridgeTimeout c)).trans ?_
  cases (s.ctx c).policy
  · exact beginAttempt c 1 _
  · exact beginAttempt c 1 _
  · exact (modCtx (by exact ⟨rfl, rfl, rfl, rfl, rfl, rfl, rfl, rfl⟩)).trans (enterReady c _)

/-! ### Leaving -/

theorem reenterParked (c : Nat) (s : State) (e : Option Entry) : Worked c s (s.reenterParked e) := by
  cases e with
  | none => exact refl c s
  | some e =>
    simp only [State.reenterParked, State.reenter]
    split
    · next h =>
      split at h
      · cases h; exact of_plain c s _ _ _ _ _
      · cases h
    · next h =>
      split at h
      · cases h
      · cases h; exact raise c s _

theorem raiseAborted (c k : Nat) (s : State) : Worked c s (s.raiseAborted k) := raise c s _

theorem reenterServed (c : Nat) (s : State) : Worked c s (s.reenterServed c) := by
  simp only [State.reenterServed, State.reenter]
  split
  · exact raise c s _
  · split
    · next h =>
      split at h
      · cases h; exact (of_plain c s _ _ _ _ _).trans (raise c _ _)
      · cases h
    · next h =>
      split at h
      · cases h
      · cases h; exact raise c s _

theorem setLine_plain (x : Circuit) (p : Path) (l : List (Option Byte)) : (x.setLine p l).equipped = x.equipped
    ∧ (x.setLine p l).group = x.group ∧ (x.setLine p l).cls = x.cls ∧ (x.setLine p l).held = x.held
    ∧ (x.setLine p l).slot = x.slot ∧ (x.setLine p l).forward = x.forward
    ∧ (x.setLine p l).copperLast = x.copperLast ∧ (x.setLine p l).fibreLast = x.fibreLast := by
  cases p <;> exact ⟨rfl, rfl, rfl, rfl, rfl, rfl, rfl, rfl⟩

theorem settleUnswitched (c : Nat) (s : State) : Worked c s (s.settleUnswitched c) := by
  simp only [State.settleUnswitched]
  split
  · exact ((modCircuit (by intro _; exact ⟨rfl, rfl, rfl, rfl, rfl, rfl, rfl, rfl⟩)).trans
      (modCtx (by exact ⟨rfl, rfl, rfl, rfl, rfl, rfl, rfl, rfl⟩))).trans (returnCells _ _ _)
  · exact ((modCircuit (by intro x; exact setLine_plain x _ [])).trans
      (modCtx (by exact ⟨rfl, rfl, rfl, rfl, rfl, rfl, rfl, rfl⟩))).trans (returnCells _ _ _)

theorem settleAll (c : Nat) (s : State) : Worked c s (s.settleAll c) :=
  ((modCircuit (by intro _; exact ⟨rfl, rfl, rfl, rfl, rfl, rfl, rfl, rfl⟩)).trans
    (modCtx (by exact ⟨rfl, rfl, rfl, rfl, rfl, rfl, rfl, rfl⟩))).trans (returnCells _ _ _)

/-- What is written with the circuit's number of an earlier state of the same context. -/
theorem recondition_named {c n : Nat} {s t : State} (h : Worked c s t) (hn : n = (s.ctx c).circuit) :
    Worked c s (t.recondition n) := by
  have := recondition c t
  rw [h.names.1, ← hn] at this
  exact h.trans this

theorem modCircuit_named {c n : Nat} {s t : State} (h : Worked c s t) (hn : n = (s.ctx c).circuit)
    {f : Circuit → Circuit}
    (hf : ∀ x : Circuit, (f x).equipped = x.equipped ∧ (f x).group = x.group ∧ (f x).cls = x.cls
      ∧ (f x).held = x.held ∧ (f x).slot = x.slot ∧ (f x).forward = x.forward
      ∧ (f x).copperLast = x.copperLast ∧ (f x).fibreLast = x.fibreLast) : Worked c s (t.modCircuit n f) := by
  have := modCircuit (c := c) (s := t) hf
  rw [h.names.1, ← hn] at this
  exact h.trans this

theorem leaveContext (c : Nat) (s : State) : Worked c s (s.leaveContext c) := by
  simp only [State.leaveContext]
  refine recondition_named (.trans (.trans ?_ (modCtx (by exact ⟨rfl, rfl, rfl, rfl, rfl, rfl, rfl, rfl⟩)))
    (reenterParked c _ _)) rfl
  have h : Worked c s (s.modCircuit (s.ctx c).circuit (fun x => {
      x.enter (s.lockedState (s.ctx c).circuit (s.ctx c).origin) with
      context := none, lastAbort := (s.ctx c).abortCause })) :=
    modCircuit (by intro _; exact ⟨rfl, rfl, rfl, rfl, rfl, rfl, rfl, rfl⟩)
  split
  · exact h.trans (reenterServed c _)
  · exact h

theorem makeReturn (c : Nat) (s : State) : Worked c s (s.makeReturn c) :=
  ((modCircuit (by intro _; exact ⟨rfl, rfl, rfl, rfl, rfl, rfl, rfl, rfl⟩)).trans (returnCells _ _ _)).trans
    (leaveContext c _)

theorem abortWith (c : Nat) (cause : Cause) (peer : Option Byte) (deferred : Bool) (s : State) :
    Worked c s (s.abortWith c cause peer deferred) := by
  have h1 : Worked c s ((s.leaveWaitList c).forgetContext c) := (leaveWaitList c c s).trans (forgetContext c c _)
  have h2 := h1.trans (settleUnswitched c _)
  have h3 : ∀ t, Worked c s t →
      Worked c s ((t.modCtx c (fun x => x.abortWith cause peer deferred)).advertise c .abort cause.byte) :=
    fun t ht => (ht.trans (modCtx (by exact ⟨rfl, rfl, rfl, rfl, rfl, rfl, rfl, rfl⟩))).trans (advertise _ _ _ _ _)
  simp only [State.abortWith]
  cases (s.ctx c).switched <;> cases deferred
  · exact ((h3 _ h2).trans (raiseAborted c c _)).trans (leaveContext c _)
  · exact (h3 _ h2).trans (leaveContext c _)
  · exact (h3 _ h1).trans (raiseAborted c c _)
  · exact h3 _ h1

/-- An abort (R124). -/
theorem abort (c : Nat) (cause : Cause) (peer : Option Byte) (s : State) : Worked c s (s.abort c cause peer) :=
  ite (fun _ => refl c s) (fun _ => abortWith c cause peer false s)

/-- A deferral (R126). -/
theorem defer (c : Nat) (s : State) : Worked c s (s.defer c) :=
  ite (fun _ => refl c s) (fun _ => abortWith c .deferredData none true s)

/-- The end of a to-copper context by fault (R127). -/
theorem endByFault (c : Nat) (s : State) : Worked c s (s.endByFault c) := by
  have h1 : Worked c s ((s.leaveWaitList c).forgetContext c) := (leaveWaitList c c s).trans (forgetContext c c _)
  have h2 := (h1.trans (settleAll c _)).trans (modCtx (f := fun x => { x.abortWith .fibreFault none false with
    returnPending := false, served := none, parked := none }) ⟨rfl, rfl, rfl, rfl, rfl, rfl, rfl, rfl⟩)
  have h3 := h2.trans (advertise c c _ .abort Cause.fibreFault.byte)
  have h4 := modCircuit_named h3 (n := (s.ctx c).circuit) rfl
    (f := fun x => { x.enter .copper with context := none, lastAbort := some .fibreFault })
    (by intro _; exact ⟨rfl, rfl, rfl, rfl, rfl, rfl, rfl, rfl⟩)
  exact recondition_named ((h4.trans (raiseAborted c c _)).trans (reenterParked c _ _)) rfl

/-! ### Switch, completion, end -/

theorem busySwitch (c : Nat) (s : State) : Worked c s (s.busySwitch c) := by
  simp only [State.busySwitch]
  split
  · exact (modCircuit (by intro _; exact ⟨rfl, rfl, rfl, rfl, rfl, rfl, rfl, rfl⟩)).trans
      (modCtx (by exact ⟨rfl, rfl, rfl, rfl, rfl, rfl, rfl, rfl⟩))
  · exact ((modCircuit (by intro x; exact setLine_plain x _ [])).trans
      (modCtx (by exact ⟨rfl, rfl, rfl, rfl, rfl, rfl, rfl, rfl⟩))).trans (returnCells _ _ _)

theorem idleSwitch (c : Nat) (s : State) : Worked c s (s.idleSwitch c) :=
  ((modCircuit (by intro _; exact ⟨rfl, rfl, rfl, rfl, rfl, rfl, rfl, rfl⟩)).trans
    (modCtx (by exact ⟨rfl, rfl, rfl, rfl, rfl, rfl, rfl, rfl⟩))).trans (returnCells _ _ _)

/-- A switch (R121). -/
theorem makeSwitch (c : Nat) (s : State) : Worked c s (s.makeSwitch c) := by
  simp only [State.makeSwitch]
  refine ite (fun _ => ite (fun _ => defer c s) (fun _ => ?_)) (fun _ => refl c s)
  have h : Worked c s (if (s.circuit (s.ctx c).circuit).call.busy then s.busySwitch c else s.idleSwitch c) :=
    ite (fun _ => busySwitch c s) (fun _ => idleSwitch c s)
  refine recondition_named (.trans (.trans (modCircuit_named h rfl
    (by intro _; exact ⟨rfl, rfl, rfl, rfl, rfl, rfl, rfl, rfl⟩)) (modCtx (by exact ⟨rfl, rfl, rfl, rfl, rfl, rfl, rfl, rfl⟩)))
    (advertise _ _ _ _ _)) rfl

/-- A completion (R122). -/
theorem complete (c : Nat) (s : State) : Worked c s (s.complete c) :=
  recondition_named (.trans (.trans (.trans (.trans (.trans
    (modCircuit (by intro _; exact ⟨rfl, rfl, rfl, rfl, rfl, rfl, rfl, rfl⟩)) (forgetContext c c _))
    (modCtx (by exact ⟨rfl, rfl, rfl, rfl, rfl, rfl, rfl, rfl⟩))) (reenterParked c _ _)) (raise c _ _)) (beginLinger c c _)) rfl

/-- The end of ABORTING (R125). -/
theorem endAborting (c : Nat) (s : State) : Worked c s (s.endAborting c) := by
  simp only [State.endAborting]
  refine ite (fun _ => ?_) (fun _ => refl c s)
  have h : Worked c s (if (s.ctx c).returnPending then s.makeReturn c else s) :=
    ite (fun _ => makeReturn c s) (fun _ => refl c s)
  refine h.trans (ite (fun _ => modCtx (by exact ⟨rfl, rfl, rfl, rfl, rfl, rfl, rfl, rfl⟩)) (fun _ => ite (fun _ => ?_)
    (fun _ => refl c _)))
  exact (beginLinger c c _).trans (modCtx (by exact ⟨rfl, rfl, rfl, rfl, rfl, rfl, rfl, rfl⟩))

/-- The end of an attempt (R92). -/
theorem endAttempt (c : Nat) (s : State) : Worked c s (s.endAttempt c) := by
  simp only [State.endAttempt]
  exact ite (fun _ => (modCtx (by exact ⟨rfl, rfl, rfl, rfl, rfl, rfl, rfl, rfl⟩)).trans (prepareSwitch c _))
    (fun _ => ite (fun _ => beginAttempt c _ s) (fun _ => abort c _ _ s))

/-- The service of the wait list's head (R96, R98). -/
theorem serve (c : Nat) (s : State) : Worked c s (s.serve c) := by
  simp only [State.serve]
  have h1 : Worked c s (State.modCtx { s with pool := {
      free := s.pool.free - (s.ctx c).need, waitList := s.pool.waitList.tail, waitCount := 0 } } c
      (fun y => { y with cells := (s.ctx c).need })) :=
    (of_plain c s s.owed s.queue _ s.linkA s.linkB).trans (modCtx (by exact ⟨rfl, rfl, rfl, rfl, rfl, rfl, rfl, rfl⟩))
  exact ite (fun _ => (modCircuit_named h1 rfl (by intro x; exact setLine_plain x _ _)).trans (enterReady c _))
    (fun _ => h1.trans (modCtx (by exact ⟨rfl, rfl, rfl, rfl, rfl, rfl, rfl, rfl⟩)))

end Worked

end Sys2Proof.Machine
end

