-- ==== Sys2Proof/Laws/Keeps.lean ====
section
/-! SUPPORT. Laws/Keeps.lean: what the shared operations keep of the laws of the whole part (Safety.lean). `Keeps s t`
says that every law that holds of `s` holds of `t`; each shared operation is shown once to lead only to such a `t`. -/

namespace Sys2Proof.Machine

/-- The two laws of the map, which are kept together. -/
def State.mapLawful (s : State) : Prop := s.mapAgrees ∧ s.mapInRange

/-- One link's notice account is lawful: its length, and the state of its attention line. -/
def LinkRec.fits (k : LinkRec) : Prop := k.notices.length ≤ 32
def LinkRec.right (k : LinkRec) : Prop := k.attention = k.wantsAttention

/-- From `s` to `t` every law of the whole part is kept. -/
structure Keeps (s t : State) : Prop where
  queue : s.queue.length ≤ 64 → t.queue.length ≤ 64
  staging : s.map.staging.length ≤ 32 → t.map.staging.length ≤ 32
  adverts : s.peer.adverts.length ≤ 16 → t.peer.adverts.length ≤ 16
  view : s.peer.view.length ≤ 16 → t.peer.view.length ≤ 16
  fitsA : s.linkA.fits → t.linkA.fits
  fitsB : s.linkB.fits → t.linkB.fits
  relays : s.relaysFollow → t.relaysFollow
  maps : s.mapLawful → t.mapLawful
  busy : s.busyCounted → t.busyCounted
  digest : s.digestCurrent → t.digestCurrent
  faults : s.faultsLawful → t.faultsLawful
  power : t.powered = s.powered
  rightA : s.linkA.right → t.linkA.right
  rightB : s.linkB.right → t.linkB.right
  time : s.timeInRange → t.timeInRange

namespace Keeps

theorem refl (s : State) : Keeps s s := ⟨id, id, id, id, id, id, id, id, id, id, id, rfl, id, id, id⟩

theorem trans {s t u : State} (h : Keeps s t) (k : Keeps t u) : Keeps s u :=
  ⟨k.queue ∘ h.queue, k.staging ∘ h.staging, k.adverts ∘ h.adverts, k.view ∘ h.view, k.fitsA ∘ h.fitsA,
    k.fitsB ∘ h.fitsB, k.relays ∘ h.relays, k.maps ∘ h.maps, k.busy ∘ h.busy, k.digest ∘ h.digest, k.faults ∘ h.faults,
    k.power.trans h.power, k.rightA ∘ h.rightA, k.rightB ∘ h.rightB, k.time ∘ h.time⟩

theorem foldl {α : Type} {f : State → α → State} (h : ∀ t a, Keeps t (f t a)) (l : List α) (s : State) :
    Keeps s (l.foldl f s) := by
  induction l generalizing s with
  | nil => exact refl s
  | cons a rest ih => exact (h s a).trans (ih (f s a))

theorem ite {p : Prop} [Decidable p] {s t u : State} (h : Keeps s t) (k : Keeps s u) :
    Keeps s (if p then t else u) := by
  split
  · exact h
  · exact k

/-- What the busy-count law reads of a circuit, and its slot. -/
def sameCore (c d : Circuit) : Prop :=
  c.slot = d.slot ∧ c.equipped = d.equipped ∧ c.group = d.group ∧ c.call = d.call

def sameCoreButSlot (c d : Circuit) : Prop := c.equipped = d.equipped ∧ c.group = d.group ∧ c.call = d.call

theorem busy_of_but_slot {s t : State} (hc : ∀ m, sameCoreButSlot (t.circuit m) (s.circuit m))
    (hg : ∀ g, (t.group g).busyCount = (s.group g).busyCount) : s.busyCounted → t.busyCounted := by
  rintro ⟨h1, h2, h3⟩
  refine ⟨fun n => ?_, fun n h => ?_, fun g h => ?_⟩
  · rw [(hc n).2.1]; exact h1 n
  · rw [(hc n).2.2]; exact h2 n ((hc n).1 ▸ h)
  · rw [hg, h3 g h]
    simp only [State.busyMembers, (hc _).1, (hc _).2.1, (hc _).2.2]

theorem busy_of {s t : State} (hc : ∀ m, sameCore (t.circuit m) (s.circuit m))
    (hg : ∀ g, (t.group g).busyCount = (s.group g).busyCount) : s.busyCounted → t.busyCounted :=
  busy_of_but_slot (fun m => (hc m).2) hg

/-- An update of fields that no law reads. -/
theorem trivially {s t : State} (hq : t.queue = s.queue) (hm : t.map = s.map) (hp : t.peer = s.peer)
    (ha : t.linkA = s.linkA) (hb : t.linkB = s.linkB) (hs : t.spans = s.spans) (hc : t.circuits = s.circuits)
    (hf : t.faults.records = s.faults.records) (hw : t.powered = s.powered) (h1 : t.frameCount = s.frameCount)
    (h2 : t.stamp = s.stamp) (hg : t.groups = s.groups) : Keeps s t where
  queue := by rw [hq]; exact id
  staging := by rw [hm]; exact id
  adverts := by rw [hp]; exact id
  view := by rw [hp]; exact id
  fitsA := by rw [ha]; exact id
  fitsB := by rw [hb]; exact id
  relays := by simp only [State.relaysFollow, State.span, hs]; exact id
  maps := by
    simp only [State.mapLawful, State.mapAgrees, State.mapInRange, State.boundTo, State.circuit, hm, hc]; exact id
  busy := busy_of (fun m => by simp only [State.circuit, hc]; exact ⟨rfl, rfl, rfl, rfl⟩)
    (fun g => by simp only [State.group, hg])
  digest := by simp only [State.digestCurrent, hm]; exact id
  faults := by simp only [State.faultsLawful, State.fault, hf]; exact id
  power := hw
  rightA := by rw [ha]; exact id
  rightB := by rw [hb]; exact id
  time := by simp only [State.timeInRange, h1, h2]; exact id

/-- The laws of the map rest on the entries, the staging list and the circuits' slots. -/
theorem maps_of {s t : State} (he : t.map.entries = s.map.entries) (hs : t.map.staging = s.map.staging)
    (hc : ∀ m, (t.circuit m).slot = (s.circuit m).slot) : s.mapLawful → t.mapLawful := by
  have hb : ∀ k, t.boundTo k = s.boundTo k := fun k => by simp only [State.boundTo, he]
  rintro ⟨h1, h2, h3, h4⟩
  refine ⟨fun k n hk hn => ?_, fun k n h => h2 k n (hb k ▸ h), fun n k h => h3 n k (hc n ▸ h), ?_⟩
  · rw [hb, hc]; exact h1 k n hk hn
  · rw [hs]; exact h4

/-- An update of circuits that leaves what the laws read of them. -/
theorem circuits {s : State} {v : Vector Circuit 480}
    (h : ∀ m, sameCore (Table.at v Circuit.reset m) (s.circuit m)) : Keeps s { s with circuits := v } where
  queue := id
  staging := id
  adverts := id
  view := id
  fitsA := id
  fitsB := id
  relays := id
  maps := maps_of rfl rfl (fun m => (h m).1)
  busy := busy_of h (fun _ => rfl)
  digest := id
  faults := id
  power := rfl
  rightA := id
  rightB := id
  time := id

theorem modCircuit {s : State} {n : Nat} {f : Circuit → Circuit} (h : sameCore (f (s.circuit n)) (s.circuit n)) :
    Keeps s (s.modCircuit n f) := by
  refine circuits (fun m => ?_)
  have := State.circuit_modCircuit s n m f
  simp only [State.circuit, State.modCircuit, State.setCircuit] at this ⊢
  rw [this]
  split
  · next hm => rw [hm.1]; exact h
  · exact ⟨rfl, rfl, rfl, rfl⟩

/-- An update of groups that leaves their busy counts. -/
theorem groups {s : State} {v : Vector Group 16}
    (h : ∀ g, (Table.at v Group.reset g).busyCount = (s.group g).busyCount) : Keeps s { s with groups := v } :=
  ⟨id, id, id, id, id, id, id, id, busy_of (fun _ => ⟨rfl, rfl, rfl, rfl⟩) h, id, id, rfl, id, id, id⟩

theorem modGroup {s : State} {n : Nat} {f : Group → Group} (h : ∀ g : Group, (f g).busyCount = g.busyCount) :
    Keeps s (s.modGroup n f) := by
  refine groups (fun m => ?_)
  have := State.group_modGroup s n m f
  simp only [State.group, State.modGroup, State.setGroup] at this ⊢
  rw [this]
  split
  · next hm => rw [h, hm.1]
  · rfl

/-- All groups changed at once, each keeping its busy count. -/
theorem mapGroups {s : State} {f : Nat → Group → Group} (h : ∀ n g, (f n g).busyCount = g.busyCount) :
    Keeps s { s with groups := Table.mapIdx s.groups f } := by
  refine groups (fun m => ?_)
  by_cases hm : m < 16
  · rw [Table.at_mapIdx _ _ Group.reset _ hm, h]; rfl
  · simp only [State.group, Table.at_of_le _ _ (Nat.le_of_not_lt hm)]

theorem modGroups {s : State} {gs : List Nat} {f : Group → Group} (h : ∀ g : Group, (f g).busyCount = g.busyCount) :
    Keeps s (s.modGroups gs f) :=
  mapGroups (fun n g => by
    split
    · exact h g
    · rfl)

theorem setCtx (s : State) (n : Nat) (x : Ctx) : Keeps s (s.setCtx n x) :=
  trivially rfl rfl rfl rfl rfl rfl rfl rfl rfl rfl rfl rfl

theorem modCtx (s : State) (n : Nat) (f : Ctx → Ctx) : Keeps s (s.modCtx n f) :=
  trivially rfl rfl rfl rfl rfl rfl rfl rfl rfl rfl rfl rfl

theorem returnCells (s : State) (k : Nat) : Keeps s (s.returnCells k) :=
  trivially rfl rfl rfl rfl rfl rfl rfl rfl rfl rfl rfl rfl

theorem forget (s : State) (e : BoundaryEvent) : Keeps s (s.forget e) :=
  trivially rfl rfl rfl rfl rfl rfl rfl rfl rfl rfl rfl rfl

theorem leaveWaitList (s : State) (c : Nat) : Keeps s (s.leaveWaitList c) :=
  trivially rfl rfl rfl rfl rfl rfl rfl rfl rfl rfl rfl rfl

theorem forgetContext (s : State) (c : Nat) : Keeps s (s.forgetContext c) :=
  trivially rfl rfl rfl rfl rfl rfl rfl rfl rfl rfl rfl rfl

/-- An update of the peer exchange that keeps both its capacities. -/
theorem peer {s : State} {p : PeerExchange} (ha : s.peer.adverts.length ≤ 16 → p.adverts.length ≤ 16)
    (hv : s.peer.view.length ≤ 16 → p.view.length ≤ 16) : Keeps s { s with peer := p } :=
  ⟨id, id, ha, hv, id, id, id, id, id, id, id, rfl, id, id, id⟩

/-- An update of the queue that keeps its capacity. -/
theorem queued {s : State} {q : List Entry} (h : s.queue.length ≤ 64 → q.length ≤ 64) :
    Keeps s { s with queue := q } :=
  ⟨h, id, id, id, id, id, id, id, id, id, id, rfl, id, id, id⟩

/-- An update of both links that keeps their notice accounts lawful. -/
theorem links {s : State} {a b : LinkRec} (fa : s.linkA.fits → a.fits) (fb : s.linkB.fits → b.fits)
    (ra : s.linkA.right → a.right) (rb : s.linkB.right → b.right) : Keeps s { s with linkA := a, linkB := b } :=
  ⟨id, id, id, id, fa, fb, id, id, id, id, id, rfl, ra, rb, id⟩

theorem modLink {s : State} {l : Link} {f : LinkRec → LinkRec} (hf : (s.link l).fits → (f (s.link l)).fits)
    (hr : (s.link l).right → (f (s.link l)).right) : Keeps s (s.modLink l f) := by
  cases l
  · exact ⟨id, id, id, id, hf, id, id, id, id, id, id, rfl, hr, id, id⟩
  · exact ⟨id, id, id, id, id, hf, id, id, id, id, id, rfl, id, hr, id⟩

/-! ### Notices -/

theorem refresh_right (k : LinkRec) : k.refresh.right := rfl

theorem offer_fits (k : LinkRec) (t : Nat) (e : Event) (h : k.fits) : (k.offer t e).fits := by
  unfold LinkRec.offer
  split
  · exact h
  · split
    · next hl =>
      simp only [LinkRec.fits, LinkRec.refresh, List.length_append, List.length_singleton, Config.noticeLimit] at *
      omega
    · exact h

theorem offer_right (k : LinkRec) (t : Nat) (e : Event) (h : k.right) : (k.offer t e).right := by
  simp only [LinkRec.offer]
  split
  · exact h
  · split <;> exact refresh_right _

theorem raise (s : State) (e : Event) : Keeps s (s.raise e) :=
  links (offer_fits _ _ _) (offer_fits _ _ _) (offer_right _ _ _) (offer_right _ _ _)

theorem raiseIf (s : State) (e : Option Event) : Keeps s (s.raiseIf e) := by
  cases e
  · exact refl s
  · exact raise s _

/-! ### The advertisement table -/

theorem removeAt_length (p : PeerExchange) (i : Nat) : (p.removeAt i).adverts.length ≤ p.adverts.length := by
  simpa [PeerExchange.removeAt] using List.length_eraseIdx_le p.adverts i

theorem oldestLinger_lt (l : List Advert) (i : Nat) (best : Option (Nat × Nat)) (j : Nat)
    (hb : ∀ q m, best = some (q, m) → q < i) (h : oldestLinger i best l = some j) : j < i + l.length := by
  induction l generalizing i best with
  | nil =>
    cases best with
    | none => simp [oldestLinger] at h
    | some b =>
      obtain ⟨q, m⟩ := b
      simp only [oldestLinger, Option.map_some, Option.some.injEq] at h
      have := hb q m rfl
      simp only [List.length_nil]
      omega
  | cons a rest ih =>
    have key : ∃ best', oldestLinger (i + 1) best' rest = some j ∧ ∀ q m, best' = some (q, m) → q < i + 1 := by
      unfold oldestLinger at h
      split at h
      · next n q m heq =>
        refine ⟨_, h, fun q' m' hq => ?_⟩
        split at hq
        · simp only [Option.some.injEq, Prod.mk.injEq] at hq; omega
        · simp only [Option.some.injEq, Prod.mk.injEq] at hq
          have := hb q m rfl
          omega
      · refine ⟨_, h, fun q' m' hq => ?_⟩
        simp only [Option.some.injEq, Prod.mk.injEq] at hq; omega
      · exact ⟨_, h, fun q' m' hq => Nat.lt_succ_of_lt (hb q' m' hq)⟩
    obtain ⟨best', h1, h2⟩ := key
    have := ih (i + 1) best' h2 h1
    simp only [List.length_cons]
    omega

theorem make_length (p : PeerExchange) (a : Advert) (h : p.adverts.length ≤ 16) : (p.make a).adverts.length ≤ 16 := by
  unfold PeerExchange.make
  split
  · simpa using h
  · split
    · next hl => simp only [List.length_append, List.length_singleton, Config.advertLimit] at *; omega
    · split
      · next i hi =>
        have hlt := oldestLinger_lt p.adverts 0 none i (by simp) hi
        simp only [PeerExchange.removeAt, List.length_append, List.length_singleton, List.length_eraseIdx,
          Nat.zero_add] at *
        split <;> omega
      · exact h

theorem make_view (p : PeerExchange) (a : Advert) : (p.make a).view = p.view := by
  unfold PeerExchange.make
  split
  · rfl
  · split
    · rfl
    · split <;> rfl

theorem makeContextEntry (s : State) (c slot : Nat) (st : Step) : Keeps s (s.makeContextEntry c slot st) :=
  peer (make_length _ _) (by rw [make_view]; exact id)

theorem makeLinger (s : State) (slot : Nat) (st : Step) (b : Byte) : Keeps s (s.makeLinger slot st b) :=
  peer (p := { s.peer.make _ with serial := _ }) (make_length _ _)
    (by simp only [make_view]; exact id)

theorem advertise (s : State) (c : Nat) (st : Step) (b : Byte) : Keeps s (s.advertise c st b) :=
  peer (by simp) (by simp)

theorem beginLinger (s : State) (c : Nat) : Keeps s (s.beginLinger c) := peer (by simp) (by simp)

/-! ### Signalling and conditioning -/

theorem dropOn_core (c : Circuit) (p : Path) : sameCore (c.dropOn p) c := by cases p <;> exact ⟨rfl, rfl, rfl, rfl⟩

/-- Fields beyond those the laws read may change besides. -/
theorem core_of {c d e : Circuit} (h : sameCore d c) (h1 : e.slot = d.slot) (h2 : e.equipped = d.equipped)
    (h3 : e.group = d.group) (h4 : e.call = d.call) : sameCore e c :=
  ⟨h1.trans h.1, h2.trans h.2.1, h3.trans h.2.2.1, h4.trans h.2.2.2⟩

theorem dropResidual (s : State) (n : Nat) : Keeps s (s.dropResidual n) :=
  (modCircuit (core_of (dropOn_core _ _) rfl rfl rfl rfl)).trans (returnCells _ _)

theorem dropAtIdle (s : State) (n : Nat) : Keeps s (s.dropAtIdle n) :=
  ite (refl s) ((dropResidual s n).trans (raise _ _))

/-- Two counts that differ at one place. -/
theorem countP_change {p q : Nat → Bool} {n : Nat} (h : ∀ m, m ≠ n → p m = q m) (k : Nat) :
    (List.range k).countP p + (if n < k ∧ q n = true then 1 else 0)
      = (List.range k).countP q + (if n < k ∧ p n = true then 1 else 0) := by
  induction k with
  | zero => simp
  | succ k ih =>
    simp only [List.range_succ, List.countP_append, List.countP_singleton]
    by_cases hk : k = n
    · subst hk
      simp only [Nat.lt_irrefl, false_and, if_false, Nat.lt_succ_self, true_and] at *
      omega
    · rw [h k hk]
      have : (n < k + 1) = (n < k) := by simp only [eq_iff_iff]; omega
      simp only [this]
      omega

/-- The call state of an equipped circuit and the count of its group change together (R30). -/
theorem callCounted {s : State} {n : Nat} {new : CallState} (he : (s.circuit n).equipped = true) :
    Keeps s ((s.modCircuit n (fun c => { c with call := new })).modGroup (s.circuit n).group
      (fun g => g.countChange (s.circuit n).call new)) := by
  have hn : n < 480 := by
    refine Nat.lt_of_not_le (fun hle => ?_)
    rw [State.circuit, Table.at_of_le _ _ hle] at he
    simp [Circuit.reset] at he
  refine ⟨id, id, id, id, id, id, id, maps_of rfl rfl (fun m => ?_), ?_, id, id, rfl, id, id, id⟩
  · rw [State.circuit_congr (State.modGroup_circuits _ _ _), State.circuit_modCircuit]; split
    · next hm => rw [hm.1]
    · rfl
  rintro ⟨h1, h2, h3⟩
  generalize ht : (s.modCircuit n (fun c => { c with call := new })).modGroup (s.circuit n).group
      (fun g => g.countChange (s.circuit n).call new) = t
  have hc : ∀ m, t.circuit m = if m = n then { s.circuit n with call := new } else s.circuit m := fun m => by
    rw [← ht]
    rw [State.circuit_congr (State.modGroup_circuits _ _ _), State.circuit_modCircuit]; simp [hn]
  have hg : ∀ g, t.group g = if g = (s.circuit n).group then (s.group g).countChange (s.circuit n).call new
      else s.group g := fun g => by
    rw [← ht, State.group_modGroup]
    have e : ∀ g, (s.modCircuit n (fun c => { c with call := new })).group g = s.group g := fun _ => rfl
    simp only [e, h1 n, and_true]
    split
    · next hm => rw [hm]
    · rfl
  refine ⟨fun m => ?_, fun m hm => ?_, fun g hlt => ?_⟩
  · rw [hc]; split
    · exact h1 n
    · exact h1 m
  · rw [hc] at hm ⊢; split at hm
    · simp [he] at hm
    · next hne => simp only [hne, if_false]; exact h2 m hm
  · have hb := h3 g hlt
    have key := countP_change (n := n)
      (p := fun m => (t.circuit m).equipped && (t.circuit m).group == g && (t.circuit m).call.busy)
      (q := fun m => (s.circuit m).equipped && (s.circuit m).group == g && (s.circuit m).call.busy)
      (fun m hm => by simp only [hc, hm, if_false]) 480
    have hcn : t.circuit n = { s.circuit n with call := new } := by rw [hc, if_pos rfl]
    simp only [hn, true_and, hcn, he, Bool.true_and, Bool.and_eq_true, beq_iff_eq] at key
    have hm : t.busyMembers g = (List.range 480).countP
      (fun m => (t.circuit m).equipped && (t.circuit m).group == g && (t.circuit m).call.busy) := rfl
    have hs : s.busyMembers g = (List.range 480).countP
      (fun m => (s.circuit m).equipped && (s.circuit m).group == g && (s.circuit m).call.busy) := rfl
    rw [← hm, ← hs] at key
    rw [hg]
    by_cases e : g = (s.circuit n).group
    · subst e
      simp only [if_true, true_and] at key ⊢
      unfold Group.countChange
      cases h5 : (s.circuit n).call.busy <;> cases h6 : new.busy <;> simp [h5, h6] at key ⊢ <;> omega
    · simp only [e, if_false, Ne.symm e, false_and, Nat.add_zero] at key ⊢
      omega

theorem changeCall {s : State} {n : Nat} {new : CallState} (he : (s.circuit n).equipped = true) :
    Keeps s (s.changeCall n new) := by
  unfold State.changeCall
  have h := (callCounted (new := new) he).trans (raiseIf _ (callNotice n (s.circuit n).call new))
  exact ite (h.trans (dropAtIdle _ _)) h

theorem deriveCall {s : State} {n : Nat} (he : (s.circuit n).equipped = true) : Keeps s (s.deriveCall n) :=
  ite (refl s) (changeCall he)

/-- Every circuit stays equipped or unequipped through an update that leaves the mark. -/
theorem equipped_modCircuit {s : State} {n m : Nat} {f : Circuit → Circuit}
    (h : (f (s.circuit n)).equipped = (s.circuit n).equipped) :
    ((s.modCircuit n f).circuit m).equipped = (s.circuit m).equipped := by
  rw [State.circuit_modCircuit]; split
  · next hm => rw [hm.1]; exact h
  · rfl

theorem circuits_raiseIf (s : State) (e : Option Event) : (s.raiseIf e).circuits = s.circuits := by cases e <;> rfl

theorem superviseCircuit (s : State) (n : Nat) : Keeps s (s.superviseCircuit n) := by
  unfold State.superviseCircuit
  split
  · next he =>
    dsimp only
    refine ((modCircuit ?_).trans ((raiseIf _ _).trans (raiseIf _ _))).trans (deriveCall ?_)
    · exact ⟨rfl, rfl, rfl, rfl⟩
    · rw [State.circuit, circuits_raiseIf, circuits_raiseIf]
      exact (equipped_modCircuit (by rfl)).trans he
  · exact refl s

theorem supervise (s : State) : Keeps s s.supervise := foldl superviseCircuit _ s

theorem recondition (s : State) (n : Nat) : Keeps s (s.recondition n) := by
  unfold State.recondition
  split
  · exact refl s
  · next hw =>
    split
    · exact modCircuit ⟨rfl, rfl, rfl, rfl⟩
    · next hc =>
      refine (modCircuit ?_).trans (deriveCall ?_)
      · exact ⟨rfl, rfl, rfl, rfl⟩
      · refine (equipped_modCircuit (by rfl)).trans ?_
        have : s.wantsConditioning n = true := by
          cases h : s.wantsConditioning n with
          | true => rfl
          | false => simp [h] at hw; simp [hw] at hc
        simp only [State.wantsConditioning, Bool.and_eq_true] at this
        exact this.1.1

theorem reconditionAll (s : State) (ns : List Nat) : Keeps s (s.reconditionAll ns) := foldl recondition ns s

/-! ### The queue -/

theorem placeByAge_length (now : Nat) (e : Entry) (l : List Entry) (i : Nat) :
    (placeByAge now e i l).1.length = l.length + 1 := by
  induction l generalizing i with
  | nil => rfl
  | cons x rest ih =>
    unfold placeByAge
    split
    · simp
    · simp [ih]

theorem reenter (s : State) (e : Entry) : Keeps s (s.reenter e).1 := by
  unfold State.reenter
  split
  · next h =>
    exact queued (fun _ => by rw [placeByAge_length]; simp only [Config.queueLimit] at h; omega)
  · exact refl s

theorem reenterParked (s : State) (e : Option Entry) : Keeps s (s.reenterParked e) := by
  unfold State.reenterParked
  split
  · exact refl s
  · next e =>
    have h := reenter s e
    split
    · next heq => rw [heq] at h; exact h
    · next heq => rw [heq] at h; exact h.trans (raise _ _)

/-! ### Contexts -/

theorem enter_slot (c : Circuit) (st : MigState) : (c.enter st).slot = c.slot := rfl

theorem migrate (s : State) (n c : Nat) : Keeps s (s.migrate n c) := modCircuit ⟨rfl, rfl, rfl, rfl⟩

theorem admitEntry (s : State) (e : Entry) (c : Nat) : Keeps s (s.admitEntry e c) :=
  ((((queued (fun h => Nat.le_trans (List.length_filter_le _ _) h)).trans (setCtx _ _ _)).trans (migrate _ _ _)).trans
    (makeContextEntry _ _ _ _)).trans ((raise _ _).trans (recondition _ _))

theorem enterMeasure (s : State) (c : Nat) : Keeps s (s.enterMeasure c) := (modCtx _ _ _).trans (advertise _ _ _ _)

theorem enterReady (s : State) (c : Nat) : Keeps s (s.enterReady c) := (modCtx _ _ _).trans (advertise _ _ _ _)

theorem beginAttempt (s : State) (c k : Nat) : Keeps s (s.beginAttempt c k) := modCtx _ _ _

theorem dropBoth_core (c : Circuit) : sameCore c.dropBoth c := ⟨rfl, rfl, rfl, rfl⟩

theorem settleUnswitched (s : State) (c : Nat) : Keeps s (s.settleUnswitched c) :=
  ite (((modCircuit (dropBoth_core _)).trans (modCtx _ _ _)).trans (returnCells _ _))
    (((modCircuit (core_of (dropOn_core _ _) rfl rfl rfl rfl)).trans (modCtx _ _ _)).trans (returnCells _ _))

theorem settleAll (s : State) (c : Nat) : Keeps s (s.settleAll c) := by
  unfold State.settleAll
  refine ((modCircuit ?_).trans (modCtx _ _ _)).trans (returnCells _ _)
  exact ⟨rfl, rfl, rfl, rfl⟩

theorem raiseAborted (s : State) (c : Nat) : Keeps s (s.raiseAborted c) := raise _ _

theorem reenterServed (s : State) (c : Nat) : Keeps s (s.reenterServed c) := by
  unfold State.reenterServed
  split
  · exact raiseAborted _ _
  · next e _ =>
    have h := reenter s { e with idleOnly := true }
    split
    · next heq => rw [heq] at h; exact h.trans (raise _ _)
    · next heq => rw [heq] at h; exact h.trans (raiseAborted _ _)

theorem leaveContext (s : State) (c : Nat) : Keeps s (s.leaveContext c) := by
  unfold State.leaveContext
  refine Keeps.trans (Keeps.trans (Keeps.trans ?_ (modCtx _ _ _)) (reenterParked _ _)) (recondition _ _)
  split
  · exact (modCircuit ⟨rfl, rfl, rfl, rfl⟩).trans (reenterServed _ _)
  · exact modCircuit ⟨rfl, rfl, rfl, rfl⟩

theorem makeReturn (s : State) (c : Nat) : Keeps s (s.makeReturn c) := by
  unfold State.makeReturn
  refine ((modCircuit ?_).trans (returnCells _ _)).trans (leaveContext _ _)
  exact ⟨rfl, rfl, rfl, rfl⟩

theorem abortWith (s : State) (c : Nat) (cause : Cause) (pc : Option Byte) (d : Bool) :
    Keeps s (s.abortWith c cause pc d) := by
  have h1 : Keeps s ((s.leaveWaitList c).forgetContext c) := (leaveWaitList _ _).trans (forgetContext _ _)
  have h2 : Keeps s (if (s.ctx c).switched then (s.leaveWaitList c).forgetContext c
      else ((s.leaveWaitList c).forgetContext c).settleUnswitched c) :=
    ite h1 (h1.trans (settleUnswitched _ _))
  have h3 := (h2.trans (modCtx _ c (fun x => x.abortWith cause pc d))).trans (advertise _ c .abort cause.byte)
  have h4 := h3.trans (ite (p := d = true) (refl _) (raiseAborted _ c))
  exact ite h4 (h4.trans (leaveContext _ _))

theorem abort (s : State) (c : Nat) (cause : Cause) (pc : Option Byte) : Keeps s (s.abort c cause pc) :=
  ite (refl s) (abortWith _ _ _ _ _)

theorem defer (s : State) (c : Nat) : Keeps s (s.defer c) := ite (refl s) (abortWith _ _ _ _ _)

theorem endByFault (s : State) (c : Nat) : Keeps s (s.endByFault c) := by
  unfold State.endByFault
  refine Keeps.trans (Keeps.trans (Keeps.trans (Keeps.trans ?_ (modCircuit ?_)) (raiseAborted _ _))
    (reenterParked _ _)) (recondition _ _)
  · exact ((((leaveWaitList _ _).trans (forgetContext _ _)).trans (settleAll _ _)).trans (modCtx _ _ _)).trans
      (advertise _ _ _ _)
  · exact ⟨rfl, rfl, rfl, rfl⟩

theorem busySwitch (s : State) (c : Nat) : Keeps s (s.busySwitch c) :=
  ite ((modCircuit ⟨rfl, rfl, rfl, rfl⟩).trans (modCtx _ _ _))
    (((modCircuit (core_of (dropOn_core _ _) rfl rfl rfl rfl)).trans (modCtx _ _ _)).trans (returnCells _ _))

theorem idleSwitch (s : State) (c : Nat) : Keeps s (s.idleSwitch c) := by
  unfold State.idleSwitch
  refine ((modCircuit ?_).trans (modCtx _ _ _)).trans (returnCells _ _)
  exact ⟨rfl, rfl, rfl, rfl⟩

theorem makeSwitch (s : State) (c : Nat) : Keeps s (s.makeSwitch c) :=
  ite (ite (defer _ _) ((((ite (busySwitch s c) (idleSwitch s c)).trans (modCircuit ⟨rfl, rfl, rfl, rfl⟩)).trans
    (modCtx _ _ _)).trans ((advertise _ _ _ _).trans (recondition _ _)))) (refl s)

theorem complete (s : State) (c : Nat) : Keeps s (s.complete c) :=
  (((modCircuit ⟨rfl, rfl, rfl, rfl⟩).trans (forgetContext _ _)).trans (modCtx _ _ _)).trans
    ((reenterParked _ _).trans ((raise _ _).trans ((beginLinger _ _).trans (recondition _ _))))

theorem completeIfDue (s : State) (c : Nat) : Keeps s (s.completeIfDue c) := ite (complete _ _) (refl s)

theorem endAborting (s : State) (c : Nat) : Keeps s (s.endAborting c) := by
  have h : Keeps s (if (s.ctx c).returnPending then s.makeReturn c else s) := ite (makeReturn _ _) (refl s)
  exact ite (ite (h.trans (modCtx _ _ _)) (ite ((h.trans (beginLinger _ _)).trans (modCtx _ _ _)) h)) (refl s)

theorem returnIfPending (s : State) (c : Nat) : Keeps s (s.returnIfPending c) := ite (makeReturn _ _) (refl s)

end Keeps
end Sys2Proof.Machine
end

