-- ==== Sys2Proof/Laws/KeepsBlocks.lean ====
section
/-! SUPPORT. Laws/KeepsBlocks.lean: the laws of the whole part (Safety.lean) through the operations of the blocks: the
Fault Unit, the spans, the Alignment Engine, the carriage map, the Peer Exchange, the Fibre Port, and settling. -/

namespace Sys2Proof.Machine

/-! ### Fault records -/

theorem FaultKind.place_span {k : FaultKind} {x : Nat} (h : k.isPort = false) :
    k.place x = 5 + 16 * (k.code - 5) + x := by simp [FaultKind.place, h]

/-- Two records that stand in one place are one record of one kind. -/
theorem FaultKind.place_inj {j k : FaultKind} {x y : Nat} (hx : x < 16) (hy : y < 16)
    (h : j.place x = k.place y) : j = k := by
  cases j <;> cases k <;> simp only [FaultKind.place, FaultKind.isPort, FaultKind.code, if_true, if_false,
    Bool.false_eq_true] at h <;> first | rfl | (exfalso; omega)

theorem State.fault_setFault (s : State) (j k : FaultKind) (x y : Nat) (r : FaultRecord) :
    (s.setFault k y r).fault j x = if j.place x = k.place y ∧ k.place y < 53 then r else s.fault j x :=
  Table.at_put_at _ _ _ _ _

theorem State.fault_same_place {s : State} {j k : FaultKind} {x y : Nat} (h : j.place x = k.place y) :
    s.fault j x = s.fault k y := by simp [State.fault, h]

namespace Keeps

/-- An update of fault records alone. -/
theorem records {s t : State} (h : s.faultsLawful → t.faultsLawful) (hq : t.queue = s.queue) (hm : t.map = s.map)
    (hp : t.peer = s.peer) (ha : t.linkA = s.linkA) (hb : t.linkB = s.linkB) (hs : t.spans = s.spans)
    (hc : t.circuits = s.circuits) (hw : t.powered = s.powered) (h1 : t.frameCount = s.frameCount)
    (h2 : t.stamp = s.stamp) (hg : t.groups = s.groups) : Keeps s t :=
  have k : Keeps s { t with faults := s.faults } := trivially hq hm hp ha hb hs hc rfl hw h1 h2 hg
  ⟨k.queue, k.staging, k.adverts, k.view, k.fitsA, k.fitsB, k.relays, k.maps, k.busy, k.digest, h, k.power, k.rightA,
    k.rightB, k.time⟩

/-- A record that keeps its actions, and is live or latched only while enabled. -/
theorem setFault {s : State} {k : FaultKind} {x : Nat} {r : FaultRecord} (hl : r.live = true → r.enabled = true)
    (ht : r.latched = true → r.enabled = true) (ha : r.actions = (s.fault k x).actions) :
    Keeps s (s.setFault k x r) := by
  refine records (fun h j y hy => ?_) rfl rfl rfl rfl rfl rfl rfl rfl rfl rfl rfl
  rw [State.fault_setFault]
  split
  · next hp =>
    refine ⟨hl, ht, ?_⟩
    rw [ha, ← State.fault_same_place hp.1]
    exact (h j y hy).2.2
  · exact h j y hy

/-- A record that takes permitted actions. -/
theorem setFault_actions {s : State} {k : FaultKind} {x : Nat} {r : FaultRecord} (hx : x < 16)
    (hl : r.live = true → r.enabled = true) (ht : r.latched = true → r.enabled = true)
    (ha : r.actions.within k.permitted = true) : Keeps s (s.setFault k x r) := by
  refine records (fun h j y hy => ?_) rfl rfl rfl rfl rfl rfl rfl rfl rfl rfl rfl
  rw [State.fault_setFault]
  split
  · next hp => rw [FaultKind.place_inj hy hx hp.1]; exact ⟨hl, ht, ha⟩
  · exact h j y hy

/-- Where the laws need not hold, nothing is asked of a record: it is enough to treat a lawful start. -/
theorem of_lawful {s t : State} (h : s.faultsLawful → Keeps s t) (g : Keeps s { t with faults := s.faults }) :
    Keeps s t :=
  ⟨g.queue, g.staging, g.adverts, g.view, g.fitsA, g.fitsB, g.relays, g.maps, g.busy, g.digest, fun k => (h k).faults k,
    g.power, g.rightA, g.rightB, g.time⟩

/-- An update of the Fault Unit that leaves its records. -/
theorem faultUnit {s : State} {f : FaultUnit} (h : f.records = s.faults.records) : Keeps s { s with faults := f } :=
  trivially rfl rfl rfl rfl rfl rfl rfl h rfl rfl rfl rfl

theorem healthZero (s : State) : Keeps s s.healthZero :=
  trivially rfl rfl rfl rfl rfl rfl rfl rfl rfl rfl rfl rfl

theorem pendRevert (s : State) (k : FaultKind) : Keeps s (s.pendRevert k) :=
  trivially rfl rfl rfl rfl rfl rfl rfl rfl rfl rfl rfl rfl

theorem endByPort (s : State) (c : Nat) (cause : Cause) : Keeps s (s.endByPort c cause) := by
  unfold State.endByPort; split
  · exact abort _ _ _ _
  · exact endByFault _ _

theorem endByCopper (s : State) (c : Nat) : Keeps s (s.endByCopper c) := by
  unfold State.endByCopper; split
  · exact ite (refl s) (abort _ _ _ _)
  · exact abort _ _ _ _

theorem faultEnds (s : State) (k : FaultKind) (c : Nat) : Keeps s (s.faultEnds k c) := by
  cases k
  · exact endByPort _ _ _
  · exact endByPort _ _ _
  · exact endByPort _ _ _
  · exact refl s
  · exact refl s
  · exact endByCopper _ _
  · exact endByCopper _ _
  · exact refl s

theorem faultAbort (s : State) (k : FaultKind) (x : Nat) : Keeps s (s.faultAbort k x) :=
  foldl (fun _ _ => ite (faultEnds _ _ _) (refl _)) _ s

theorem becomeLive {s : State} {k : FaultKind} {x : Nat} (h : (s.fault k x).enabled = true) :
    Keeps s (s.becomeLive k x) := by
  unfold State.becomeLive
  have h1 : Keeps s (s.setFault k x { s.fault k x with live := true, latched := true }) :=
    setFault (fun _ => h) (fun _ => h) rfl
  refine Keeps.trans ?_ (reconditionAll _ _)
  have h2 := (h1.trans (raise _ (faultEvent .faultSet k x))).trans
    (ite (p := (s.fault k x).actions.abort = true) (faultAbort _ k x) (refl _))
  exact h2.trans (ite ((pendRevert _ _).trans (healthZero _)) (refl _))

theorem copperReturns (s : State) : Keeps s s.copperReturns := by
  unfold State.copperReturns; split
  · exact pendRevert _ _
  · exact refl s

theorem ceaseLive (s : State) (k : FaultKind) (x : Nat) : Keeps s (s.ceaseLive k x) :=
  (ite (copperReturns s) (refl s)).trans (reconditionAll _ _)

/-- A place read after it is written, and a place outside the table, which reads as not enabled. -/
theorem enabled_of {s : State} {k : FaultKind} {x : Nat} {r : FaultRecord} (h : (s.fault k x).enabled = true)
    (hr : r.enabled = true) : ((s.setFault k x r).fault k x).enabled = true := by
  rw [State.fault_setFault]; split
  · exact hr
  · exact h

/-- What a lawful record says of itself; a record outside the table is neither enabled, live nor latched. -/
theorem lawful_at {s : State} (h : s.faultsLawful) (k : FaultKind) (x : Nat) :
    ((s.fault k x).live = true → (s.fault k x).enabled = true)
      ∧ ((s.fault k x).latched = true → (s.fault k x).enabled = true) := by
  by_cases hx : ∃ j y, y < 16 ∧ FaultKind.place j y = k.place x
  · obtain ⟨j, y, hy, hp⟩ := hx
    rw [← State.fault_same_place hp]
    exact ⟨(h j y hy).1, (h j y hy).2.1⟩
  · have hn : 53 ≤ k.place x := by
      refine Nat.le_of_not_lt (fun hlt => hx ?_)
      have hk : k.isPort = true ∨ k.place x = 5 + 16 * (k.code - 5) + x := by
        cases k <;> simp [FaultKind.place, FaultKind.isPort]
      rcases hk with hk | hk
      · exact ⟨k, 0, by omega, by simp [FaultKind.place, hk]⟩
      · by_cases h1 : k.place x < 21
        · exact ⟨.copperLos, k.place x - 5, by omega, by rw [FaultKind.place_span rfl]; simp only [FaultKind.code]; omega⟩
        · by_cases h2 : k.place x < 37
          · exact ⟨.switchLos, k.place x - 21, by omega,
              by rw [FaultKind.place_span rfl]; simp only [FaultKind.code]; omega⟩
          · exact ⟨.markerLoss, k.place x - 37, by omega,
              by rw [FaultKind.place_span rfl]; simp only [FaultKind.code]; omega⟩
    have : s.fault k x = FaultRecord.absent := Table.at_of_le _ _ hn
    simp [this, FaultRecord.absent]

/-- A record that keeps its actions, whose live and latched marks are those it had or no. -/
theorem setFault_less {s : State} {k : FaultKind} {x : Nat} {r : FaultRecord}
    (he : r.enabled = (s.fault k x).enabled) (hl : r.live = true → (s.fault k x).live = true)
    (ht : r.latched = true → (s.fault k x).latched = true) (ha : r.actions = (s.fault k x).actions) :
    Keeps s (s.setFault k x r) :=
  of_lawful (fun h => setFault (fun hh => he ▸ (lawful_at h k x).1 (hl hh)) (fun hh => he ▸ (lawful_at h k x).2 (ht hh)) ha)
    (trivially rfl rfl rfl rfl rfl rfl rfl rfl rfl rfl rfl rfl)

theorem declare (s : State) (k : FaultKind) (x : Nat) : Keeps s (s.declare k x) := by
  unfold State.declare
  have h1 : Keeps s (s.setFault k x { s.fault k x with declared := true }) := setFault_less rfl id id rfl
  dsimp only
  split
  · next he => exact h1.trans (becomeLive (enabled_of he he))
  · exact h1

theorem clearFault (s : State) (k : FaultKind) (x : Nat) : Keeps s (s.clearFault k x) := by
  unfold State.clearFault
  dsimp only
  split
  · have h1 : Keeps s (s.setFault k x { s.fault k x with declared := false, live := false }) :=
      setFault_less rfl (by simp) id rfl
    exact (h1.trans (raise _ _)).trans (ceaseLive _ _ _)
  · have h1 : Keeps s (s.setFault k x { s.fault k x with declared := false }) := setFault_less rfl id id rfl
    exact h1

theorem setPolicy {s : State} {k : FaultKind} {e : Bool} {acts : Actions} {x : Nat} (hx : x < 16)
    (ha : acts.within k.permitted = true) : Keeps s (s.setPolicy k e acts x) := by
  unfold State.setPolicy
  dsimp only
  cases e
  · simp only [Bool.false_eq_true, if_false]
    have h1 : Keeps s (s.setFault k x { s.fault k x with
        enabled := false, actions := acts, live := false, latched := false }) :=
      setFault_actions hx (by simp) (by simp) ha
    exact ite (h1.trans (ceaseLive _ _ _)) (h1.trans (reconditionAll _ _))
  · simp only [if_true]
    have h1 : Keeps s (s.setFault k x { s.fault k x with enabled := true, actions := acts }) :=
      setFault_actions hx (fun _ => rfl) (fun _ => rfl) ha
    have he : ((s.setFault k x { s.fault k x with enabled := true, actions := acts }).fault k x).enabled = true := by
      rw [State.fault_setFault, if_pos]
      refine ⟨rfl, ?_⟩
      cases k <;> simp [FaultKind.place, FaultKind.isPort, FaultKind.code] <;> omega
    exact ite ((ite (h1.trans (healthZero _)) h1).trans (reconditionAll _ _)) (ite (h1.trans (becomeLive he)) h1)

/-! ### Reversion and return -/

theorem revertCircuit (s : State) (k : FaultKind) (n : Nat) : Keeps s (s.revertCircuit k n) :=
  (((modCircuit ⟨rfl, rfl, rfl, rfl⟩).trans (returnCells _ _)).trans (raise _ _)).trans (recondition _ _)

/-- Circuits changed all at once, each keeping its slot. -/
theorem mapCircuits {s : State} {f : Nat → Circuit → Circuit} (h : ∀ n c, sameCore (f n c) c) :
    Keeps s { s with circuits := Table.mapIdx s.circuits f } := by
  refine circuits (fun m => ?_)
  by_cases hm : m < 480
  · rw [Table.at_mapIdx _ _ Circuit.reset _ hm]; exact h _ _
  · rw [Table.at_of_le _ _ (Nat.le_of_not_lt hm)]
    simp only [State.circuit, Table.at_of_le _ _ (Nat.le_of_not_lt hm)]
    exact ⟨rfl, rfl, rfl, rfl⟩

theorem restate (s : State) (g : Nat) (old new : MigState) : Keeps s (s.restate g old new) :=
  mapCircuits (fun _ c => by split <;> exact ⟨rfl, rfl, rfl, rfl⟩)

theorem countRevert_busy (g : Group) : g.countRevert.busyCount = g.busyCount := by
  unfold Group.countRevert; split <;> rfl

theorem countRevert (s : State) (g : Nat) : Keeps s (s.countRevert g) := by
  unfold State.countRevert
  have h : Keeps s (s.modGroup g Group.countRevert) := modGroup countRevert_busy
  generalize s.modGroup g Group.countRevert = t at h
  dsimp only
  split
  · refine h.trans (((modGroup ?_).trans (restate _ _ _ _)).trans (raise _ _))
    exact fun _ => rfl
  · exact h

theorem makeRevert (s : State) : Keeps s s.makeRevert := by
  unfold State.makeRevert
  split
  · exact refl s
  · next k _ =>
    dsimp only
    generalize List.filter s.reverts allCircuits = taken
    have h1 := foldl (f := fun t n => State.revertCircuit t k n) (fun t n => revertCircuit t k n) taken s
    exact (h1.trans (foldl countRevert (allGroups.filter _) _)).trans (faultUnit rfl)

theorem expireWindow (s : State) (g : Nat) : Keeps s (s.expireWindow g) := modGroup (fun _ => rfl)

theorem autoQueue (s : State) (n : Nat) : Keeps s (s.autoQueue n) := by
  unfold State.autoQueue
  split
  · next h =>
    exact (queued (fun _ => by
      simp only [List.length_append, List.length_singleton, Config.queueLimit] at *; omega)).trans (raise _ _)
  · exact refl s

theorem autoReturn (s : State) : Keeps s s.autoReturn := foldl autoQueue _ s

theorem makeSlowTick (s : State) : Keeps s s.makeSlowTick := by
  unfold State.makeSlowTick
  dsimp only
  refine Keeps.trans (Keeps.trans (mapGroups (f := fun _ g => g.tickWindow) (fun _ g => ?_)) ?_) (autoReturn _)
  · unfold Group.tickWindow; split <;> rfl
  · exact trivially rfl rfl rfl rfl rfl rfl rfl rfl rfl rfl rfl rfl

/-! ### Spans -/

/-- A span record whose relay still follows its state. -/
theorem modSpan {s : State} {n : Nat} {f : Span → Span}
    (h : (s.span n).relay = (s.span n).state.cut → (f (s.span n)).relay = (f (s.span n)).state.cut) :
    Keeps s (s.modSpan n f) := by
  refine ⟨id, id, id, id, id, id, fun hs x hx => ?_, id, id, id, id, rfl, id, id, id⟩
  rw [State.span_modSpan]
  split
  · next hn => exact h (hs n hn.2)
  · exact hs x hx

theorem becomeCut (s : State) (x : Nat) : Keeps s (s.becomeCut x) :=
  (modSpan (fun _ => rfl)).trans (reconditionAll _ _)

theorem clearMarkerLoss (s : State) (x : Nat) : Keeps s (s.clearMarkerLoss x) :=
  ite ((modSpan id).trans (clearFault _ _ _)) (refl s)

theorem becomeThrough (s : State) (x : Nat) : Keeps s (s.becomeThrough x) :=
  ((modSpan (fun _ => rfl)).trans (clearMarkerLoss _ _)).trans (reconditionAll _ _)

theorem moveSpan (s : State) (x : Nat) (new : SpanState) : Keeps s (s.moveSpan x new) := by
  unfold State.moveSpan
  refine Keeps.trans (t := if (s.span x).state.cut = new.cut then
      (s.forget (.drainComplete x)).modSpan x (fun x => { x with state := new })
    else if new.cut then (s.forget (.drainComplete x)).becomeCut x
    else (s.forget (.drainComplete x)).becomeThrough x) ?_ (raise _ _)
  split
  · next h => exact (forget _ _).trans (modSpan (fun hr => hr.trans h))
  · exact ite ((forget _ _).trans (becomeCut _ _)) ((forget _ _).trans (becomeThrough _ _))

theorem drainTest (s : State) (x : Nat) : Keeps s (s.drainTest x) := by
  unfold State.drainTest
  split
  · exact refl s
  · exact ite (moveSpan _ _ _) (refl s)

theorem recordCopper (s : State) (side : Side) (x : Nat) (c b : Bool) (ss : List Byte) (cs : List CodeArrival) :
    Keeps s (s.recordCopper side x c b ss cs) := by
  unfold State.recordCopper
  dsimp only
  refine Keeps.trans ?_ (modSpan ?_)
  · exact trivially rfl rfl rfl rfl rfl rfl rfl rfl rfl rfl rfl rfl
  · cases side <;> exact id

theorem handLoss (s : State) (side : Side) (x : Nat) (a b : Bool) : Keeps s (s.handLoss side x a b) :=
  ite (refl s) (ite (declare _ _ _) (clearFault _ _ _))

theorem missMarker_state (x : Span) (p : Bool) : (x.missMarker p).state = x.state ∧ (x.missMarker p).relay = x.relay := by
  unfold Span.missMarker; split <;> exact ⟨rfl, rfl⟩

theorem missMarker (s : State) (x : Nat) : Keeps s (s.missMarker x) :=
  modSpan (fun h => by rw [(missMarker_state _ _).1, (missMarker_state _ _).2]; exact h)

theorem markSpan (s : State) (x : Nat) : Keeps s (s.markSpan x) := (modSpan id).trans (clearMarkerLoss _ _)

theorem declareMarkerLoss (s : State) (x : Nat) : Keeps s (s.declareMarkerLoss x) :=
  ite ((modSpan id).trans (declare _ _ _)) (refl s)

theorem takeOwed {s : State} {e : BoundaryEvent} {f : State → State} (h : ∀ t, Keeps t (f t)) :
    Keeps s (s.takeOwed e f) := ite ((forget _ _).trans (h _)) (refl s)

theorem takeDrains (s : State) (x : Nat) : Keeps s (s.takeDrains x) :=
  ite (foldl (fun _ k => takeOwed (fun t => drainTest t k)) _ s) (refl s)

/-! ### The Alignment Engine and the Cell Pool -/

theorem formD (s : State) (x : Nat) : Keeps s (s.formD x) := by
  unfold State.formD
  split
  · exact trivially rfl rfl rfl rfl rfl rfl rfl rfl rfl rfl rfl rfl
  · exact refl s

theorem enterAllocate (s : State) (c : Nat) : Keeps s (s.enterAllocate c) := by
  have h : Keeps s { s.modCtx c (fun x => { x with state := .allocate }) with
      pool := { s.pool with
        waitList := s.pool.waitList ++ [c]
        waitCount := if s.pool.waitList.isEmpty then 0 else s.pool.waitCount } } :=
    trivially rfl rfl rfl rfl rfl rfl rfl rfl rfl rfl rfl rfl
  exact ite h (h.trans (raise _ _))

theorem prepareSwitch (s : State) (c : Nat) : Keeps s (s.prepareSwitch c) :=
  ite (enterReady _ _) (ite ((modCtx _ _ _).trans (enterReady _ _)) (enterAllocate _ _))

theorem endAttempt (s : State) (c : Nat) : Keeps s (s.endAttempt c) :=
  ite ((modCtx _ _ _).trans (prepareSwitch _ _)) (ite (beginAttempt _ _ _) (abort _ _ _ _))

theorem measureIfDue (s : State) (c : Nat) : Keeps s (s.measureIfDue c) := ite (endAttempt _ _) (refl s)

theorem startAttempt (s : State) (c : Nat) : Keeps s (s.startAttempt c) := by
  unfold State.startAttempt
  split
  · exact (forget _ _).trans (beginAttempt _ _ _)
  · exact (forget _ _).trans (beginAttempt _ _ _)
  · exact ((forget _ _).trans (modCtx _ _ _)).trans (enterReady _ _)

theorem startIfDue (s : State) (c : Nat) : Keeps s (s.startIfDue c) := ite (startAttempt _ _) (refl s)

theorem markerTimeoutIfDue (s : State) (c : Nat) : Keeps s (s.markerTimeoutIfDue c) := ite (abort _ _ _ _) (refl s)

theorem presetOn_core (c : Circuit) (p : Path) (k : Nat) : sameCore (c.presetOn p k) c := by
  cases p <;> exact ⟨rfl, rfl, rfl, rfl⟩


theorem serve (s : State) (c : Nat) : Keeps s (s.serve c) := by
  have h : Keeps s (State.modCtx { s with
      pool := ⟨s.pool.free - (s.ctx c).need, s.pool.waitList.tail, 0⟩ } c (fun y => { y with cells := (s.ctx c).need })) :=
    trivially rfl rfl rfl rfl rfl rfl rfl rfl rfl rfl rfl rfl
  exact ite ((h.trans (modCircuit (presetOn_core _ _ _))).trans (enterReady _ _)) (h.trans (modCtx _ _ _))

theorem servicePool (k : Nat) (s : State) : Keeps s (s.servicePool k) := by
  induction k generalizing s with
  | zero => exact refl s
  | succ k ih =>
    unfold State.servicePool
    split
    · exact refl s
    · exact ite ((serve _ _).trans (ih _)) (refl s)

theorem serviceAll (s : State) : Keeps s s.serviceAll := servicePool 8 s

theorem poolTimeoutIfDue (s : State) : Keeps s s.poolTimeoutIfDue := by
  unfold State.poolTimeoutIfDue
  split
  · exact refl s
  · exact ite (abort _ _ _ _) (refl s)

theorem insertOn_core (c : Circuit) (p : Path) : sameCore (c.insertOn p) c := by
  cases p <;> exact ⟨rfl, rfl, rfl, rfl⟩

theorem slipOn_core (c : Circuit) (p : Path) : sameCore (c.slipOn p) c := by
  cases p <;> exact ⟨rfl, rfl, rfl, rfl⟩


theorem walkInsert (s : State) (n c : Nat) : Keeps s (s.walkInsert n c) :=
  ite ((modCircuit (insertOn_core _ _)).trans (enterReady _ _)) (modCircuit (insertOn_core _ _))

theorem walkSlip (s : State) (n : Nat) : Keeps s (s.walkSlip n) := by
  have h : ∀ b, Keeps s ((s.modCircuit n (fun c => { c.slipOn c.residualPath with
      residual := c.residual - 1, cellsHeld := c.cellsHeld - b })).returnCells b) := fun b =>
    (modCircuit (core_of (slipOn_core _ _) rfl rfl rfl rfl)).trans (returnCells _ _)
  exact ite ((h _).trans (raise _ _)) (h _)

theorem walkCircuit (s : State) (n : Nat) : Keeps s (s.walkCircuit n) := by
  unfold State.walkCircuit
  dsimp only
  split
  · exact ite (walkInsert _ _ _) (ite (walkSlip _ _) (refl s))
  · exact ite (walkSlip _ _) (refl s)

theorem walk (s : State) : Keeps s s.walk :=
  Keeps.trans (foldl walkCircuit _ s) (trivially rfl rfl rfl rfl rfl rfl rfl rfl rfl rfl rfl rfl)

end Keeps
end Sys2Proof.Machine
end

