-- ==== Sys2Proof/Laws/Faults.lean ====
section
/-! SUPPORT. Laws/Faults.lean: what a declaration, a clearing and a change of policy can do to the part, said once
(section 9.2). -/

namespace Sys2Proof.Machine

/-- From `s` to `t` fault records have been worked on: contexts may have ended and circuits been conditioned with them.
Spans, port, map, settings and the view stay; of a circuit neither its provisioning nor its slot changes. -/
structure FaultsActed (s t : State) : Prop where
  same : t = { s with
    owed := t.owed, circuits := t.circuits, groups := t.groups, contexts := t.contexts, queue := t.queue
    pool := t.pool, peer := t.peer, faults := t.faults, linkA := t.linkA, linkB := t.linkB }
  provisioning : ∀ m, (t.circuit m).equipped = (s.circuit m).equipped ∧ (t.circuit m).group = (s.circuit m).group
    ∧ (t.circuit m).cls = (s.circuit m).cls ∧ (t.circuit m).held = (s.circuit m).held
    ∧ (t.circuit m).slot = (s.circuit m).slot ∧ (t.circuit m).forward = (s.circuit m).forward
    ∧ (t.circuit m).copperLast = (s.circuit m).copperLast ∧ (t.circuit m).fibreLast = (s.circuit m).fibreLast
  group : ∀ g, t.group g = { s.group g with
    busyCount := (t.group g).busyCount, seizureCount := (t.group g).seizureCount }
  peer : t.peer = { s.peer with adverts := t.peer.adverts, serial := t.peer.serial }
  adverts : t.peer.adverts.map Advert.slot = s.peer.adverts.map Advert.slot

namespace FaultsActed

theorem refl (s : State) : FaultsActed s s :=
  ⟨rfl, fun _ => ⟨rfl, rfl, rfl, rfl, rfl, rfl, rfl, rfl⟩, fun _ => rfl, rfl, rfl⟩

theorem trans {s t u : State} (h : FaultsActed s t) (k : FaultsActed t u) : FaultsActed s u where
  same := by rw [k.same, h.same]
  provisioning := fun m => by
    obtain ⟨a1, a2, a3, a4, a5, a6, a7, a8⟩ := h.provisioning m
    obtain ⟨b1, b2, b3, b4, b5, b6, b7, b8⟩ := k.provisioning m
    exact ⟨b1.trans a1, b2.trans a2, b3.trans a3, b4.trans a4, b5.trans a5, b6.trans a6, b7.trans a7, b8.trans a8⟩
  group := fun g => by rw [k.group g, h.group g]
  peer := by rw [k.peer, h.peer]
  adverts := k.adverts.trans h.adverts

theorem ite {s t u : State} {p : Prop} [Decidable p] (h : FaultsActed s t) (k : FaultsActed s u) :
    FaultsActed s (if p then t else u) := by
  split
  · exact h
  · exact k

theorem of_worked {c : Nat} {s t : State} (h : Worked c s t) : FaultsActed s t :=
  ⟨by rw [h.same], h.provisioning, h.group, h.peer, h.adverts⟩

theorem of_records (s : State) (f : FaultUnit) : FaultsActed s { s with faults := f } :=
  ⟨rfl, fun _ => ⟨rfl, rfl, rfl, rfl, rfl, rfl, rfl, rfl⟩, fun _ => rfl, rfl, rfl⟩

theorem of_rederived {ns : List Nat} {s t : State} (h : Rederived ns s t) : FaultsActed s t := by
  have hs := h.same
  have hp : t.peer = s.peer := by rw [hs]
  refine ⟨by rw [hs], fun m => ?_, h.group, by rw [hp], by rw [hp]⟩
  rw [h.circuit m]; exact ⟨rfl, rfl, rfl, rfl, rfl, rfl, rfl, rfl⟩

theorem raise (s : State) (e : Event) : FaultsActed s (s.raise e) := of_worked (Worked.raise 0 s e)

theorem setFault (s : State) (k : FaultKind) (x : Nat) (r : FaultRecord) : FaultsActed s (s.setFault k x r) :=
  of_records s _

theorem reconditionAll (s : State) (ns : List Nat) : FaultsActed s (s.reconditionAll ns) :=
  of_rederived (Rederived.reconditionAll s ns)

theorem pendRevert (s : State) (k : FaultKind) : FaultsActed s (s.pendRevert k) := of_records s _
theorem healthZero (s : State) : FaultsActed s s.healthZero := of_records s _

theorem faultEnds (k : FaultKind) (c : Nat) (s : State) : FaultsActed s (s.faultEnds k c) := by
  have hp : ∀ cause, FaultsActed s (s.endByPort c cause) := fun cause => by
    unfold State.endByPort
    split
    · exact of_worked (Worked.abort c cause none s)
    · exact of_worked (Worked.endByFault c s)
  have hc : FaultsActed s (s.endByCopper c) := by
    unfold State.endByCopper
    split
    · exact ite (refl s) (of_worked (Worked.abort c _ none s))
    · exact of_worked (Worked.abort c _ none s)
  cases k
  · exact hp _
  · exact hp _
  · exact hp _
  · exact refl s
  · exact refl s
  · exact hc
  · exact hc
  · exact refl s

theorem faultAbort (k : FaultKind) (x : Nat) (s : State) : FaultsActed s (s.faultAbort k x) := by
  have : ∀ (cs : List Nat) (t : State), FaultsActed t
      (cs.foldl (fun u c => if u.faultReaches k x c then u.faultEnds k c else u) t) := by
    intro cs
    induction cs with
    | nil => exact fun t => refl t
    | cons c rest ih => exact fun t => (ite (faultEnds k c t) (refl t)).trans (ih _)
  exact this _ s

theorem becomeLive (k : FaultKind) (x : Nat) (s : State) : FaultsActed s (s.becomeLive k x) := by
  have h2 : FaultsActed s ((s.setFault k x { s.fault k x with live := true, latched := true }).raise
      (faultEvent .faultSet k x)) := (setFault s k x _).trans (raise _ _)
  simp only [State.becomeLive]
  refine FaultsActed.trans ?_ (reconditionAll _ _)
  have h3 := h2.trans (ite (p := (s.fault k x).actions.abort = true) (faultAbort k x _) (refl _))
  exact h3.trans (ite ((pendRevert _ k).trans (healthZero _)) (refl _))

/-- A declaration (R151). -/
theorem declare (k : FaultKind) (x : Nat) (s : State) : FaultsActed s (s.declare k x) := by
  simp only [State.declare]
  exact (setFault s k x _).trans (ite (becomeLive k x _) (refl _))

theorem ceaseLive (k : FaultKind) (x : Nat) (s : State) : FaultsActed s (s.ceaseLive k x) := by
  refine FaultsActed.trans (ite ?_ (refl s)) (reconditionAll _ _)
  unfold State.copperReturns
  split
  · exact pendRevert s _
  · exact refl s

/-- A clearing (R151). -/
theorem clearFault (k : FaultKind) (x : Nat) (s : State) : FaultsActed s (s.clearFault k x) := by
  simp only [State.clearFault]
  exact ite (((setFault s k x _).trans (raise _ _)).trans (ceaseLive k x _)) (setFault s k x _)

/-- A change of policy (R154). -/
theorem setPolicy (k : FaultKind) (on : Bool) (acts : Actions) (x : Nat) (s : State) :
    FaultsActed s (s.setPolicy k on acts x) := by
  simp only [State.setPolicy]
  split
  · refine FaultsActed.trans (setFault s k x _) (ite ?_ (ite (becomeLive k x _) (refl _)))
    exact FaultsActed.trans (ite (healthZero _) (refl _)) (reconditionAll _ _)
  · exact (setFault s k x _).trans (ite (ceaseLive k x _) (reconditionAll _ _))

end FaultsActed

end Sys2Proof.Machine
end

