-- ==== Sys2Proof/Laws/KeepsEvents.lean ====
section
/-! SUPPORT. Laws/KeepsEvents.lean: the laws of the whole part (Safety.lean) through the apply of the map, the receivers
of the fibre, settling, the answers on the links, and the frame. -/

namespace Sys2Proof.Machine

/-! ### The carriage map -/

theorem State.boundTo_bind (s : State) (slot n k : Nat) (h : slot < 512) :
    (s.bind slot n).boundTo k = if k = slot then some n else s.boundTo k := by
  have := Table.at_put_at s.map.entries none (some n) slot k
  simpa [State.bind, State.boundTo, h] using this

theorem State.boundTo_unbind (s : State) (slot n k : Nat) (h : slot < 512) :
    (s.unbind slot n).boundTo k = if k = slot then none else s.boundTo k := by
  have := Table.at_put_at s.map.entries none none slot k
  simpa [State.unbind, State.boundTo, h] using this

theorem State.circuit_bind (s : State) (slot n m : Nat) :
    (s.bind slot n).circuit m = if m = n ∧ n < 480 then { s.circuit n with slot := some slot } else s.circuit m :=
  State.circuit_modCircuit s n m (fun c => { c with slot := some slot })

theorem State.circuit_unbind (s : State) (slot n m : Nat) :
    (s.unbind slot n).circuit m = if m = n ∧ n < 480 then { s.circuit n with slot := none } else s.circuit m :=
  State.circuit_modCircuit s n m (fun c => { c with slot := none })

/-- A free slot bound to a circuit without one leaves the map lawful (R73). -/
theorem State.bind_lawful {s : State} {slot n : Nat} (h : s.mapLawful) (hs : slot < 512) (hn : n < 480)
    (hb : s.boundTo slot = none) (hc : (s.circuit n).slot = none) : (s.bind slot n).mapLawful := by
  obtain ⟨h1, h2, h3, h4⟩ := h
  refine ⟨fun k m hk hm => ?_, fun k m hkm => ?_, fun m k hmk => ?_, h4⟩
  · rw [State.boundTo_bind _ _ _ _ hs, State.circuit_bind]
    have h1' := h1 k m hk hm
    by_cases e1 : k = slot <;> by_cases e2 : m = n
    · subst e1 e2; simp [hm]
    · subst e1; simp only [if_true, e2, false_and, if_false, Option.some.injEq]
      rw [← h1', hb]; simp [Ne.symm e2]
    · subst e2; simp only [e1, if_false, hn, and_self, if_true, Option.some.injEq]
      rw [h1', hc]; simp [Ne.symm e1]
    · simp only [e1, e2, if_false, false_and]; exact h1'
  · rw [State.boundTo_bind _ _ _ _ hs] at hkm
    split at hkm
    · next e => simp only [Option.some.injEq] at hkm; omega
    · exact h2 k m hkm
  · rw [State.circuit_bind] at hmk
    split at hmk
    · next e => simp only [Option.some.injEq] at hmk; omega
    · exact h3 m k hmk

/-- A bound slot freed leaves the map lawful (R73). -/
theorem State.unbind_lawful {s : State} {slot n : Nat} (h : s.mapLawful) (hb : s.boundTo slot = some n) :
    (s.unbind slot n).mapLawful := by
  obtain ⟨h1, h2, h3, h4⟩ := h
  obtain ⟨hs, hn⟩ := h2 slot n hb
  refine ⟨fun k m hk hm => ?_, fun k m hkm => ?_, fun m k hmk => ?_, h4⟩
  · rw [State.boundTo_unbind _ _ _ _ hs, State.circuit_unbind]
    have h1' := h1 k m hk hm
    have h1s := h1 slot m hs hm
    have hkn := h1 k n hk hn
    have hc : (s.circuit n).slot = some slot := (h1 slot n hs hn).mp hb
    by_cases e1 : k = slot <;> by_cases e2 : m = n
    · subst e1 e2; simp [hm]
    · subst e1; simp only [if_true, e2, false_and, if_false]
      rw [← h1', hb]; simp [Ne.symm e2]
    · subst e2; simp only [e1, if_false, hn, and_self, if_true]
      rw [h1', hc]; simp [Ne.symm e1]
    · simp only [e1, e2, if_false, false_and]; exact h1'
  · rw [State.boundTo_unbind _ _ _ _ hs] at hkm
    split at hkm
    · simp at hkm
    · exact h2 k m hkm
  · rw [State.circuit_unbind] at hmk
    split at hmk
    · simp at hmk
    · exact h3 m k hmk

/-- The range law of one edit (R75). -/
def Edit.inRange : Edit → Prop
  | .assign slot n => slot < 512 ∧ n < 480
  | .release slot => slot < 512

theorem State.makeEdit_lawful {w : State} {e : Edit} (h : w.mapLawful) (hr : e.inRange)
    (hf : w.editFails e = none) : (w.makeEdit e).mapLawful := by
  cases e with
  | assign slot n =>
    have hb : w.boundTo slot = none := by
      cases hw : w.boundTo slot with
      | none => rfl
      | some m => simp [State.editFails, hw] at hf
    have hc : (w.circuit n).slot = none := by
      cases hw : (w.circuit n).slot with
      | none => rfl
      | some m => simp [State.editFails, hb, hw] at hf
    exact w.bind_lawful h hr.1 hr.2 hb hc
  | release slot =>
    cases hw : w.boundTo slot with
    | none => simp [State.editFails, hw] at hf
    | some n =>
      have : w.makeEdit (.release slot) = w.unbind slot n := by simp [State.makeEdit, hw]
      rw [this]
      exact w.unbind_lawful h hw

/-- What making an edit changes: the entries and the circuits' slots, and nothing else (R73, R79). -/
theorem State.makeEdit_same (w : State) (e : Edit) :
    w.makeEdit e = { w with
      circuits := (w.makeEdit e).circuits, map := { w.map with entries := (w.makeEdit e).map.entries } } := by
  cases e with
  | assign slot n => rfl
  | release slot =>
    simp only [State.makeEdit]
    split <;> rfl

theorem State.judge_same {w u : State} {i : Nat} {es : List Edit} (h : w.judge i es = .inl u) :
    u = { w with circuits := u.circuits, map := { w.map with entries := u.map.entries } } := by
  induction es generalizing w i with
  | nil => simp only [State.judge, Sum.inl.injEq] at h; subst h; rfl
  | cons e rest ih =>
    unfold State.judge at h
    split at h
    · simp at h
    · have := ih h
      rw [State.makeEdit_same w e] at this
      rw [this]

/-- Making an edit changes nothing of a circuit but its slot. -/
theorem State.makeEdit_circuit (w : State) (e : Edit) (m : Nat) :
    (w.makeEdit e).circuit m = { w.circuit m with slot := ((w.makeEdit e).circuit m).slot } := by
  cases e with
  | assign slot n =>
    show (w.bind slot n).circuit m = { w.circuit m with slot := ((w.bind slot n).circuit m).slot }
    rw [State.circuit_bind]; split
    · next hm => rw [hm.1]
    · rfl
  | release slot =>
    simp only [State.makeEdit]
    split
    · rfl
    · rw [State.circuit_unbind]; split
      · next hm => rw [hm.1]
      · rfl

theorem State.judge_circuit {w u : State} {i : Nat} {es : List Edit} (h : w.judge i es = .inl u) (m : Nat) :
    u.circuit m = { w.circuit m with slot := (u.circuit m).slot } := by
  induction es generalizing w i with
  | nil => simp only [State.judge, Sum.inl.injEq] at h; subst h; rfl
  | cons e rest ih =>
    unfold State.judge at h
    split at h
    · simp at h
    · have := ih h
      rw [State.makeEdit_circuit w e m] at this
      exact this

theorem State.judge_lawful {w u : State} {i : Nat} {es : List Edit} (hw : w.mapLawful)
    (hr : ∀ e, e ∈ es → e.inRange) (h : w.judge i es = .inl u) : u.mapLawful := by
  induction es generalizing w i with
  | nil => simp only [State.judge, Sum.inl.injEq] at h; subst h; exact hw
  | cons e rest ih =>
    unfold State.judge at h
    split at h
    · simp at h
    · next hf => exact ih (w.makeEdit_lawful hw (hr e (by simp)) hf) (fun e he => hr e (by simp [he])) h

/-- The staging list's part of the range law. -/
theorem State.mapLawful.staged {s : State} (h : s.mapLawful) (e : Edit) (he : e ∈ s.map.staging) : e.inRange := by
  have := h.2.2.2 e he
  cases e <;> exact this

namespace Keeps

theorem adopt {s w : State} (hj : s.judge 0 s.map.staging = .inl w) : Keeps s (s.adopt w) := by
  refine Keeps.trans (t := { w with map := { w.map with
      staging := [], ownDigest := digestOf w.map.entries,
      run := if digestOf w.map.entries = s.map.ownDigest then s.map.run else 0 } }) ?_
    ((raise _ _).trans (reconditionAll _ _))
  have hw := State.judge_same hj
  have g : ∀ v : Vector Circuit 480, ∀ m : CarriageMap, m.staging = [] → m.ownDigest = digestOf m.entries →
      (s.mapLawful → State.mapLawful { s with circuits := v, map := m }) →
      (∀ n, sameCoreButSlot (Table.at v Circuit.reset n) (s.circuit n)) →
      Keeps s { s with circuits := v, map := m } := fun v m h1 h2 h3 h4 =>
    ⟨id, fun _ => by simp [h1], id, id, id, id, id, h3, busy_of_but_slot h4 (fun _ => rfl), fun _ => h2, id, rfl, id,
      id, id⟩
  rw [hw]
  refine g _ _ rfl rfl (fun h => ?_) (fun n => ?_)
  swap
  · have := State.judge_circuit hj n
    simp only [State.circuit] at this ⊢
    rw [this]
    exact ⟨rfl, rfl, rfl⟩
  obtain ⟨k1, k2, k3, _⟩ := State.judge_lawful h h.staged hj
  exact ⟨k1, k2, k3, by simp⟩

theorem applyEdits (s : State) : Keeps s s.applyEdits.1 := by
  unfold State.applyEdits
  split
  · next hj => exact adopt hj
  · exact refl s

theorem answer (s : State) (l : Link) (st : Status) (d : List Byte) : Keeps s (s.answer l st d) :=
  modLink (fun h => h) (fun h => h)

/-- An update of the map's marks, digest of the peer and run count. -/
theorem marks {s : State} {m : CarriageMap} (he : m.entries = s.map.entries) (hs : m.staging = s.map.staging)
    (hd : m.ownDigest = s.map.ownDigest) : Keeps s { s with map := m } :=
  ⟨id, by simp [hs], id, id, id, id, id, maps_of he hs (fun _ => rfl), id,
    fun h => by simp only [State.digestCurrent, hd, he]; exact h, id, rfl, id, id, id⟩

theorem makeApply (s : State) : Keeps s s.makeApply := by
  unfold State.makeApply
  dsimp only
  have h := (applyEdits s).trans (marks (m := { s.applyEdits.1.map with applyPending := false, applyAnswer := false })
    rfl rfl rfl)
  split
  · split
    · exact h.trans (answer _ _ _ _)
    · split
      · exact h.trans (modLink (fun h => h) (fun h => h))
      · exact h
  · exact refl s

theorem takeDigest (s : State) (d : BitVec 16) : Keeps s (s.takeDigest d) := by
  unfold State.takeDigest
  dsimp only
  have h : ∀ m : CarriageMap, m.entries = s.map.entries → m.staging = s.map.staging →
      m.ownDigest = s.map.ownDigest → Keeps s { s with map := m } := fun m a b c => marks a b c
  split
  · split
    · split
      · refine Keeps.trans ?_ (clearFault _ _ _); exact h _ rfl rfl rfl
      · exact h _ rfl rfl rfl
    · exact h _ rfl rfl rfl
  · split
    · exact h _ rfl rfl rfl
    · split
      · refine Keeps.trans ?_ (declare _ _ _); exact h _ rfl rfl rfl
      · exact h _ rfl rfl rfl

/-! ### The Peer Exchange -/

theorem insertView_length (e : ViewEntry) (l : List ViewEntry) : (insertView e l).length = l.length + 1 := by
  induction l with
  | nil => rfl
  | cons x rest ih => unfold insertView; split <;> simp [ih]

theorem updateView (s : State) (st : Step) (w : ExchangeWord) : Keeps s (s.updateView st w) := by
  unfold State.updateView
  dsimp only
  split
  · exact peer id (by simp)
  · split
    · next h => exact peer id (fun _ => by simp only [insertView_length, Config.viewLimit] at *; omega)
    · exact peer id id

theorem ageOut (s : State) (x : Nat) : Keeps s (s.ageOut x) := by
  unfold State.ageOut
  have h : Keeps s { s with peer := { s.peer with view := s.peer.view.filter (fun y => y.slot != x) } } :=
    peer id (fun h => Nat.le_trans (List.length_filter_le _ _) h)
  split
  · split
    · dsimp only
      split
      · exact h.trans (modCtx _ _ _)
      · exact h
    · exact refl s
  · exact refl s

theorem declareSilentIfDue (s : State) : Keeps s s.declareSilentIfDue := by
  unfold State.declareSilentIfDue
  split
  · refine Keeps.trans ?_ (declare _ _ _); exact peer id id
  · exact refl s

theorem clearSilent (s : State) : Keeps s s.clearSilent := by
  unfold State.clearSilent
  split
  · refine Keeps.trans ?_ (clearFault _ _ _); exact peer id id
  · exact refl s

theorem judgeSite (s : State) (x : Nat) : Keeps s (s.judgeSite x) := by
  unfold State.judgeSite
  dsimp only
  split
  · split
    · exact peer id id
    · split
      · refine Keeps.trans ?_ (clearFault _ _ _); exact peer id id
      · exact peer id id
  · split
    · refine Keeps.trans ?_ (declare _ _ _); exact peer id id
    · exact refl s

theorem peerAborts (s : State) (c : Nat) (b : Byte) : Keeps s (s.peerAborts c b) := ite (defer _ _) (abort _ _ _ _)

theorem glare (s : State) (c : Nat) (d : Direction) (x : Nat) : Keeps s (s.glare c d x) :=
  ite (refl s) (ite ((modCtx _ _ _).trans (enterMeasure _ _)) (abort _ _ _ _))

theorem actOn (s : State) (c : Nat) (st : Step) (b : Byte) (x : Nat) : Keeps s (s.actOn c st b x) := by
  unfold State.actOn
  split <;> first
    | exact refl s
    | exact enterMeasure _ _
    | exact peerAborts _ _ _
    | exact abort _ _ _ _
    | exact glare _ _ _ _
    | exact modCtx _ _ _

theorem confirm (s : State) (c : Nat) (e : ViewEntry) : Keeps s (s.confirm c e) := (modCtx _ _ _).trans (actOn _ _ _ _ _)

theorem accept (s : State) (d : Direction) (x n c : Nat) : Keeps s (s.accept d x n c) := by
  unfold State.accept
  dsimp only
  refine Keeps.trans (Keeps.trans (Keeps.trans (Keeps.trans (Keeps.trans (Keeps.trans ?_ (setCtx _ _ _))
    (migrate _ _ _)) (makeContextEntry _ _ _ _)) (enterMeasure _ _)) (raise _ _)) (recondition _ _)
  exact queued (fun h => Nat.le_trans (List.length_filter_le _ _) h)

theorem judgeRequest (s : State) (d : Direction) (x : Nat) : Keeps s (s.judgeRequest d x) := by
  unfold State.judgeRequest
  split
  · exact makeLinger _ _ _ _
  · exact accept _ _ _ _ _
  · exact refl s

theorem stale (s : State) (x : Nat) : Keeps s (State.answerStep.stale s x) := ite (refl s) (makeLinger _ _ _ _)

theorem answerStep (s : State) (x : Nat) (st : Step) : Keeps s (s.answerStep x st) := by
  unfold State.answerStep
  split <;> first
    | exact refl s
    | exact stale _ _
    | exact ite (refl s) (judgeRequest _ _ _)

theorem dispatchSighting (s : State) (x : Nat) : Keeps s (s.dispatchSighting x) := by
  unfold State.dispatchSighting
  split
  · split
    · split
      · exact confirm _ _ _
      · exact answerStep _ _ _
    · exact refl s
  · exact refl s

theorem exchangeWord (s : State) (w : ExchangeWord) : Keeps s (s.exchangeWord w) := by
  unfold State.exchangeWord
  dsimp only
  split
  · exact judgeSite _ _
  · exact (judgeSite _ _).trans (takeDigest _ _)
  · exact ((judgeSite _ _).trans (updateView _ _ _)).trans (dispatchSighting _ _)

/-! ### The Fibre Port -/

/-- No law reads the Fibre Port. -/
theorem port (s : State) (p : FibrePort) : Keeps s { s with port := p } :=
  trivially rfl rfl rfl rfl rfl rfl rfl rfl rfl rfl rfl rfl

theorem validWord (s : State) (w : ExchangeWord) : Keeps s (s.validWord w) := by
  unfold State.validWord
  exact ((port _ _).trans (clearSilent _)).trans (exchangeWord _ _)

theorem checkWord (s : State) (b : List Byte) : Keeps s (s.checkWord b) := ite (validWord _ _) (port _ _)

theorem goodFrame (s : State) (b : List Byte) : Keeps s (s.goodFrame b) := by
  unfold State.goodFrame
  exact ((port s (((s.port.deliver b).refresh b).mark b s.frameCount)).trans (reconditionAll _ _)).trans
    (checkWord _ _)

theorem judgeFrame (s : State) (b : List Byte) : Keeps s (s.judgeFrame b) := ite (goodFrame _ _) (port _ _)

theorem loseFibre (s : State) : Keeps s s.loseFibre := by
  unfold State.loseFibre
  exact ((port _ _).trans (declare _ _ _)).trans (reconditionAll _ _)

theorem regainFibre (s : State) (p : Nat) (b : List Byte) : Keeps s (s.regainFibre p b) := by
  unfold State.regainFibre
  exact ((port _ _).trans (clearFault _ _ _)).trans (judgeFrame _ _)

theorem hunt (s : State) (l : List Byte) (i : Nat) : Keeps s (s.hunt l i) := port _ _

theorem receiveAligned (s : State) (l : List Byte) (i : Nat) : Keeps s (s.receiveAligned l i) := by
  unfold State.receiveAligned
  exact ite ((port _ _).trans (judgeFrame _ _)) (ite ((loseFibre _).trans (hunt _ _ _)) ((port _ _).trans (port _ _)))

theorem receiveTrial (s : State) (l : List Byte) (p i : Nat) : Keeps s (s.receiveTrial l p i) := by
  unfold State.receiveTrial
  exact ite (ite (regainFibre _ _ _) (port _ _)) (hunt _ _ _)

theorem receiveCarriage (s : State) (x : Nat) (b : List Byte) : Keeps s (s.receiveCarriage x b) := by
  unfold State.receiveCarriage
  generalize hp : frameAt b x = q
  dsimp only
  split
  · split
    · exact (port _ _).trans (hunt _ _ _)
    · exact (port _ _).trans (receiveTrial _ _ _ _)
  · split
    · exact port _ _
    · exact (port _ _).trans (receiveAligned _ _ _)

theorem judgeWindow (s : State) : Keeps s s.judgeWindow := by
  unfold State.judgeWindow
  dsimp only
  refine ite (refl s) (ite (ite (refl s) ?_) (ite ?_ (refl s)))
  · exact (port _ _).trans (declare _ _ _)
  · exact (port _ _).trans (clearFault _ _ _)

theorem endWindow (s : State) : Keeps s s.endWindow := by
  unfold State.endWindow
  dsimp only
  exact ite ((judgeWindow _).trans (port _ _)) (refl s)

/-! ### Settling, rows and commands -/

theorem settleContext (s : State) (c : Nat) : Keeps s (s.settleContext c) :=
  (((serviceAll _).trans (completeIfDue _ _)).trans (startIfDue _ _)).trans (measureIfDue _ _)

theorem settle (s : State) : Keeps s s.settle :=
  ((declareSilentIfDue _).trans (foldl settleContext _ _)).trans (serviceAll _)

theorem event {s : State} {f : State → State} (h : ∀ t, Keeps t (f t)) : Keeps s (s.event f) :=
  ite ((settle _).trans (h _)) (refl s)

theorem owedEvent {s : State} {e : BoundaryEvent} {f : State → State} (h : ∀ t, Keeps t (f t)) :
    Keeps s (s.owedEvent e f) := event (fun _ => takeOwed h)

/-- An update of a link that leaves its notice account. -/
theorem onLink {s : State} {l : Link} {f : LinkRec → LinkRec} (hn : (f (s.link l)).notices = (s.link l).notices)
    (ho : (f (s.link l)).overflow = (s.link l).overflow) (ht : (f (s.link l)).threshold = (s.link l).threshold)
    (ha : (f (s.link l)).attention = (s.link l).attention) : Keeps s (s.modLink l f) :=
  modLink (fun h => by simp only [LinkRec.fits, hn]; exact h)
    (fun h => by simp only [LinkRec.right, LinkRec.wantsAttention, hn, ho, ht, ha]; exact h)

theorem respond (s : State) (l : Link) (st : Status) (d : List Byte) : Keeps s (s.respond l st d) :=
  (onLink rfl rfl rfl rfl).trans (answer _ _ _ _)

theorem command {s : State} {l : Link} {role : CommandRole} {i : Instr} {body : State → Reply}
    (h : ∀ t, Keeps t (body t).state) : Keeps s (s.command l role i body) :=
  event (fun _ => ite (ite ((h _).trans (respond _ _ _ _)) (respond _ _ _ _)) (refl _))

/-! ### The boundary and the frame -/

theorem openBoundary (s : State) : Keeps s s.openBoundary := by
  refine ⟨id, id, id, id, id, id, id, id, id, id, id, rfl, id, id, fun h => ⟨h.1, ?_⟩⟩
  show (s.stamp + 1) % 65536 < 65536
  omega

theorem tick_account (k : LinkRec) (t : Option Nat) : (k.tick t).notices = k.notices ∧ (k.tick t).overflow = k.overflow
    ∧ (k.tick t).threshold = k.threshold ∧ (k.tick t).attention = k.attention := by
  unfold LinkRec.tick
  split
  · split <;> exact ⟨rfl, rfl, rfl, rfl⟩
  · exact ⟨rfl, rfl, rfl, rfl⟩

theorem account_right {j k : LinkRec} (h : j.notices = k.notices ∧ j.overflow = k.overflow
    ∧ j.threshold = k.threshold ∧ j.attention = k.attention) (hk : k.right) : j.right := by
  obtain ⟨h1, h2, h3, h4⟩ := h
  simp only [LinkRec.right, LinkRec.wantsAttention, h1, h2, h3, h4] at *
  exact hk

theorem tickWork (s : State) : Keeps s s.tickWork :=
  ⟨id, id, fun h => by simpa [State.tickWork] using h, id, id, id, id, id, id, id, id, rfl, id, id, id⟩

theorem tickPorts (s : State) : Keeps s s.tickPorts :=
  ⟨id, id, id, id,
    fun h => by show (s.linkA.tick _).notices.length ≤ 32; rw [(tick_account _ _).1]; exact h,
    fun h => by show (s.linkB.tick _).notices.length ≤ 32; rw [(tick_account _ _).1]; exact h,
    id, id, id, id, id, rfl, account_right (tick_account _ _), account_right (tick_account _ _), id⟩

theorem silenceIfDue (s : State) (l : Link) : Keeps s (s.silenceIfDue l) :=
  ite ((onLink rfl rfl rfl rfl).trans (raise _ _)) (refl s)

theorem expireLinger (s : State) (x : Nat) : Keeps s (s.expireLinger x) := by
  unfold State.expireLinger
  split
  · exact peer (fun h => Nat.le_trans (removeAt_length _ _) h) id
  · exact refl s

theorem stepTimeoutIfDue (s : State) (c : Nat) : Keeps s (s.stepTimeoutIfDue c) := ite (abort _ _ _ _) (refl s)
theorem bridgeTimeoutIfDue (s : State) (c : Nat) : Keeps s (s.bridgeTimeoutIfDue c) := ite (abort _ _ _ _) (refl s)

theorem makeAdmission (s : State) : Keeps s s.makeAdmission := by
  unfold State.makeAdmission
  split
  · exact refl s
  · split
    · exact admitEntry _ _ _
    · exact refl s

theorem perform (s : State) (e : BoundaryEvent) : Keeps s (s.perform e) := by
  cases e
  · exact owedEvent (fun t => returnIfPending t _)
  · exact owedEvent (fun t => makeSwitch t _)
  · exact owedEvent makeRevert
  · exact owedEvent walk
  · exact owedEvent makeApply
  · next x => exact event (f := fun t => State.takeDrains t x) (fun t => takeDrains t x)
  · exact owedEvent makeSlowTick
  · exact owedEvent endWindow
  · exact owedEvent (fun t => expireWindow t _)
  · exact owedEvent (fun t => stepTimeoutIfDue t _)
  · exact owedEvent (fun t => bridgeTimeoutIfDue t _)
  · exact owedEvent poolTimeoutIfDue
  · exact owedEvent (fun t => endAborting t _)
  · exact owedEvent (fun t => expireLinger t _)
  · exact owedEvent (fun t => silenceIfDue t _)
  · exact owedEvent makeAdmission

theorem owe (s : State) (es : List BoundaryEvent) : Keeps s { s with owed := es } :=
  trivially rfl rfl rfl rfl rfl rfl rfl rfl rfl rfl rfl rfl

theorem boundary (s : State) (es : List BoundaryEvent) : Keeps s (s.boundary es) := by
  unfold State.boundary
  split
  · unfold State.takeBoundary
    have h := (((openBoundary s).trans (tickWork _)).trans (foldl perform es _)).trans (settle _)
    exact ((h.trans (supervise _)).trans (tickPorts _)).trans (owe _ _)
  · exact refl s

theorem missMarkers (s : State) : Keeps s s.missMarkers := by
  refine ⟨id, id, id, id, id, id, fun h x hx => ?_, id, id, id, id, rfl, id, id, id⟩
  have e : s.missMarkers.span x = (s.span x).missMarker s.peerPresent := Table.at_mapIdx _ _ _ _ hx
  rw [e, (missMarker_state _ _).1, (missMarker_state _ _).2]
  exact h x hx

theorem takeFrameEvents (s : State) : Keeps s s.takeFrameEvents := by
  unfold State.takeFrameEvents
  generalize List.range 16 = spans
  generalize contextNumbers = numbers
  have h1 := (missMarkers s).trans (foldl (f := fun t x => (State.declareMarkerLoss t x).settle)
    (fun t x => (declareMarkerLoss t x).trans (settle _)) spans _)
  have h2 := h1.trans (foldl (f := fun t c => (State.markerTimeoutIfDue t c).settle)
    (fun t c => (markerTimeoutIfDue t c).trans (settle _)) numbers _)
  exact h2.trans (foldl (f := fun t x => (State.ageOut t x).settle) (fun t x => (ageOut t x).trans (settle _)) _ _)

theorem sendFrames (s : State) : Keeps s s.sendFrames := by
  have h : Keeps s s.deliverAll := mapCircuits (fun _ _ => ⟨rfl, rfl, rfl, rfl⟩)
  refine h.trans ?_
  exact ⟨id, id, id, id, id, id, id, id, id, id, id, rfl, id, id, id⟩

theorem nextFrame (s : State) : Keeps s s.nextFrame := by
  refine ⟨id, id, id, fun h => by simpa [State.nextFrame] using h, id, id, fun h x hx => ?_, id, id, id, id, rfl, id, id,
    fun h => ⟨?_, h.2⟩⟩
  · have e : s.nextFrame.span x = (s.span x).tickFrame := Table.at_mapIdx _ _ _ _ hx
    rw [e]
    exact h x hx
  · show (s.frameCount + 1) % 4096 < 4096
    omega

end Keeps
end Sys2Proof.Machine
end

