-- ==== Sys2Proof/Laws/Migration.lean ====
section
/-! SUPPORT. Laws/Migration.lean: circuits, contexts, queue and cells stay as R5 to R7, R86, R99, R100 and R108 say
(`State.placed`, `State.backed` of Safety.lean) through the operations of chapters 6 to 9. -/

namespace Sys2Proof.Machine

/-! ### Sums over a table -/

theorem sumOf_append (l m : List Nat) : sumOf (l ++ m) = sumOf l + sumOf m := by
  induction l with
  | nil => simp [sumOf]
  | cons a rest ih => simp only [List.cons_append, sumOf, ih]; omega

/-- Two sums that differ in one term. -/
theorem sumOf_change {f g : Nat → Nat} {n : Nat} (h : ∀ m, m ≠ n → f m = g m) (k : Nat) (hn : n < k) :
    sumOf ((List.range k).map f) + g n = sumOf ((List.range k).map g) + f n := by
  induction k with
  | zero => omega
  | succ k ih =>
    simp only [List.range_succ, List.map_append, List.map_cons, List.map_nil, sumOf_append, sumOf]
    by_cases e : n = k
    · subst e
      have : (List.range n).map f = (List.range n).map g :=
        List.map_congr_left (fun m hm => h m (by simp only [List.mem_range] at hm; omega))
      rw [this]; omega
    · have := ih (by omega)
      rw [h k (fun hc => e hc.symm)]; omega

theorem toList_eq {α : Type} {n : Nat} (t : Vector α n) (d : α) :
    Table.toList t = (List.range n).map (Table.at t d) := by
  apply List.ext_getElem
  · simp [Table.toList]
  · intro i h1 h2
    have hi : i < n := by simpa [Table.toList] using h1
    simp [Table.toList, Table.at, List.getD_eq_getElem?_getD, hi]

theorem State.totalCells_eq (s : State) : s.totalCells = s.pool.free
    + sumOf ((List.range 480).map (fun n => (s.circuit n).cellsHeld))
    + sumOf ((List.range 8).map (fun c => (s.ctx c).cells)) := by
  unfold State.totalCells
  rw [toList_eq s.circuits Circuit.reset, toList_eq s.contexts Ctx.reset, List.map_map, List.map_map]
  rfl

/-! ### What the laws read of a circuit and of a context -/

/-- What the laws read of a circuit. -/
def Circuit.core (c : Circuit) :=
  (c.equipped, c.state, c.context, c.receive, c.transmit, c.slot, c.residual, c.residualPath, c.cellsHeld,
    c.copperLine.length, c.fibreLine.length)

/-- What the laws read of a context. -/
def Ctx.core (x : Ctx) :=
  (x.state, x.direction, x.circuit, x.origin, x.lead, x.cells, x.switched, x.returnPending, x.served, x.parked)

theorem Circuit.core_delay {c d : Circuit} (h : c.core = d.core) (p : Path) : c.delay p = d.delay p := by
  simp only [Circuit.core, Prod.mk.injEq] at h
  cases p
  · exact h.2.2.2.2.2.2.2.2.2.1
  · exact h.2.2.2.2.2.2.2.2.2.2

theorem Circuit.core_carried {c d : Circuit} (h : c.core = d.core) : c.carried ↔ d.carried := by
  simp only [Circuit.core, Prod.mk.injEq] at h
  simp only [Circuit.carried, h.2.1, h.2.2.2.1, h.2.2.2.2.1]

theorem Circuit.core_settled {c d : Circuit} (h : c.core = d.core) : c.settled ↔ d.settled := by
  have hd := Circuit.core_delay h
  simp only [Circuit.core, Prod.mk.injEq] at h
  simp only [Circuit.settled, hd, h.2.2.2.1, h.2.2.2.2.2.2.1, h.2.2.2.2.2.2.2.1]

theorem Ctx.core_working {x y : Ctx} (h : x.core = y.core) : x.working ↔ y.working := by
  simp only [Ctx.core, Prod.mk.injEq] at h
  simp only [Ctx.working, h.1, h.2.2.2.2.2.2.2.1]

theorem Ctx.core_fits {x y : Ctx} {c d : Circuit} (h : x.core = y.core) (hc : c.core = d.core) :
    x.fits c ↔ y.fits d := by
  have hd := Circuit.core_delay hc
  have hs := Circuit.core_settled hc
  simp only [Ctx.core, Prod.mk.injEq] at h
  simp only [Circuit.core, Prod.mk.injEq] at hc
  simp only [Ctx.fits, Ctx.prepared, hd, hs, h.1, h.2.1, h.2.2.2.1, h.2.2.2.2.1, h.2.2.2.2.2.1, h.2.2.2.2.2.2.1,
    hc.2.2.2.1, hc.2.2.2.2.2.2.1]

theorem Ctx.core_entries {x y : Ctx} (h : x.core = y.core) : x.ownEntries ↔ y.ownEntries := by
  simp only [Ctx.core, Prod.mk.injEq] at h
  simp only [Ctx.ownEntries, h.2.2.1, h.2.2.2.2.2.2.2.2.1, h.2.2.2.2.2.2.2.2.2]

/-- The laws together, with those of the map. -/
structure Sound (s : State) : Prop where
  placed : s.placed
  backed : s.backed
  maps : s.mapLawful

namespace Sound

theorem working_lt {s : State} {c : Nat} (h : (s.ctx c).working) : c < 8 := by
  by_cases hc : c < 8
  · exact hc
  · exact absurd (show (s.ctx c).state = .free from by rw [State.ctx, Table.at_of_le _ _ (Nat.le_of_not_lt hc)]; rfl) h.1

theorem equipped_lt {s : State} {n : Nat} (h : (s.circuit n).equipped = true) : n < 480 := by
  by_cases hc : n < 480
  · exact hc
  · rw [State.circuit, Table.at_of_le _ _ (Nat.le_of_not_lt hc)] at h
    exact absurd h (by decide)

theorem context_lt {s : State} {n c : Nat} (h : (s.circuit n).context = some c) : n < 480 := by
  by_cases hc : n < 480
  · exact hc
  · rw [State.circuit, Table.at_of_le _ _ (Nat.le_of_not_lt hc)] at h
    exact absurd h (by simp [Circuit.reset])

theorem queued_iff (s : State) (n : Nat) : s.queued n = true ↔ n ∈ s.queue.map Entry.circuit := by
  simp [State.queued, List.any_eq_true]

/-- An update that leaves what the laws read. -/
theorem same {s t : State} (h : Sound s) (hm : t.mapLawful) (hc : ∀ m, (t.circuit m).core = (s.circuit m).core)
    (hx : ∀ k, (t.ctx k).core = (s.ctx k).core) (hq : t.queue.map Entry.circuit = s.queue.map Entry.circuit)
    (hs : ∀ x, (t.span x).state = (s.span x).state) (hf : t.pool.free = s.pool.free)
    (hw : t.pool.waitList = s.pool.waitList) : Sound t := by
  obtain ⟨hp, hb, _⟩ := h
  have hqd : ∀ n, t.queued n = true ↔ s.queued n = true := fun n => by rw [queued_iff, queued_iff, hq]
  have c1 : ∀ m, (t.circuit m).equipped = (s.circuit m).equipped := fun m => (congrArg (·.1) (hc m) :)
  have c2 : ∀ m, (t.circuit m).state = (s.circuit m).state := fun m => (congrArg (·.2.1) (hc m) :)
  have c3 : ∀ m, (t.circuit m).context = (s.circuit m).context := fun m => (congrArg (·.2.2.1) (hc m) :)
  have c4 : ∀ m, (t.circuit m).slot = (s.circuit m).slot := fun m => (congrArg (·.2.2.2.2.2.1) (hc m) :)
  have c5 : ∀ m, (t.circuit m).residual = (s.circuit m).residual := fun m => (congrArg (·.2.2.2.2.2.2.1) (hc m) :)
  have c6 : ∀ m, (t.circuit m).cellsHeld = (s.circuit m).cellsHeld :=
    fun m => (congrArg (·.2.2.2.2.2.2.2.2.1) (hc m) :)
  have x1 : ∀ k, (t.ctx k).circuit = (s.ctx k).circuit := fun m => (congrArg (·.2.2.1) (hx m) :)
  have x2 : ∀ k, (t.ctx k).state = (s.ctx k).state := fun m => (congrArg (·.1) (hx m) :)
  have x3 : ∀ k, (t.ctx k).cells = (s.ctx k).cells := fun m => (congrArg (·.2.2.2.2.2.1) (hx m) :)
  refine ⟨⟨fun n => (Circuit.core_carried (hc n)).mpr (hp.carried n), fun n => ?_, fun n c hn => ?_, fun c hk => ?_,
    fun n hn => ?_, ?_, fun n hn => ?_, fun c => (Ctx.core_entries (hx c)).mpr (hp.entries c)⟩,
    ⟨?_, fun n => ?_, fun n hn => ?_, fun n c hn => ?_, fun c hk => ?_, fun c => ?_, ?_⟩, hm⟩
  · rw [c2, c3]; exact hp.migrating n
  · rw [c3] at hn
    rw [x1, Ctx.core_working (hx c)]
    exact hp.inContext n c hn
  · rw [x1, c3]; exact hp.ofContext c ((Ctx.core_working (hx c)).mp hk)
  · rw [c1, c4, hs]; rw [c2, hqd] at hn; exact hp.away n hn
  · rw [hq]; exact hp.once
  · rw [c3]; exact hp.apart n ((hqd n).mp hn)
  · rw [State.totalCells_eq]
    simp only [c6, x3, hf]
    rw [← State.totalCells_eq]; exact hb.total
  · rw [c6, c5]; exact hb.residual n
  · rw [Circuit.core_settled (hc n)]; rw [c3] at hn; exact hb.settled n hn
  · rw [Ctx.core_fits (hx c) (hc n)]; rw [c3] at hn; exact hb.fits n c hn
  · rw [x3]; exact hb.idle c (fun hk' => hk ((Ctx.core_working (hx c)).mpr hk'))
  · rw [hw, x2]; exact hb.waiting c
  · rw [hw]; exact hb.waitsOnce

/-- An update of one circuit that is in no context, and of the pool's free count. -/
theorem alone {s t : State} (h : Sound s) (n : Nat) (hn : n < 480) (hm : t.mapLawful)
    (hc : ∀ m, m ≠ n → (t.circuit m).core = (s.circuit m).core) (hx : ∀ k, (t.ctx k).core = (s.ctx k).core)
    (hq : t.queue.map Entry.circuit = s.queue.map Entry.circuit)
    (hs : ∀ x, (t.span x).state = (s.span x).state) (hw : t.pool.waitList = s.pool.waitList)
    (h0 : (s.circuit n).context = none) (hcar : (t.circuit n).carried) (hmig : (t.circuit n).state ≠ .migrating)
    (hctx : (t.circuit n).context = none)
    (haway : (t.circuit n).state ≠ .copper ∨ s.queued n = true →
      (t.circuit n).equipped = true ∧ (t.circuit n).slot ≠ none ∧ (s.span (n / 30)).state = .inserted)
    (hres : (t.circuit n).cellsHeld = if (t.circuit n).residual = 0 then 0 else (t.circuit n).residual + 2)
    (hset : (t.circuit n).settled)
    (htot : t.pool.free + (t.circuit n).cellsHeld = s.pool.free + (s.circuit n).cellsHeld) : Sound t := by
  obtain ⟨hp, hb, _⟩ := h
  have hqd : ∀ n, t.queued n = true ↔ s.queued n = true := fun n => by rw [queued_iff, queued_iff, hq]
  have x1 : ∀ k, (t.ctx k).circuit = (s.ctx k).circuit := fun m => (congrArg (·.2.2.1) (hx m) :)
  have x2 : ∀ k, (t.ctx k).state = (s.ctx k).state := fun m => (congrArg (·.1) (hx m) :)
  have x3 : ∀ k, (t.ctx k).cells = (s.ctx k).cells := fun m => (congrArg (·.2.2.2.2.2.1) (hx m) :)
  refine ⟨⟨fun m => ?_, fun m => ?_, fun m c hmc => ?_, fun c hk => ?_, fun m hm' => ?_, ?_, fun m hm' => ?_,
    fun c => (Ctx.core_entries (hx c)).mpr (hp.entries c)⟩,
    ⟨?_, fun m => ?_, fun m hm' => ?_, fun m c hmc => ?_, fun c hk => ?_, fun c => ?_, ?_⟩, hm⟩
  · by_cases e : m = n
    · subst e; exact hcar
    · exact (Circuit.core_carried (hc m e)).mpr (hp.carried m)
  · by_cases e : m = n
    · subst e; rw [hctx]; simp [hmig]
    · have := hp.migrating m
      have hcm := hc m e
      simp only [Circuit.core, Prod.mk.injEq] at hcm
      rw [hcm.2.1, hcm.2.2.1]; exact this
  · by_cases e : m = n
    · subst e; rw [hctx] at hmc; simp at hmc
    · have hcm := hc m e
      simp only [Circuit.core, Prod.mk.injEq] at hcm
      rw [hcm.2.2.1] at hmc
      rw [x1, Ctx.core_working (hx c)]
      exact hp.inContext m c hmc
  · have := hp.ofContext c ((Ctx.core_working (hx c)).mp hk)
    rw [x1]
    by_cases e : (s.ctx c).circuit = n
    · rw [e, h0] at this; simp at this
    · have hcm := hc _ e
      simp only [Circuit.core, Prod.mk.injEq] at hcm
      rw [hcm.2.2.1]; exact this
  · rw [hqd] at hm'; rw [hs]
    by_cases e : m = n
    · subst e; exact haway hm'
    · have hcm := hc m e
      simp only [Circuit.core, Prod.mk.injEq] at hcm
      rw [hcm.2.1] at hm'
      rw [hcm.1, hcm.2.2.2.2.2.1]; exact hp.away m hm'
  · rw [hq]; exact hp.once
  · by_cases e : m = n
    · subst e; exact hctx
    · have hcm := hc m e
      simp only [Circuit.core, Prod.mk.injEq] at hcm
      rw [hcm.2.2.1]; exact hp.apart m ((hqd m).mp hm')
  · have := hb.total
    rw [State.totalCells_eq] at this ⊢
    simp only [x3]
    have key := sumOf_change (f := fun m => (t.circuit m).cellsHeld) (g := fun m => (s.circuit m).cellsHeld) (n := n)
      (fun m e => (congrArg (·.2.2.2.2.2.2.2.2.1) (hc m e) :)) 480 hn
    omega
  · by_cases e : m = n
    · subst e; exact hres
    · have hcm := hc m e
      simp only [Circuit.core, Prod.mk.injEq] at hcm
      rw [hcm.2.2.2.2.2.2.1, hcm.2.2.2.2.2.2.2.2.1]; exact hb.residual m
  · by_cases e : m = n
    · subst e; exact hset
    · have hcm := hc m e
      rw [Circuit.core_settled hcm]
      simp only [Circuit.core, Prod.mk.injEq] at hcm
      rw [hcm.2.2.1] at hm'; exact hb.settled m hm'
  · by_cases e : m = n
    · subst e; rw [hctx] at hmc; simp at hmc
    · have hcm := hc m e
      rw [Ctx.core_fits (hx c) hcm]
      simp only [Circuit.core, Prod.mk.injEq] at hcm
      rw [hcm.2.2.1] at hmc; exact hb.fits m c hmc
  · rw [x3]; exact hb.idle c (fun hk' => hk ((Ctx.core_working (hx c)).mpr hk'))
  · rw [hw, x2]; exact hb.waiting c
  · rw [hw]; exact hb.waitsOnce

/-- How a circuit and a context stand to one another: the context has the circuit, or neither has anything. -/
def Together (n c : Nat) (v : Circuit) (y : Ctx) : Prop :=
  v.state = .migrating ∧ v.context = some c ∧ y.circuit = n ∧ y.working ∧ y.fits v

def Apart (v : Circuit) (y : Ctx) : Prop :=
  v.state ≠ .migrating ∧ v.context = none ∧ v.settled ∧ ¬ y.working ∧ y.cells = 0

/-- An update of one circuit and one context, together before or apart, together after or apart. -/
theorem pair {s t : State} (h : Sound s) (n c : Nat) (hn : n < 480) (hc8 : c < 8) (hm : t.mapLawful)
    (hc : ∀ m, m ≠ n → (t.circuit m).core = (s.circuit m).core)
    (hx : ∀ k, k ≠ c → (t.ctx k).core = (s.ctx k).core)
    (hs : ∀ x, (t.span x).state = (s.span x).state)
    (before : (s.circuit n).context = some c ∨ ((s.circuit n).context = none ∧ ¬ (s.ctx c).working))
    (after : (Together n c (t.circuit n) (t.ctx c) ∧ t.queued n = false) ∨ Apart (t.circuit n) (t.ctx c))
    (hq : ∀ m, m ≠ n → (t.queued m = true ↔ s.queued m = true)) (hqo : (t.queue.map Entry.circuit).Nodup)
    (haway : (t.circuit n).equipped = true ∧ (t.circuit n).slot ≠ none ∧ (s.span (n / 30)).state = .inserted)
    (hcar : (t.circuit n).carried)
    (hres : (t.circuit n).cellsHeld = if (t.circuit n).residual = 0 then 0 else (t.circuit n).residual + 2)
    (hent : (t.ctx c).ownEntries)
    (htot : t.pool.free + (t.circuit n).cellsHeld + (t.ctx c).cells
      = s.pool.free + (s.circuit n).cellsHeld + (s.ctx c).cells)
    (hwo : t.pool.waitList.Nodup) (hw : ∀ k, k ≠ c → (k ∈ t.pool.waitList ↔ k ∈ s.pool.waitList))
    (hwc : c ∈ t.pool.waitList ↔ (t.ctx c).state = .allocate) : Sound t := by
  obtain ⟨hp, hb, _⟩ := h
  have only : ∀ m k, m ≠ n → (s.circuit m).context = some k → k ≠ c := by
    intro m k hmn hmk hkc
    subst hkc
    have h1 := hp.inContext m k hmk
    rcases before with hb' | ⟨_, hb'⟩
    · exact hmn (h1.1.symm.trans (hp.inContext n k hb').1)
    · exact hb' h1.2
  have back : ∀ k, k ≠ c → (s.ctx k).working → (s.ctx k).circuit ≠ n := by
    intro k hkc hk hkn
    have h1 := hp.ofContext k hk
    rw [hkn] at h1
    rcases before with hb' | ⟨hb', _⟩
    · rw [h1] at hb'; exact hkc (Option.some.inj hb')
    · rw [h1] at hb'; simp at hb'
  refine ⟨⟨fun m => ?_, fun m => ?_, fun m k hmk => ?_, fun k hk => ?_, fun m hm' => ?_, hqo, fun m hm' => ?_,
    fun k => ?_⟩,
    ⟨?_, fun m => ?_, fun m hm' => ?_, fun m k hmk => ?_, fun k hk => ?_, fun k => ?_, hwo⟩, hm⟩
  · by_cases e : m = n
    · subst e; exact hcar
    · exact (Circuit.core_carried (hc m e)).mpr (hp.carried m)
  · by_cases e : m = n
    · subst e
      rcases after with ⟨a, _⟩ | a
      · simp [a.1, a.2.1]
      · simp [a.1, a.2.1]
    · have := hp.migrating m
      have hcm := hc m e
      simp only [Circuit.core, Prod.mk.injEq] at hcm
      rw [hcm.2.1, hcm.2.2.1]; exact this
  · by_cases e : m = n
    · subst e
      rcases after with ⟨a, _⟩ | a
      · rw [a.2.1] at hmk; cases hmk; exact ⟨a.2.2.1, a.2.2.2.1⟩
      · rw [a.2.1] at hmk; simp at hmk
    · have hcm := hc m e
      simp only [Circuit.core, Prod.mk.injEq] at hcm
      rw [hcm.2.2.1] at hmk
      have hkc := only m k e hmk
      have hxk := hx k hkc
      rw [Ctx.core_working hxk]
      simp only [Ctx.core, Prod.mk.injEq] at hxk
      rw [hxk.2.2.1]; exact hp.inContext m k hmk
  · by_cases e : k = c
    · subst e
      rcases after with ⟨a, _⟩ | a
      · rw [a.2.2.1]; exact a.2.1
      · exact absurd hk a.2.2.2.1
    · have hxk := hx k e
      have hk' := (Ctx.core_working hxk).mp hk
      have hkn := back k e hk'
      simp only [Ctx.core, Prod.mk.injEq] at hxk
      rw [hxk.2.2.1]
      have hcm := hc _ hkn
      simp only [Circuit.core, Prod.mk.injEq] at hcm
      rw [hcm.2.2.1]; exact hp.ofContext k hk'
  · rw [hs]
    by_cases e : m = n
    · subst e; exact haway
    · have hcm := hc m e
      simp only [Circuit.core, Prod.mk.injEq] at hcm
      rw [hcm.2.1, hq m e] at hm'
      rw [hcm.1, hcm.2.2.2.2.2.1]; exact hp.away m hm'
  · by_cases e : m = n
    · subst e
      rcases after with ⟨_, a⟩ | a
      · rw [a] at hm'; simp at hm'
      · exact a.2.1
    · have hcm := hc m e
      simp only [Circuit.core, Prod.mk.injEq] at hcm
      rw [hcm.2.2.1]; exact hp.apart m ((hq m e).mp hm')
  · by_cases e : k = c
    · subst e; exact hent
    · exact (Ctx.core_entries (hx k e)).mpr (hp.entries k)
  · have := hb.total
    rw [State.totalCells_eq] at this ⊢
    have k1 := sumOf_change (f := fun m => (t.circuit m).cellsHeld) (g := fun m => (s.circuit m).cellsHeld) (n := n)
      (fun m e => (congrArg (·.2.2.2.2.2.2.2.2.1) (hc m e) :)) 480 hn
    have k2 := sumOf_change (f := fun m => (t.ctx m).cells) (g := fun m => (s.ctx m).cells) (n := c)
      (fun m e => (congrArg (·.2.2.2.2.2.1) (hx m e) :)) 8 hc8
    omega
  · by_cases e : m = n
    · subst e; exact hres
    · have hcm := hc m e
      simp only [Circuit.core, Prod.mk.injEq] at hcm
      rw [hcm.2.2.2.2.2.2.1, hcm.2.2.2.2.2.2.2.2.1]; exact hb.residual m
  · by_cases e : m = n
    · subst e
      rcases after with ⟨a, _⟩ | a
      · rw [a.2.1] at hm'; simp at hm'
      · exact a.2.2.1
    · have hcm := hc m e
      rw [Circuit.core_settled hcm]
      simp only [Circuit.core, Prod.mk.injEq] at hcm
      rw [hcm.2.2.1] at hm'; exact hb.settled m hm'
  · by_cases e : m = n
    · subst e
      rcases after with ⟨a, _⟩ | a
      · rw [a.2.1] at hmk; cases hmk; exact a.2.2.2.2
      · rw [a.2.1] at hmk; simp at hmk
    · have hcm := hc m e
      have hmk' := hmk
      have hcm' := hcm
      simp only [Circuit.core, Prod.mk.injEq] at hcm'
      rw [hcm'.2.2.1] at hmk'
      rw [Ctx.core_fits (hx k (only m k e hmk')) hcm]
      exact hb.fits m k hmk'
  · by_cases e : k = c
    · subst e
      rcases after with ⟨a, _⟩ | a
      · exact absurd a.2.2.2.1 hk
      · exact a.2.2.2.2
    · have hxk := hx k e
      have hk' := fun w => hk ((Ctx.core_working hxk).mpr w)
      simp only [Ctx.core, Prod.mk.injEq] at hxk
      rw [hxk.2.2.2.2.2.1]; exact hb.idle k hk'
  · by_cases e : k = c
    · subst e; exact hwc
    · have hxk := hx k e
      simp only [Ctx.core, Prod.mk.injEq] at hxk
      rw [hw k e, hxk.1]; exact hb.waiting k

end Sound
end Sys2Proof.Machine
namespace Sys2Proof.Machine
namespace Sound

/-! ### Updates that the laws do not read -/

theorem refl {s : State} (h : Sound s) : Sound s := h

theorem ite {p : Prop} [Decidable p] {s t : State} (h : p → Sound s) (k : ¬ p → Sound t) :
    Sound (if p then s else t) := by
  split
  · next hp => exact h hp
  · next hp => exact k hp

theorem foldl {α : Type} {f : State → α → State} (h : ∀ t a, Sound t → Sound (f t a)) (l : List α) {s : State}
    (hs : Sound s) : Sound (l.foldl f s) := by
  induction l generalizing s with
  | nil => exact hs
  | cons a rest ih => exact ih (h s a hs)

/-- An update of the tables that the laws do not read. -/
theorem plain {s t : State} (h : Sound s) (k : Keeps s t) (hc : t.circuits = s.circuits) (hx : t.contexts = s.contexts)
    (hq : t.queue = s.queue) (hs : t.spans = s.spans) (hp : t.pool = s.pool) : Sound t :=
  h.same (k.maps h.maps) (fun m => by rw [State.circuit_congr hc]) (fun m => by rw [State.ctx_congr hx]) (by rw [hq])
    (fun x => by rw [State.span_congr hs]) (by rw [hp]) (by rw [hp])

theorem modCircuit {s : State} (h : Sound s) {n : Nat} {f : Circuit → Circuit}
    (hf : (f (s.circuit n)).core = (s.circuit n).core) : Sound (s.modCircuit n f) := by
  refine h.same (Keeps.maps_of (s := s) rfl rfl (fun m => ?_) h.maps) (fun m => ?_) (fun _ => rfl) rfl (fun _ => rfl) rfl rfl
  · rw [State.circuit_modCircuit]; split
    · next hm => rw [hm.1]; exact (congrArg (·.2.2.2.2.2.1) hf :)
    · rfl
  · rw [State.circuit_modCircuit]; split
    · next hm => rw [hm.1]; exact hf
    · rfl

theorem modCtx {s : State} (h : Sound s) {c : Nat} {f : Ctx → Ctx} (hf : (f (s.ctx c)).core = (s.ctx c).core) :
    Sound (s.modCtx c f) := by
  refine h.same ((Keeps.modCtx s c f).maps h.maps) (fun _ => rfl) (fun k => ?_) rfl (fun _ => rfl) rfl rfl
  rw [State.ctx_modCtx]; split
  · next hm => rw [hm.1]; exact hf
  · rfl

theorem raise {s : State} (h : Sound s) (e : Event) : Sound (s.raise e) :=
  h.plain (Keeps.raise s e) rfl rfl rfl rfl rfl

theorem raiseIf {s : State} (h : Sound s) (e : Option Event) : Sound (s.raiseIf e) := by
  cases e
  · exact h
  · exact h.raise _

theorem modGroup {s : State} (h : Sound s) (n : Nat) (f : Group → Group) : Sound (s.modGroup n f) :=
  h.same h.maps (fun _ => rfl) (fun _ => rfl) rfl (fun _ => rfl) rfl rfl

theorem forget {s : State} (h : Sound s) (e : BoundaryEvent) : Sound (s.forget e) :=
  h.plain (Keeps.forget s e) rfl rfl rfl rfl rfl

theorem advertise {s : State} (h : Sound s) (c : Nat) (st : Step) (a : Byte) : Sound (s.advertise c st a) :=
  h.plain (Keeps.advertise s c st a) rfl rfl rfl rfl rfl

theorem beginLinger {s : State} (h : Sound s) (c : Nat) : Sound (s.beginLinger c) :=
  h.plain (Keeps.beginLinger s c) rfl rfl rfl rfl rfl

/-! ### Residuals -/

theorem delay_dropOn (c : Circuit) (p q : Path) : (c.dropOn p).delay q = if q = p then 0 else c.delay q := by
  cases p <;> cases q <;> rfl

theorem settled_drop {c : Circuit} (h : c.settled) {d : Circuit} (hr : d.residual = 0)
    (hd : ∀ p, d.delay p = (c.dropOn c.residualPath).delay p) : d.settled := by
  refine ⟨fun p => ?_, fun hn => absurd hr hn⟩
  rw [hd, delay_dropOn, hr, h.1 p]
  split <;> simp_all

/-- The drop of a residual (R105). -/
theorem dropResidual {s : State} (h : Sound s) (n : Nat) (hr : (s.circuit n).residual ≠ 0) :
    Sound (s.dropResidual n) := by
  have hn : n < 480 := by
    by_cases hc : n < 480
    · exact hc
    · rw [State.circuit, Table.at_of_le _ _ (Nat.le_of_not_lt hc)] at hr; exact absurd rfl hr
  have hcc : ∀ m, (s.dropResidual n).circuit m = (s.modCircuit n (fun c => { c.dropOn c.residualPath with
      residual := 0, cellsHeld := 0 })).circuit m := fun _ => rfl
  have hcn : (s.dropResidual n).circuit n
      = { (s.circuit n).dropOn (s.circuit n).residualPath with residual := 0, cellsHeld := 0 } := by
    rw [hcc, State.circuit_modCircuit, if_pos ⟨rfl, hn⟩]
  have hcm : ∀ m, m ≠ n → ((s.dropResidual n).circuit m).core = (s.circuit m).core := fun m hm => by
    rw [hcc, State.circuit_modCircuit, if_neg (fun e => hm e.1)]
  have hd : ∀ p, ((s.dropResidual n).circuit n).delay p
      = ((s.circuit n).dropOn (s.circuit n).residualPath).delay p := fun p => by rw [hcn]; cases p <;> rfl
  have e1 : ((s.dropResidual n).circuit n).state = (s.circuit n).state := by
    rw [hcn]; cases (s.circuit n).residualPath <;> rfl
  have e2 : ((s.dropResidual n).circuit n).context = (s.circuit n).context := by
    rw [hcn]; cases (s.circuit n).residualPath <;> rfl
  have e3 : ((s.dropResidual n).circuit n).receive = (s.circuit n).receive := by
    rw [hcn]; cases (s.circuit n).residualPath <;> rfl
  have e4 : ((s.dropResidual n).circuit n).transmit = (s.circuit n).transmit := by
    rw [hcn]; cases (s.circuit n).residualPath <;> rfl
  have e5 : ((s.dropResidual n).circuit n).equipped = (s.circuit n).equipped := by
    rw [hcn]; cases (s.circuit n).residualPath <;> rfl
  have e6 : ((s.dropResidual n).circuit n).slot = (s.circuit n).slot := by
    rw [hcn]; cases (s.circuit n).residualPath <;> rfl
  have e7 : ((s.dropResidual n).circuit n).residual = 0 := by rw [hcn]
  have e8 : ((s.dropResidual n).circuit n).cellsHeld = 0 := by rw [hcn]
  have hm : (s.dropResidual n).mapLawful := (Keeps.dropResidual s n).maps h.maps
  have hcar : ((s.dropResidual n).circuit n).carried := by
    have := h.placed.carried n
    unfold Circuit.carried at this ⊢
    rw [e1, e3, e4]; exact this
  have hp : (s.dropResidual n).pool = { s.pool with free := s.pool.free + (s.circuit n).cellsHeld } := rfl
  cases hx : (s.circuit n).context with
  | none =>
    refine h.alone n hn hm hcm (fun _ => rfl) rfl (fun _ => rfl) rfl hx hcar ?_ (e2.trans hx) ?_ ?_ ?_ ?_
    · rw [e1]; intro hc; exact absurd ((h.placed.migrating n).mp hc) (by simp [hx])
    · rw [e1, e5, e6]; exact h.placed.away n
    · rw [e7, e8]; rfl
    · exact settled_drop (h.backed.settled n hx) e7 hd
    · rw [e8, hp]; show _ + (s.circuit n).cellsHeld + 0 = _; omega
  | some c =>
    have hf := h.backed.fits n c hx
    have hin := h.placed.inContext n c hx
    have hsw : (s.ctx c).switched = true := by
      cases hs : (s.ctx c).switched with
      | true => rfl
      | false => simp only [Ctx.fits, hs] at hf; exact absurd hf.2.1 hr
    have hset : (s.circuit n).settled := by simp only [Ctx.fits, hsw, if_true] at hf; exact hf.2.2.2.2
    have hmig := (h.placed.migrating n).mpr (by simp [hx])
    have hxc : (s.dropResidual n).ctx c = s.ctx c := rfl
    refine h.pair n c hn (working_lt hin.2) hm hcm (fun _ _ => rfl) (fun _ => rfl) (.inl hx)
      (.inl ⟨⟨e1.trans hmig, e2.trans hx, hin.1, hin.2, ?_⟩, ?_⟩) (fun _ _ => Iff.rfl) h.placed.once ?_ hcar ?_ (h.placed.entries c)
      ?_ h.backed.waitsOnce (fun _ _ => Iff.rfl) (h.backed.waiting c)
    · rw [hxc]
      simp only [Ctx.fits, hsw, if_true, e3] at hf ⊢
      exact ⟨hf.1, hf.2.1, hf.2.2.1, hf.2.2.2.1, settled_drop hset e7 hd⟩
    · cases hq : (s.dropResidual n).queued n with
      | false => rfl
      | true => have := h.placed.apart n hq; rw [hx] at this; simp at this
    · rw [e5, e6]; exact h.placed.away n (.inl (by rw [hmig]; simp))
    · rw [e7, e8]; rfl
    · rw [e8, hp, hxc]; show _ + (s.circuit n).cellsHeld + 0 + _ = _; omega

theorem dropAtIdle {s : State} (h : Sound s) (n : Nat) : Sound (s.dropAtIdle n) := by
  unfold State.dropAtIdle
  split
  · exact h
  · next hr => exact (h.dropResidual n hr).raise _

theorem changeCall {s : State} (h : Sound s) (n : Nat) (new : CallState) : Sound (s.changeCall n new) := by
  unfold State.changeCall
  have h1 : Sound ((s.modCircuit n (fun c => { c with call := new })).modGroup (s.circuit n).group
      (fun g => g.countChange (s.circuit n).call new)) := modGroup (h.modCircuit rfl) _ _
  exact ite (fun _ => (h1.raiseIf _).dropAtIdle n) (fun _ => h1.raiseIf _)

theorem deriveCall {s : State} (h : Sound s) (n : Nat) : Sound (s.deriveCall n) :=
  ite (fun _ => h) (fun _ => h.changeCall n _)

theorem superviseCircuit {s : State} (h : Sound s) (n : Nat) : Sound (s.superviseCircuit n) := by
  unfold State.superviseCircuit
  split
  · exact ((((h.modCircuit rfl).raiseIf _).raiseIf _).deriveCall n)
  · exact h

theorem supervise {s : State} (h : Sound s) : Sound s.supervise := foldl (fun _ n ht => ht.superviseCircuit n) _ h

theorem recondition {s : State} (h : Sound s) (n : Nat) : Sound (s.recondition n) := by
  unfold State.recondition
  exact ite (fun _ => h) (fun _ => ite (fun _ => h.modCircuit rfl) (fun _ => (h.modCircuit rfl).deriveCall n))

theorem reconditionAll {s : State} (h : Sound s) (ns : List Nat) : Sound (s.reconditionAll ns) :=
  foldl (fun _ n ht => ht.recondition n) ns h

end Sound
end Sys2Proof.Machine
namespace Sys2Proof.Machine

/-! ### Operations on one context and its circuit -/

/-- From `s` to `t` only circuit `n`, context `c`, their places in the queue and the wait list, and what no law reads have
changed. -/
structure Confined (n c : Nat) (s t : State) : Prop where
  circuits : ∀ m, m ≠ n → (t.circuit m).core = (s.circuit m).core
  contexts : ∀ k, k ≠ c → (t.ctx k).core = (s.ctx k).core
  spans : ∀ x, (t.span x).state = (s.span x).state
  queue : ∀ m, m ≠ n → (t.queued m = true ↔ s.queued m = true)
  waits : ∀ k, k ≠ c → (k ∈ t.pool.waitList ↔ k ∈ s.pool.waitList)
  waitsOnce : s.pool.waitList.Nodup → t.pool.waitList.Nodup

namespace Confined

theorem refl (n c : Nat) (s : State) : Confined n c s s :=
  ⟨fun _ _ => rfl, fun _ _ => rfl, fun _ => rfl, fun _ _ => Iff.rfl, fun _ _ => Iff.rfl, id⟩

theorem trans {n c : Nat} {s t u : State} (h : Confined n c s t) (k : Confined n c t u) : Confined n c s u :=
  ⟨fun m e => (k.circuits m e).trans (h.circuits m e), fun m e => (k.contexts m e).trans (h.contexts m e),
    fun x => (k.spans x).trans (h.spans x), fun m e => (k.queue m e).trans (h.queue m e),
    fun m e => (k.waits m e).trans (h.waits m e), k.waitsOnce ∘ h.waitsOnce⟩

theorem ite {n c : Nat} {p : Prop} [Decidable p] {s t u : State} (h : Confined n c s t) (k : Confined n c s u) :
    Confined n c s (if p then t else u) := by
  split
  · exact h
  · exact k

/-- An update of the tables that `Confined` does not read. -/
theorem plain {n c : Nat} {s t : State} (hc : t.circuits = s.circuits) (hx : t.contexts = s.contexts)
    (hq : t.queue = s.queue) (hs : t.spans = s.spans) (hw : t.pool.waitList = s.pool.waitList) : Confined n c s t :=
  ⟨fun m _ => by rw [State.circuit_congr hc], fun m _ => by rw [State.ctx_congr hx],
    fun x => by rw [State.span_congr hs], fun m _ => by simp only [State.queued, hq], fun m _ => by rw [hw],
    fun h => by rw [hw]; exact h⟩

theorem raise (n c : Nat) (s : State) (e : Event) : Confined n c s (s.raise e) := plain rfl rfl rfl rfl rfl
theorem forget (n c : Nat) (s : State) (e : BoundaryEvent) : Confined n c s (s.forget e) := plain rfl rfl rfl rfl rfl
theorem forgetContext (n c k : Nat) (s : State) : Confined n c s (s.forgetContext k) := plain rfl rfl rfl rfl rfl
theorem returnCells (n c k : Nat) (s : State) : Confined n c s (s.returnCells k) := plain rfl rfl rfl rfl rfl
theorem advertise (n c k : Nat) (s : State) (st : Step) (a : Byte) : Confined n c s (s.advertise k st a) :=
  plain rfl rfl rfl rfl rfl
theorem beginLinger (n c k : Nat) (s : State) : Confined n c s (s.beginLinger k) := plain rfl rfl rfl rfl rfl
theorem raiseAborted (n c k : Nat) (s : State) : Confined n c s (s.raiseAborted k) := raise _ _ _ _

theorem modCircuit (n c : Nat) (s : State) (f : Circuit → Circuit) : Confined n c s (s.modCircuit n f) :=
  ⟨fun m e => by rw [State.circuit_modCircuit, if_neg (fun h => e h.1)], fun _ _ => rfl, fun _ => rfl,
    fun _ _ => Iff.rfl, fun _ _ => Iff.rfl, id⟩

theorem modCtx (n c : Nat) (s : State) (f : Ctx → Ctx) : Confined n c s (s.modCtx c f) :=
  ⟨fun _ _ => rfl, fun m e => by rw [State.ctx_modCtx, if_neg (fun h => e h.1)], fun _ => rfl,
    fun _ _ => Iff.rfl, fun _ _ => Iff.rfl, id⟩

theorem setCtx (n c : Nat) (s : State) (x : Ctx) : Confined n c s (s.setCtx c x) :=
  ⟨fun _ _ => rfl, fun m e => by rw [State.ctx_setCtx, if_neg (fun h => e h.1)], fun _ => rfl,
    fun _ _ => Iff.rfl, fun _ _ => Iff.rfl, id⟩

theorem leaveWaitList (n c : Nat) (s : State) : Confined n c s (s.leaveWaitList c) := by
  refine ⟨fun _ _ => rfl, fun _ _ => rfl, fun _ => rfl, fun _ _ => Iff.rfl, fun k e => ?_, fun h => ?_⟩
  · show k ∈ s.pool.waitList.filter _ ↔ _
    simp [e]
  · exact h.filter _

end Confined

/-! ### Re-entry of an entry -/

theorem placeByAge_perm (now : Nat) (e : Entry) (l : List Entry) (i : Nat) : (placeByAge now e i l).1.Perm (e :: l) := by
  induction l generalizing i with
  | nil => exact List.Perm.refl _
  | cons x rest ih =>
    unfold placeByAge
    split
    · exact List.Perm.refl _
    · exact ((ih (i + 1)).cons x).trans (List.Perm.swap e x rest)

/-- From `s` to `t` an entry of circuit `n` may have entered the queue, and else only what no law reads has changed. -/
structure Reentered (n : Nat) (s t : State) : Prop where
  same : t.circuits = s.circuits ∧ t.contexts = s.contexts ∧ t.spans = s.spans ∧ t.pool = s.pool
  queue : (t.queue.map Entry.circuit).Perm (s.queue.map Entry.circuit)
    ∨ (t.queue.map Entry.circuit).Perm (n :: s.queue.map Entry.circuit)

namespace Reentered

theorem raise {n : Nat} {s t : State} (h : Reentered n s t) (e : Event) : Reentered n s (t.raise e) :=
  ⟨h.same, h.queue⟩

theorem refl (n : Nat) (s : State) : Reentered n s s := ⟨⟨rfl, rfl, rfl, rfl⟩, .inl (List.Perm.refl _)⟩

theorem reenter (s : State) (e : Entry) : Reentered e.circuit s (s.reenter e).1 := by
  unfold State.reenter
  split
  · exact ⟨⟨rfl, rfl, rfl, rfl⟩, .inr ((placeByAge_perm _ _ _ _).map Entry.circuit)⟩
  · exact refl _ s

theorem reenterParked {n : Nat} (s : State) (e : Option Entry) (h : ∀ y, e = some y → y.circuit = n) :
    Reentered n s (s.reenterParked e) := by
  unfold State.reenterParked
  split
  · exact refl n s
  · next y =>
    have k := reenter s y
    rw [h y rfl] at k
    split
    · next heq => rw [heq] at k; exact k
    · next heq => rw [heq] at k; exact k.raise _

theorem reenterServed {n c : Nat} (s : State) (h : ∀ y, (s.ctx c).served = some y → y.circuit = n) :
    Reentered n s (s.reenterServed c) := by
  unfold State.reenterServed
  split
  · exact (refl n s).raise _
  · next e he =>
    have k : Reentered n s (s.reenter { e with idleOnly := true }).1 := by
      rw [← h e he]; exact reenter s { e with idleOnly := true }
    split
    · next heq => rw [heq] at k; exact k.raise _
    · next heq => rw [heq] at k; exact k.raise _

theorem confined {n : Nat} {s t : State} (h : Reentered n s t) (c : Nat) : Confined n c s t := by
  obtain ⟨h1, h2, h3, h4⟩ := h.same
  refine ⟨fun m _ => by rw [State.circuit_congr h1], fun m _ => by rw [State.ctx_congr h2],
    fun x => by rw [State.span_congr h3], fun m e => ?_, fun m _ => by rw [h4], fun hw => by rw [h4]; exact hw⟩
  rw [Sound.queued_iff, Sound.queued_iff]
  rcases h.queue with hq | hq
  · exact hq.mem_iff
  · rw [hq.mem_iff, List.mem_cons]; simp [e]

end Reentered

/-! ### Leaving a context -/

/-- A circuit as it leaves a context without completing (R124). -/
def Circuit.left (c : Circuit) (st : MigState) (cause : Option Cause) : Circuit :=
  { c.enter st with context := none, lastAbort := cause }

/-- A context that its circuit has left (R124). -/
def Ctx.emptied (x : Ctx) : Ctx := { x with served := none, parked := none, returnPending := false }

/-- What leaves a context's circuit, before its conditioning is evaluated again. -/
def State.leaveBody (s : State) (context : Nat) : State :=
  ((if (s.ctx context).deferred then (s.modCircuit (s.ctx context).circuit (fun c =>
      c.left (s.lockedState (s.ctx context).circuit (s.ctx context).origin) (s.ctx context).abortCause)).reenterServed context
    else s.modCircuit (s.ctx context).circuit (fun c =>
      c.left (s.lockedState (s.ctx context).circuit (s.ctx context).origin) (s.ctx context).abortCause)).modCtx context
        Ctx.emptied).reenterParked (s.ctx context).parked

theorem State.leaveContext_eq (s : State) (c : Nat) : s.leaveContext c = (s.leaveBody c).recondition (s.ctx c).circuit :=
  rfl

/-- What leaving does: the circuit enters a state of its origin's kind, its context drops the entries, and at most one
entry of the circuit enters the queue. -/
theorem State.leaveBody_facts (s : State) (c n : Nat) (hn' : (s.ctx c).circuit = n) (hn : n < 480) (hc : c < 8)
    (he : (s.ctx c).ownEntries) :
    Confined n c s (s.leaveBody c) ∧ (s.leaveBody c).pool = s.pool
      ∧ (s.leaveBody c).circuit n = (s.circuit n).left (s.lockedState n (s.ctx c).origin) (s.ctx c).abortCause
      ∧ (s.leaveBody c).ctx c = (s.ctx c).emptied
      ∧ (((s.leaveBody c).queue.map Entry.circuit).Perm (s.queue.map Entry.circuit)
        ∨ ((s.leaveBody c).queue.map Entry.circuit).Perm (n :: s.queue.map Entry.circuit)) := by
  unfold State.leaveBody
  rw [hn']
  generalize hs1 : s.modCircuit n (fun y => y.left (s.lockedState n (s.ctx c).origin) (s.ctx c).abortCause) = s1
  have f1 : Confined n c s s1 := by rw [← hs1]; exact Confined.modCircuit n c s _
  have c1 : s1.circuit n = (s.circuit n).left (s.lockedState n (s.ctx c).origin) (s.ctx c).abortCause := by
    rw [← hs1, State.circuit_modCircuit, if_pos ⟨rfl, hn⟩]
  have x1 : s1.ctx c = s.ctx c := by rw [← hs1]; rfl
  have p1 : s1.pool = s.pool := by rw [← hs1]; rfl
  have q1 : s1.queue = s.queue := by rw [← hs1]; rfl
  generalize hs2 : (if (s.ctx c).deferred = true then s1.reenterServed c else s1) = s2
  have h2 : Reentered n s1 s2 := by
    rw [← hs2]
    split
    · exact Reentered.reenterServed s1 (fun y hy => by rw [x1] at hy; exact (he.1 y hy).1.trans hn')
    · exact Reentered.refl n s1
  have h3 : s2.queue = s1.queue ∨ (s.ctx c).parked = none := by
    rw [← hs2]
    split
    · cases hv : (s.ctx c).served with
      | some e => exact .inr (he.1 e hv).2
      | none =>
        refine .inl ?_
        unfold State.reenterServed
        rw [x1, hv]
        rfl
    · exact .inl rfl
  generalize hs3 : s2.modCtx c Ctx.emptied = s3
  have r := Reentered.reenterParked (n := n) s3 (s.ctx c).parked (fun y hy => (he.2 y hy).trans hn')
  have f3 : Confined n c s2 s3 := by rw [← hs3]; exact Confined.modCtx n c s2 _
  have q3 : s3.queue = s2.queue := by rw [← hs3]; rfl
  refine ⟨f1.trans ((h2.confined c).trans (f3.trans (r.confined c))), ?_, ?_, ?_, ?_⟩
  · rw [r.same.2.2.2, ← hs3, ← p1, ← h2.same.2.2.2]; rfl
  · rw [State.circuit_congr r.same.1, ← c1, ← State.circuit_congr h2.same.1, ← hs3]; rfl
  · rw [State.ctx_congr r.same.2.1, ← hs3, State.ctx_modCtx, if_pos ⟨rfl, hc⟩, State.ctx_congr h2.same.2.1, x1]
  · rcases h3 with h3 | h3
    · rw [← q1, ← h3, ← q3]; exact r.queue
    · rw [h3]
      have e : (State.reenterParked s3 none).queue = s2.queue := q3
      rw [e, ← q1]; exact h2.queue

end Sys2Proof.Machine
namespace Sys2Proof.Machine

/-! ### Reading a circuit or a context through an update that does not write it -/

namespace State

theorem circuit_returnCells (s : State) (k n : Nat) : (s.returnCells k).circuit n = s.circuit n := rfl
theorem ctx_returnCells (s : State) (k c : Nat) : (s.returnCells k).ctx c = s.ctx c := rfl
theorem circuit_modCtx (s : State) (k n : Nat) (f : Ctx → Ctx) : (s.modCtx k f).circuit n = s.circuit n := rfl
theorem ctx_modCircuit (s : State) (k c : Nat) (f : Circuit → Circuit) : (s.modCircuit k f).ctx c = s.ctx c := rfl
theorem circuit_advertise (s : State) (k n : Nat) (st : Step) (b : Byte) : (s.advertise k st b).circuit n = s.circuit n := rfl
theorem ctx_advertise (s : State) (k c : Nat) (st : Step) (b : Byte) : (s.advertise k st b).ctx c = s.ctx c := rfl
theorem circuit_raise (s : State) (e : Event) (n : Nat) : (s.raise e).circuit n = s.circuit n := rfl
theorem ctx_raise (s : State) (e : Event) (c : Nat) : (s.raise e).ctx c = s.ctx c := rfl
theorem circuit_raiseAborted (s : State) (k n : Nat) : (s.raiseAborted k).circuit n = s.circuit n := rfl
theorem ctx_raiseAborted (s : State) (k c : Nat) : (s.raiseAborted k).ctx c = s.ctx c := rfl
theorem ctx_modCtx_same (s : State) {c : Nat} (hc : c < 8) (f : Ctx → Ctx) : (s.modCtx c f).ctx c = f (s.ctx c) := by
  rw [ctx_modCtx, if_pos ⟨rfl, hc⟩]
theorem circuit_modCircuit_same (s : State) {n : Nat} (hn : n < 480) (f : Circuit → Circuit) :
    (s.modCircuit n f).circuit n = f (s.circuit n) := by
  rw [circuit_modCircuit, if_pos ⟨rfl, hn⟩]

end State
end Sys2Proof.Machine
namespace Sys2Proof.Machine

/-! ### A context at work -/

/-- What the laws say of a working context and its circuit. -/
structure Inside (n c : Nat) (s : State) : Prop where
  hn : n < 480
  hc : c < 8
  name : (s.ctx c).circuit = n
  field : (s.circuit n).context = some c
  working : (s.ctx c).working
  migrating : (s.circuit n).state = .migrating
  both : (s.circuit n).transmit = .both
  equipped : (s.circuit n).equipped = true
  slot : (s.circuit n).slot ≠ none
  span : (s.span (n / 30)).state = .inserted
  alone : s.queued n = false
  entries : (s.ctx c).ownEntries
  fits : (s.ctx c).fits (s.circuit n)
  held : (s.circuit n).cellsHeld = if (s.circuit n).residual = 0 then 0 else (s.circuit n).residual + 2

theorem Keeps.leaveBody (s : State) (c : Nat) : Keeps s (s.leaveBody c) := by
  have h : ∀ t, Keeps s t → Keeps s ((t.modCtx c Ctx.emptied).reenterParked (s.ctx c).parked) := fun t ht =>
    (ht.trans (Keeps.modCtx _ _ _)).trans (Keeps.reenterParked _ _)
  unfold State.leaveBody
  refine h _ (Keeps.ite ?_ ?_)
  · exact (Keeps.modCircuit ⟨rfl, rfl, rfl, rfl⟩).trans (Keeps.reenterServed _ _)
  · exact Keeps.modCircuit ⟨rfl, rfl, rfl, rfl⟩

namespace Sound

theorem inside {s : State} (h : Sound s) {n c : Nat} (hn : (s.ctx c).circuit = n) (hw : (s.ctx c).working) : Inside n c s := by
  have h1 := h.placed.ofContext c hw
  rw [hn] at h1
  have hm := (h.placed.migrating n).mpr (by rw [h1]; simp)
  have ha := h.placed.away n (.inl (by rw [hm]; simp))
  refine ⟨context_lt h1, working_lt hw, hn, h1, hw, hm, ?_, ha.1, ha.2.1, ha.2.2, ?_, h.placed.entries c, h.backed.fits n c h1,
    h.backed.residual n⟩
  · have := h.placed.carried n
    unfold Circuit.carried at this
    rw [hm] at this; exact this
  · cases hq : s.queued n with
    | false => rfl
    | true => have := h.placed.apart n hq; rw [h1] at this; simp at this

theorem working_of {s : State} {c : Nat} (hf : (s.ctx c).state ≠ .free) (ha : (s.ctx c).state ≠ .aborting) :
    (s.ctx c).working := ⟨hf, fun h => absurd h ha⟩

theorem not_mem {s : State} {n : Nat} (h : s.queued n = false) : n ∉ s.queue.map Entry.circuit := by
  rw [← queued_iff, h]; simp

/-- A context that goes on having its circuit. -/
theorem stays {s t : State} {n c : Nat} (h : Sound s) (i : Inside n c s) (f : Confined n c s t) (hm : t.mapLawful)
    (hq : t.queue.map Entry.circuit = s.queue.map Entry.circuit)
    (hcir : (t.circuit n).state = .migrating ∧ (t.circuit n).context = some c ∧ (t.circuit n).transmit = .both
      ∧ (t.circuit n).equipped = (s.circuit n).equipped ∧ (t.circuit n).slot = (s.circuit n).slot)
    (hname : (t.ctx c).circuit = n) (hwork : (t.ctx c).working) (hfits : (t.ctx c).fits (t.circuit n))
    (hent : (t.ctx c).ownEntries)
    (hres : (t.circuit n).cellsHeld = if (t.circuit n).residual = 0 then 0 else (t.circuit n).residual + 2)
    (htot : t.pool.free + (t.circuit n).cellsHeld + (t.ctx c).cells
      = s.pool.free + (s.circuit n).cellsHeld + (s.ctx c).cells)
    (hwc : c ∈ t.pool.waitList ↔ (t.ctx c).state = .allocate) : Sound t := by
  refine h.pair n c i.hn i.hc hm f.circuits f.contexts f.spans (.inl i.field)
    (.inl ⟨⟨hcir.1, hcir.2.1, hname, hwork, hfits⟩, ?_⟩) f.queue ?_ ?_ ?_ hres hent htot (f.waitsOnce h.backed.waitsOnce)
    f.waits hwc
  · have := i.alone
    cases hq' : t.queued n with
    | false => rfl
    | true => rw [queued_iff, hq, ← queued_iff, this] at hq'; simp at hq'
  · rw [hq]; exact h.placed.once
  · rw [hcir.2.2.2.1, hcir.2.2.2.2]; exact ⟨i.equipped, i.slot, i.span⟩
  · unfold Circuit.carried; rw [hcir.1]; exact hcir.2.2.1

/-- A context that parts from its circuit. -/
theorem parts {s t : State} {n c : Nat} (h : Sound s) (i : Inside n c s) (f : Confined n c s t) (hm : t.mapLawful)
    (hq : (t.queue.map Entry.circuit).Perm (s.queue.map Entry.circuit)
      ∨ (t.queue.map Entry.circuit).Perm (n :: s.queue.map Entry.circuit))
    (hapart : Apart (t.circuit n) (t.ctx c)) (hcar : (t.circuit n).carried)
    (hsame : (t.circuit n).equipped = (s.circuit n).equipped ∧ (t.circuit n).slot = (s.circuit n).slot)
    (hent : (t.ctx c).ownEntries)
    (hres : (t.circuit n).cellsHeld = if (t.circuit n).residual = 0 then 0 else (t.circuit n).residual + 2)
    (htot : t.pool.free + (t.circuit n).cellsHeld = s.pool.free + (s.circuit n).cellsHeld + (s.ctx c).cells)
    (hw : c ∉ t.pool.waitList) (hst : (t.ctx c).state ≠ .allocate) : Sound t := by
  refine h.pair n c i.hn i.hc hm f.circuits f.contexts f.spans (.inl i.field) (.inr hapart) f.queue ?_ ?_ hcar hres hent ?_
    (f.waitsOnce h.backed.waitsOnce) f.waits ?_
  · rcases hq with hq | hq
    · exact hq.nodup_iff.mpr h.placed.once
    · exact hq.nodup_iff.mpr (List.nodup_cons.mpr ⟨not_mem i.alone, h.placed.once⟩)
  · rw [hsame.1, hsame.2]; exact ⟨i.equipped, i.slot, i.span⟩
  · rw [hapart.2.2.2.2]; omega
  · exact ⟨fun k => absurd k hw, fun k => absurd k hst⟩

/-- The state a context's circuit returns to, by R5 (R124, R160). -/
theorem home {s : State} {d : Direction} {o : MigState} (n : Nat) (h : d.admits o = true) :
    s.lockedState n o ≠ .migrating ∧ ∀ p, (s.lockedState n o).receiveFor p = d.currentPath := by
  unfold State.lockedState
  cases d <;> cases o <;> simp_all [Direction.admits, MigState.receiveFor, Direction.currentPath]
  split <;> simp

theorem carried_enter (c : Circuit) {st : MigState} (h : st ≠ .migrating) : (c.enter st).carried := by
  cases st <;> simp_all [Circuit.carried, Circuit.enter, MigState.receiveFor, MigState.transmitFor]

theorem delay_lines {c d : Circuit} (h1 : d.copperLine = c.copperLine) (h2 : d.fibreLine = c.fibreLine) (p : Path) :
    d.delay p = c.delay p := by
  cases p
  · exact congrArg List.length h1
  · exact congrArg List.length h2

/-- The circuit leaves its context, which has been set aborting, with its delays and cells settled (R106, R124). -/
theorem leave {s u : State} {n c : Nat} (h : Sound s) (i : Inside n c s) (f : Confined n c s u) (hm : u.mapLawful)
    (hq : u.queue = s.queue) (hname : (u.ctx c).circuit = n) (hst : (u.ctx c).state = .aborting)
    (hx : (u.ctx c).cells = 0) (hent : (u.ctx c).ownEntries)
    (hd : ∃ d : Direction, d.admits (u.ctx c).origin = true
      ∧ ((u.circuit n).residual ≠ 0 → (u.circuit n).residualPath = d.currentPath))
    (hsame : (u.circuit n).equipped = (s.circuit n).equipped ∧ (u.circuit n).slot = (s.circuit n).slot)
    (hdel : ∀ p, (u.circuit n).delay p = if p = (u.circuit n).residualPath then (u.circuit n).residual else 0)
    (hres : (u.circuit n).cellsHeld = if (u.circuit n).residual = 0 then 0 else (u.circuit n).residual + 2)
    (htot : u.pool.free + (u.circuit n).cellsHeld = s.pool.free + (s.circuit n).cellsHeld + (s.ctx c).cells)
    (hw : c ∉ u.pool.waitList) : Sound (u.leaveContext c) := by
  obtain ⟨d, hadm, hpath⟩ := hd
  obtain ⟨g, gp, gc, gx, gq⟩ := u.leaveBody_facts c n hname i.hn i.hc hent
  rw [State.leaveContext_eq]
  refine Sound.recondition ?_ _
  have hk : (u.leaveBody c).mapLawful := (Keeps.leaveBody u c).maps hm
  have hh := home (s := u) n hadm
  refine h.parts i (f.trans g) hk (by rw [← hq]; exact gq) ⟨?_, ?_, ?_, ?_, ?_⟩ ?_ ?_ ?_ ?_ ?_ ?_ ?_
  · rw [gc]; exact hh.1
  · rw [gc]; rfl
  · rw [gc]
    refine ⟨fun p => ?_, fun hr => ?_⟩
    · exact (delay_lines (c := u.circuit n) rfl rfl p).trans (hdel p)
    · exact (hpath hr).trans (hh.2 _).symm
  · rw [gx]; rintro ⟨_, k⟩; exact absurd (k hst) (by simp [Ctx.emptied])
  · rw [gx]; exact hx
  · rw [gc]; exact carried_enter _ hh.1
  · rw [gc]; exact hsame
  · rw [gx]; exact ⟨fun e he => by simp [Ctx.emptied] at he, fun e he => by simp [Ctx.emptied] at he⟩
  · rw [gc]; exact hres
  · rw [gc, gp]; exact htot
  · rw [gp]; exact hw
  · rw [gx]; show (u.ctx c).state ≠ _; rw [hst]; simp

end Sound
end Sys2Proof.Machine
namespace Sys2Proof.Machine

/-! ### Settling delays and cells -/

/-- What a settlement of delays and cells leaves (R106): the context without cells, the circuit with at most a residual on
one path, backed by its cells. -/
structure Settled (n c : Nat) (path : Path) (s u : State) : Prop where
  confined : Confined n c s u
  queue : u.queue = s.queue
  waits : u.pool.waitList = s.pool.waitList
  spans : u.spans = s.spans
  ctx : u.ctx c = { s.ctx c with cells := 0 }
  same : (u.circuit n).equipped = (s.circuit n).equipped ∧ (u.circuit n).slot = (s.circuit n).slot
    ∧ (u.circuit n).receive = (s.circuit n).receive
  delay : ∀ p, (u.circuit n).delay p = if p = (u.circuit n).residualPath then (u.circuit n).residual else 0
  path : (u.circuit n).residual ≠ 0 → (u.circuit n).residualPath = path
  held : (u.circuit n).cellsHeld = if (u.circuit n).residual = 0 then 0 else (u.circuit n).residual + 2
  total : u.pool.free + (u.circuit n).cellsHeld = s.pool.free + (s.circuit n).cellsHeld + (s.ctx c).cells

theorem delay_dropBoth (c : Circuit) (p : Path) : c.dropBoth.delay p = 0 := by cases p <;> rfl

theorem residualPath_dropOn (c : Circuit) (p : Path) : (c.dropOn p).residualPath = c.residualPath := by cases p <;> rfl
theorem same_dropOn (c : Circuit) (p : Path) : (c.dropOn p).equipped = c.equipped ∧ (c.dropOn p).slot = c.slot
    ∧ (c.dropOn p).receive = c.receive ∧ (c.dropOn p).state = c.state ∧ (c.dropOn p).context = c.context
    ∧ (c.dropOn p).transmit = c.transmit ∧ (c.dropOn p).cellsHeld = c.cellsHeld := by
  cases p <;> exact ⟨rfl, rfl, rfl, rfl, rfl, rfl, rfl⟩

theorem Direction.paths_ne (d : Direction) : d.targetPath ≠ d.currentPath := by cases d <;> simp [Direction.targetPath, Direction.currentPath]

theorem Path.eq_or (d : Direction) (p : Path) : p = d.currentPath ∨ p = d.targetPath := by
  cases d <;> cases p <;> simp [Direction.targetPath, Direction.currentPath]

/-- Before the switch (R106). -/
theorem State.settleUnswitched_settled {s : State} {n c : Nat} (hname : (s.ctx c).circuit = n) (hn : n < 480) (hc : c < 8)
    (hr : (s.circuit n).residual = 0) (hh : (s.circuit n).cellsHeld = 0)
    (hb : (s.circuit n).delay (s.ctx c).direction.currentPath = 0
      ∨ (s.circuit n).delay (s.ctx c).direction.currentPath + 2 ≤ (s.ctx c).cells) :
    Settled n c (s.ctx c).direction.currentPath s (s.settleUnswitched c) := by
  subst hname
  simp only [State.settleUnswitched]
  split
  · have hcir : (((s.modCircuit (s.ctx c).circuit Circuit.dropBoth).modCtx c (fun x => { x with cells := 0 })).returnCells
        (s.ctx c).cells).circuit (s.ctx c).circuit = (s.circuit (s.ctx c).circuit).dropBoth := by
      rw [State.circuit_returnCells, State.circuit_modCtx, State.circuit_modCircuit_same _ hn]
    refine ⟨((Confined.modCircuit _ c s _).trans (Confined.modCtx _ c _ _)).trans (Confined.returnCells _ c _ _), rfl, rfl,
      rfl, ?_, ?_, fun p => ?_, ?_, ?_, ?_⟩
    · rw [State.ctx_returnCells, State.ctx_modCtx_same _ hc]; rfl
    · rw [hcir]; exact ⟨rfl, rfl, rfl⟩
    · rw [hcir, delay_dropBoth]; show 0 = if _ then (s.circuit (s.ctx c).circuit).residual else 0; rw [hr]; simp
    · rw [hcir]; intro h; exact absurd hr h
    · rw [hcir]; show (s.circuit (s.ctx c).circuit).cellsHeld = if (s.circuit (s.ctx c).circuit).residual = 0 then 0 else _
      rw [hr, hh]; rfl
    · rw [hcir]
      show s.pool.free + (s.ctx c).cells + (s.circuit (s.ctx c).circuit).cellsHeld = _
      omega
  · next hk =>
    simp only [not_or, Bool.not_eq_true', Bool.not_eq_false] at hk
    have hcir : (((s.modCircuit (s.ctx c).circuit (fun y => { y.dropOn (s.ctx c).direction.targetPath with
        residual := (s.circuit (s.ctx c).circuit).delay (s.ctx c).direction.currentPath
        residualPath := (s.ctx c).direction.currentPath
        cellsHeld := (s.circuit (s.ctx c).circuit).delay (s.ctx c).direction.currentPath + 2 })).modCtx c
        (fun x => { x with cells := 0 })).returnCells
        ((s.ctx c).cells - ((s.circuit (s.ctx c).circuit).delay (s.ctx c).direction.currentPath + 2))).circuit
          (s.ctx c).circuit = { (s.circuit (s.ctx c).circuit).dropOn (s.ctx c).direction.targetPath with
        residual := (s.circuit (s.ctx c).circuit).delay (s.ctx c).direction.currentPath
        residualPath := (s.ctx c).direction.currentPath
        cellsHeld := (s.circuit (s.ctx c).circuit).delay (s.ctx c).direction.currentPath + 2 } := by
      rw [State.circuit_returnCells, State.circuit_modCtx, State.circuit_modCircuit_same _ hn]
    have hs := same_dropOn (s.circuit (s.ctx c).circuit) (s.ctx c).direction.targetPath
    refine ⟨((Confined.modCircuit _ c s _).trans (Confined.modCtx _ c _ _)).trans (Confined.returnCells _ c _ _), rfl, rfl,
      rfl, ?_, ?_, fun p => ?_, ?_, ?_, ?_⟩
    · rw [State.ctx_returnCells, State.ctx_modCtx_same _ hc]; rfl
    · rw [hcir]; exact ⟨hs.1, hs.2.1, hs.2.2.1⟩
    · rw [hcir]
      refine (Sound.delay_lines (c := (s.circuit (s.ctx c).circuit).dropOn (s.ctx c).direction.targetPath) rfl rfl p).trans ?_
      rw [Sound.delay_dropOn]
      rcases Path.eq_or (s.ctx c).direction p with e | e
      · subst e; simp [Ne.symm (Direction.paths_ne _)]
      · subst e; simp [Direction.paths_ne]
    · rw [hcir]; intro _; rfl
    · rw [hcir]; simp [hk.1]
    · rw [hcir]
      rcases hb with hb | hb
      · exact absurd hb hk.1
      · show s.pool.free + ((s.ctx c).cells - (_ + 2)) + (_ + 2) = _
        omega

/-- After the switch, or at the end by fault (R106, R127). -/
theorem State.settleAll_settled {s : State} {n c : Nat} (path : Path) (hname : (s.ctx c).circuit = n) (hn : n < 480)
    (hc : c < 8) : Settled n c path s (s.settleAll c) := by
  subst hname
  have hcir : (s.settleAll c).circuit (s.ctx c).circuit
      = { (s.circuit (s.ctx c).circuit).dropBoth with residual := 0, cellsHeld := 0 } := by
    unfold State.settleAll
    rw [State.circuit_returnCells, State.circuit_modCtx, State.circuit_modCircuit_same _ hn]
  refine ⟨((Confined.modCircuit _ c s _).trans (Confined.modCtx _ c _ _)).trans (Confined.returnCells _ c _ _), rfl, rfl,
    rfl, ?_, ?_, fun p => ?_, ?_, ?_, ?_⟩
  · unfold State.settleAll; rw [State.ctx_returnCells, State.ctx_modCtx_same _ hc]; rfl
  · rw [hcir]; exact ⟨rfl, rfl, rfl⟩
  · rw [hcir]; exact (delay_dropBoth (s.circuit (s.ctx c).circuit) p).trans (by simp)
  · rw [hcir]; intro h; exact absurd rfl h
  · rw [hcir]; rfl
  · rw [hcir]
    show s.pool.free + ((s.ctx c).cells + (s.circuit (s.ctx c).circuit).cellsHeld) + 0 = _
    omega

end Sys2Proof.Machine
namespace Sys2Proof.Machine

namespace Inside

/-- Before the switch the circuit has no residual and holds no cells, and the context's cells cover its delay (R96, R98). -/
theorem before {n c : Nat} {s : State} (i : Inside n c s) (h : (s.ctx c).switched = false) :
    (s.ctx c).direction.admits (s.ctx c).origin = true ∧ (s.circuit n).residual = 0 ∧ (s.circuit n).cellsHeld = 0
      ∧ (s.circuit n).receive = (s.ctx c).direction.currentPath ∧ (s.ctx c).prepared (s.circuit n)
      ∧ ((s.circuit n).delay (s.ctx c).direction.currentPath = 0
        ∨ (s.circuit n).delay (s.ctx c).direction.currentPath + 2 ≤ (s.ctx c).cells) := by
  have hf := i.fits
  unfold Ctx.fits at hf
  rw [h] at hf
  simp only [Bool.false_eq_true, if_false] at hf
  obtain ⟨h1, h2, h3, h4⟩ := hf
  refine ⟨h1, h2, by rw [i.held, h2]; rfl, h3, h4, ?_⟩
  unfold Ctx.prepared at h4
  cases hst : (s.ctx c).state <;> simp only [hst] at h4 <;> omega

/-- After the switch the circuit is as outside every preparation, and the context holds no cells (R102, R103). -/
theorem after {n c : Nat} {s : State} (i : Inside n c s) (h : (s.ctx c).switched = true) :
    (s.ctx c).direction.admits (s.ctx c).origin = true ∧ ((s.ctx c).state = .switched ∨ (s.ctx c).state = .aborting)
      ∧ (s.ctx c).cells = 0 ∧ (s.circuit n).receive = (s.ctx c).direction.targetPath ∧ (s.circuit n).settled := by
  have hf := i.fits
  unfold Ctx.fits at hf
  rw [h] at hf
  simpa using hf

end Inside

namespace Sound

theorem leaveWaitList_not (s : State) (c : Nat) : c ∉ (s.leaveWaitList c).pool.waitList := by
  unfold State.leaveWaitList; simp

theorem confinedFree (n c : Nat) (s : State) : Confined n c s ((s.leaveWaitList c).forgetContext c) :=
  (Confined.leaveWaitList n c s).trans (Confined.forgetContext n c c _)

/-- The abort after the context has left the wait list: `v` (R124, R126). -/
def abortFrom (v : State) (switched : Bool) (c : Nat) (cause : Cause) (pc : Option Byte) (d : Bool) : State :=
  let s3 := ((if switched then v else v.settleUnswitched c).modCtx c (fun x => x.abortWith cause pc d)).advertise c .abort
    cause.byte
  let s4 := if d then s3 else s3.raiseAborted c
  if switched then s4 else s4.leaveContext c

/-- The context is set aborting, on a state `u` in which its delays and cells are settled. -/
theorem aborting_facts {u t : State} {n c : Nat} (hc : c < 8) {cause : Cause} {pc : Option Byte} {d : Bool}
    (ht : t = if d then (u.modCtx c (fun x => x.abortWith cause pc d)).advertise c .abort cause.byte
      else ((u.modCtx c (fun x => x.abortWith cause pc d)).advertise c .abort cause.byte).raiseAborted c) :
    Confined n c u t ∧ t.ctx c = (u.ctx c).abortWith cause pc d ∧ t.circuit n = u.circuit n ∧ t.queue = u.queue
      ∧ t.pool = u.pool ∧ Keeps u t := by
  have f := (Confined.modCtx n c u (fun x => x.abortWith cause pc d)).trans
    (Confined.advertise n c c _ .abort cause.byte)
  have k := (Keeps.modCtx u c (fun x => x.abortWith cause pc d)).trans (Keeps.advertise _ c .abort cause.byte)
  have x : ((u.modCtx c (fun x => x.abortWith cause pc d)).advertise c .abort cause.byte).ctx c
      = (u.ctx c).abortWith cause pc d := by rw [State.ctx_advertise, State.ctx_modCtx_same _ hc]
  cases d
  · subst ht
    exact ⟨f.trans (Confined.raiseAborted n c c _), x, rfl, rfl, rfl, k.trans (Keeps.raiseAborted _ c)⟩
  · subst ht
    exact ⟨f, x, rfl, rfl, rfl, k⟩

/-- An abort (R124, R126). -/
theorem abortWith {s : State} (h : Sound s) (c : Nat) (cause : Cause) (pc : Option Byte) (d : Bool)
    (hf : (s.ctx c).state ≠ .free) (ha : (s.ctx c).state ≠ .aborting) : Sound (s.abortWith c cause pc d) := by
  have i := h.inside rfl (working_of hf ha)
  have fw := confinedFree (s.ctx c).circuit c s
  have hw0 : c ∉ ((s.leaveWaitList c).forgetContext c).pool.waitList := leaveWaitList_not s c
  have kw : Keeps s ((s.leaveWaitList c).forgetContext c) := (Keeps.leaveWaitList s c).trans (Keeps.forgetContext _ c)
  have vx : ((s.leaveWaitList c).forgetContext c).ctx c = s.ctx c := rfl
  have vc : ((s.leaveWaitList c).forgetContext c).circuit (s.ctx c).circuit = s.circuit (s.ctx c).circuit := rfl
  have vq : ((s.leaveWaitList c).forgetContext c).queue = s.queue := rfl
  have vf : ((s.leaveWaitList c).forgetContext c).pool.free = s.pool.free := rfl
  have key : s.abortWith c cause pc d
      = abortFrom ((s.leaveWaitList c).forgetContext c) (s.ctx c).switched c cause pc d := rfl
  rw [key]
  generalize hn : (s.ctx c).circuit = n at i fw vc
  generalize (s.leaveWaitList c).forgetContext c = v at fw hw0 kw vx vc vq vf ⊢
  cases hsw : (s.ctx c).switched with
  | true =>
    obtain ⟨h1, h2, h3, h4, h5⟩ := i.after hsw
    have key : abortFrom v true c cause pc d = if d then (v.modCtx c (fun x => x.abortWith cause pc d)).advertise c .abort
        cause.byte else ((v.modCtx c (fun x => x.abortWith cause pc d)).advertise c .abort cause.byte).raiseAborted c := rfl
    obtain ⟨f, hx, hcir, hq, hp, hk⟩ := aborting_facts (n := n) i.hc key
    generalize abortFrom v true c cause pc d = t at f hx hcir hq hp hk ⊢
    refine h.stays i (fw.trans f) ((kw.trans hk).maps h.maps) (by rw [hq, vq]) ?_ ?_ ?_ ?_ ?_ ?_ ?_ ?_
    · rw [hcir, vc]; exact ⟨i.migrating, i.field, i.both, rfl, rfl⟩
    · rw [hx, vx]; exact hn
    · rw [hx, vx]; exact ⟨by simp [Ctx.abortWith], fun _ => hsw⟩
    · rw [hx, hcir, vx, vc]
      unfold Ctx.fits
      rw [show ((s.ctx c).abortWith cause pc d).switched = true from hsw, if_pos rfl]
      exact ⟨h1, .inr rfl, h3, h4, h5⟩
    · rw [hx, vx]; exact i.entries
    · rw [hcir, vc]; exact i.held
    · rw [hx, hcir, hp, vf, vx, vc]; rfl
    · rw [hx, hp]; simp [hw0, Ctx.abortWith]
  | false =>
    obtain ⟨h1, h2, h3, h4, h5, h6⟩ := i.before hsw
    have st := State.settleUnswitched_settled (s := v) (n := n) (c := c) (by rw [vx]; exact hn) i.hn i.hc
      (by rw [vc]; exact h2) (by rw [vc]; exact h3) (by rw [vc, vx]; exact h6)
    have ks : Keeps v (v.settleUnswitched c) := Keeps.settleUnswitched v c
    have key : abortFrom v false c cause pc d = State.leaveContext (if d then ((v.settleUnswitched c).modCtx c (fun x =>
        x.abortWith cause pc d)).advertise c .abort cause.byte else (((v.settleUnswitched c).modCtx c (fun x =>
        x.abortWith cause pc d)).advertise c .abort cause.byte).raiseAborted c) c := rfl
    rw [key]
    generalize v.settleUnswitched c = u at st ks ⊢
    obtain ⟨f, hx, hcir, hq, hp, hk⟩ := aborting_facts (u := u) (n := n) (cause := cause) (pc := pc) (d := d) i.hc rfl
    generalize (if d then (u.modCtx c (fun x => x.abortWith cause pc d)).advertise c .abort cause.byte else
      ((u.modCtx c (fun x => x.abortWith cause pc d)).advertise c .abort cause.byte).raiseAborted c) = t at f hx hcir hq hp hk ⊢
    refine h.leave i ((fw.trans st.confined).trans f) (((kw.trans ks).trans hk).maps h.maps) (by rw [hq, st.queue, vq])
      ?_ ?_ ?_ ?_ ⟨(s.ctx c).direction, ?_, ?_⟩ ?_ ?_ ?_ ?_ ?_
    · rw [hx, st.ctx, vx]; exact hn
    · rw [hx]; rfl
    · rw [hx, st.ctx]; rfl
    · rw [hx, st.ctx, vx]; exact i.entries
    · rw [hx, st.ctx, vx]; exact h1
    · rw [hcir, ← vx]; exact st.path
    · rw [hcir, ← vc]; exact ⟨st.same.1, st.same.2.1⟩
    · rw [hcir]; exact st.delay
    · rw [hcir]; exact st.held
    · rw [hcir, hp, ← vf, ← vc, ← vx]; exact st.total
    · rw [hp, st.waits]; exact hw0

theorem abort {s : State} (h : Sound s) (c : Nat) (cause : Cause) (pc : Option Byte) : Sound (s.abort c cause pc) :=
  ite (fun _ => h) (fun k => by
    simp only [not_or] at k
    exact h.abortWith c cause pc false k.1 k.2)

theorem defer {s : State} (h : Sound s) (c : Nat) : Sound (s.defer c) :=
  ite (fun _ => h) (fun k => by
    simp only [not_or] at k
    exact h.abortWith c _ none true k.1 k.2)

/-- A circuit without delays, residual and cells. -/
def cleared (c : Circuit) : Circuit := { c.dropBoth with residual := 0, cellsHeld := 0 }

theorem cleared_facts (c : Circuit) : (cleared c).equipped = c.equipped ∧ (cleared c).slot = c.slot
    ∧ (cleared c).residual = 0 ∧ (cleared c).cellsHeld = 0 ∧ (cleared c).receive = c.receive ∧ ∀ p, (cleared c).delay p = 0 :=
  ⟨rfl, rfl, rfl, rfl, rfl, fun p => delay_dropBoth c p⟩

theorem cleared_core (c : Circuit) : Keeps.sameCore (cleared c) c := ⟨rfl, rfl, rfl, rfl⟩

/-- The return after an abort after the switch (R124). -/
theorem makeReturn {s : State} (h : Sound s) (c : Nat) (ha : (s.ctx c).state = .aborting)
    (hr : (s.ctx c).returnPending = true) : Sound (s.makeReturn c) := by
  have i := h.inside rfl (c := c) ⟨by rw [ha]; simp, fun _ => hr⟩
  generalize hn : (s.ctx c).circuit = n at i
  have hsw : (s.ctx c).switched = true := by
    cases hs : (s.ctx c).switched with
    | true => rfl
    | false => have := (i.before hs).2.2.2.2.1; unfold Ctx.prepared at this; rw [ha] at this; exact this.elim
  obtain ⟨h1, -, h3, h4, h5⟩ := i.after hsw
  have key : s.makeReturn c = ((s.modCircuit n cleared).returnCells (s.circuit n).cellsHeld).leaveContext c := by
    rw [← hn]; rfl
  rw [key]
  generalize hu : (s.modCircuit n cleared).returnCells (s.circuit n).cellsHeld = u
  have hcir : u.circuit n = cleared (s.circuit n) := by
    rw [← hu, State.circuit_returnCells, State.circuit_modCircuit_same _ i.hn]
  obtain ⟨e1, e2, e3, e4, e5, e6⟩ := cleared_facts (s.circuit n)
  have hx : u.ctx c = s.ctx c := by rw [← hu, State.ctx_returnCells, State.ctx_modCircuit]
  have hk : u.mapLawful := by
    have k : Keeps s (s.modCircuit n cleared) := Keeps.modCircuit (cleared_core _)
    rw [← hu]; exact (k.trans (Keeps.returnCells _ _)).maps h.maps
  have f : Confined n c s u := by
    rw [← hu]; exact (Confined.modCircuit n c s cleared).trans (Confined.returnCells _ _ _ _)
  refine h.leave i f hk (by rw [← hu]; rfl) ?_ ?_ ?_ ?_ ⟨(s.ctx c).direction, ?_, ?_⟩ ?_ ?_ ?_ ?_ ?_
  · rw [hx]; exact hn
  · rw [hx]; exact ha
  · rw [hx]; exact h3
  · rw [hx]; exact i.entries
  · rw [hx]; exact h1
  · rw [hcir, e3]; simp
  · rw [hcir]; exact ⟨e1, e2⟩
  · rw [hcir, e3]; intro p; rw [e6]; simp
  · rw [hcir, e3, e4]; rfl
  · rw [hcir, e4, ← hu]; show s.pool.free + (s.circuit n).cellsHeld + 0 = _; omega
  · rw [← hu]
    show c ∉ s.pool.waitList
    rw [h.backed.waiting c, ha]; simp

theorem returnIfPending {s : State} (h : Sound s) (c : Nat) : Sound (s.returnIfPending c) :=
  ite (fun k => h.makeReturn c k.1 k.2) (fun _ => h)

end Sound
end Sys2Proof.Machine
namespace Sys2Proof.Machine
namespace Sound

/-! ### Contexts without a circuit -/

theorem idle_state {x : Ctx} (h : ¬ x.working) : x.state = .free ∨ x.state = .aborting := by
  by_cases hf : x.state = .free
  · exact .inl hf
  · by_cases ha : x.state = .aborting
    · exact .inr ha
    · exact absurd ⟨hf, fun k => absurd k ha⟩ h

/-- A context that has no circuit before and after. -/
theorem idleCtx {s : State} (h : Sound s) (c : Nat) {f : Ctx → Ctx} (hw : ¬ (s.ctx c).working)
    (hw' : ¬ (f (s.ctx c)).working) (hcells : (f (s.ctx c)).cells = 0) (hent : (f (s.ctx c)).ownEntries) :
    Sound (s.modCtx c f) := by
  have other : ∀ k, ((s.modCtx c f).ctx k = s.ctx k ∧ k ≠ c) ∨ ((s.modCtx c f).ctx k = f (s.ctx c) ∧ k = c)
      ∨ ((s.modCtx c f).ctx k = s.ctx k ∧ k = c) := by
    intro k
    rw [State.ctx_modCtx]
    by_cases e : k = c
    · by_cases hc : c < 8
      · rw [if_pos ⟨e, hc⟩]; exact .inr (.inl ⟨rfl, e⟩)
      · rw [if_neg (fun x => hc x.2)]; exact .inr (.inr ⟨rfl, e⟩)
    · rw [if_neg (fun x => e x.1)]; exact .inl ⟨rfl, e⟩
  have work : ∀ k, ((s.modCtx c f).ctx k).working → (s.modCtx c f).ctx k = s.ctx k ∧ (s.ctx k).working := by
    intro k hk
    rcases other k with ⟨e, _⟩ | ⟨e, _⟩ | ⟨e, _⟩
    · rw [e] at hk; exact ⟨e, hk⟩
    · rw [e] at hk; exact absurd hk hw'
    · rw [e] at hk; exact ⟨e, hk⟩
  have work' : ∀ k, (s.ctx k).working → (s.modCtx c f).ctx k = s.ctx k := by
    intro k hk
    rcases other k with ⟨e, _⟩ | ⟨_, e⟩ | ⟨e, _⟩
    · exact e
    · subst e; exact absurd hk hw
    · exact e
  obtain ⟨hp, hb, hm⟩ := h
  refine ⟨⟨hp.carried, hp.migrating, fun n k hk => ?_, fun k hk => ?_, hp.away, hp.once, hp.apart, fun k => ?_⟩,
    ⟨?_, hb.residual, hb.settled, fun n k hk => ?_, fun k hk => ?_, fun k => ?_, hb.waitsOnce⟩, (Keeps.modCtx s c f).maps hm⟩
  · have := hp.inContext n k hk
    rw [work' k this.2]; exact this
  · obtain ⟨e, hk'⟩ := work k hk
    rw [e]; exact hp.ofContext k hk'
  · rcases other k with ⟨e, _⟩ | ⟨e, _⟩ | ⟨e, _⟩
    · rw [e]; exact hp.entries k
    · rw [e]; exact hent
    · rw [e]; exact hp.entries k
  · have := hb.total
    rw [State.totalCells_eq] at this ⊢
    have e : ∀ k, ((s.modCtx c f).ctx k).cells = (s.ctx k).cells := by
      intro k
      rcases other k with ⟨e, _⟩ | ⟨e, ec⟩ | ⟨e, _⟩
      · rw [e]
      · rw [e, hcells, ec, hb.idle c hw]
      · rw [e]
    simp only [e]
    exact this
  · rw [work' k (hp.inContext n k hk).2]; exact hb.fits n k hk
  · rcases other k with ⟨e, _⟩ | ⟨e, _⟩ | ⟨e, _⟩
    · rw [e] at hk ⊢; exact hb.idle k hk
    · rw [e]; exact hcells
    · rw [e] at hk ⊢; exact hb.idle k hk
  · show k ∈ s.pool.waitList ↔ _
    rw [hb.waiting k]
    rcases other k with ⟨e, _⟩ | ⟨e, ec⟩ | ⟨e, _⟩
    · rw [e]
    · rw [e, ec]
      have h1 := idle_state hw
      have h2 := idle_state hw'
      rcases h1 with h1 | h1 <;> rcases h2 with h2 | h2 <;> rw [h1, h2] <;> simp
    · rw [e]

theorem recondition_ctx (s : State) (n c : Nat) : (s.recondition n).ctx c = s.ctx c := by
  rw [(Rederived.recondition s n).same]; rfl

theorem makeReturn_ctx {s : State} (h : Sound s) (c : Nat) (ha : (s.ctx c).state = .aborting)
    (hr : (s.ctx c).returnPending = true) : (s.makeReturn c).ctx c = (s.ctx c).emptied := by
  have i := h.inside rfl (c := c) ⟨by rw [ha]; simp, fun _ => hr⟩
  have key : s.makeReturn c = (((s.modCircuit (s.ctx c).circuit cleared).returnCells
    (s.circuit (s.ctx c).circuit).cellsHeld).leaveBody c).recondition (s.ctx c).circuit := rfl
  rw [key, recondition_ctx]
  have e : ((s.modCircuit (s.ctx c).circuit cleared).returnCells (s.circuit (s.ctx c).circuit).cellsHeld).ctx c = s.ctx c :=
    rfl
  generalize (s.modCircuit (s.ctx c).circuit cleared).returnCells (s.circuit (s.ctx c).circuit).cellsHeld = u at e ⊢
  rw [← e]
  exact (State.leaveBody_facts u c (s.ctx c).circuit (by rw [e]) i.hn i.hc (by rw [e]; exact i.entries)).2.2.2.1

/-- The end of ABORTING (R125, R129). -/
theorem endAborting {s : State} (h : Sound s) (c : Nat) : Sound (s.endAborting c) := by
  have last : ∀ t : State, Sound t → ¬ (t.ctx c).working → Sound (if (t.ctx c).resetPending then t.modCtx c Ctx.freed
      else if (t.ctx c).mayEnd then (t.beginLinger c).modCtx c Ctx.freed else t) := by
    intro t ht hw
    have free : ∀ u : State, Sound u → u.ctx c = t.ctx c → Sound (u.modCtx c Ctx.freed) := fun u hu e =>
      hu.idleCtx c (by rw [e]; exact hw) (fun k => k.1 rfl)
        (by rw [e]; exact ht.backed.idle c hw) ⟨fun e he => (by cases he), fun e he => (by cases he)⟩
    exact ite (fun _ => free t ht rfl) (fun _ => ite (fun _ => free _ (ht.beginLinger c) rfl) (fun _ => ht))
  unfold State.endAborting
  refine ite (fun ha => ?_) (fun _ => h)
  dsimp only
  by_cases hr : (s.ctx c).returnPending = true
  · rw [if_pos hr]
    refine last _ (h.makeReturn c ha hr) ?_
    rw [h.makeReturn_ctx c ha hr]
    rintro ⟨_, k⟩
    exact absurd (k ha) (by simp [Ctx.emptied])
  · rw [if_neg hr]
    exact last s h (fun k => hr (k.2 ha))

/-! ### The end by fault (R127) -/

/-- A context ended by fault. -/
def faulted (x : Ctx) : Ctx := { x.abortWith .fibreFault none false with returnPending := false, served := none, parked := none }

theorem endByFault {s : State} (h : Sound s) (c : Nat) (hf : (s.ctx c).state ≠ .free) (ha : (s.ctx c).state ≠ .aborting) :
    Sound (s.endByFault c) := by
  have i := h.inside rfl (working_of hf ha)
  have km := (Keeps.endByFault s c).maps h.maps
  have fw := confinedFree (s.ctx c).circuit c s
  have hw0 : c ∉ ((s.leaveWaitList c).forgetContext c).pool.waitList := leaveWaitList_not s c
  have kw : Keeps s ((s.leaveWaitList c).forgetContext c) := (Keeps.leaveWaitList s c).trans (Keeps.forgetContext _ c)
  have vx : ((s.leaveWaitList c).forgetContext c).ctx c = s.ctx c := rfl
  have vc : ((s.leaveWaitList c).forgetContext c).circuit (s.ctx c).circuit = s.circuit (s.ctx c).circuit := rfl
  have vq : ((s.leaveWaitList c).forgetContext c).queue = s.queue := rfl
  have vf : ((s.leaveWaitList c).forgetContext c).pool.free = s.pool.free := rfl
  have key : s.endByFault c = ((((((((s.leaveWaitList c).forgetContext c).settleAll c).modCtx c faulted).advertise c .abort
    Cause.fibreFault.byte).modCircuit (s.ctx c).circuit (fun y => y.left .copper (some .fibreFault))).raiseAborted
    c).reenterParked (s.ctx c).parked).recondition (s.ctx c).circuit := rfl
  rw [key]
  refine Sound.recondition ?_ _
  generalize hn : (s.ctx c).circuit = n at i fw vc
  generalize (s.leaveWaitList c).forgetContext c = v at fw hw0 kw vx vc vq vf ⊢
  have st := State.settleAll_settled (s := v) (n := n) (c := c) .copper (by rw [vx]; exact hn) i.hn i.hc
  have ks : Keeps v (v.settleAll c) := Keeps.settleAll v c
  generalize v.settleAll c = u at st ks ⊢
  generalize hp : (s.ctx c).parked = p
  have f3 := ((Confined.modCtx n c u faulted).trans (Confined.advertise n c c _ .abort Cause.fibreFault.byte)).trans
    (Confined.modCircuit n c _ (fun y => y.left .copper (some .fibreFault)))
  have k3 : Keeps u (((u.modCtx c faulted).advertise c .abort Cause.fibreFault.byte).modCircuit n
      (fun y => y.left .copper (some .fibreFault))) :=
    ((Keeps.modCtx u c faulted).trans (Keeps.advertise _ c .abort Cause.fibreFault.byte)).trans
      (Keeps.modCircuit ⟨rfl, rfl, rfl, rfl⟩)
  have x3 : (((u.modCtx c faulted).advertise c .abort Cause.fibreFault.byte).modCircuit n
      (fun y => y.left .copper (some .fibreFault))).ctx c = faulted (u.ctx c) := by
    rw [State.ctx_modCircuit, State.ctx_advertise, State.ctx_modCtx_same _ i.hc]
  have c3 : (((u.modCtx c faulted).advertise c .abort Cause.fibreFault.byte).modCircuit n
      (fun y => y.left .copper (some .fibreFault))).circuit n = (u.circuit n).left .copper (some .fibreFault) := by
    rw [State.circuit_modCircuit_same _ i.hn, State.circuit_advertise, State.circuit_modCtx]
  have q3 : (((u.modCtx c faulted).advertise c .abort Cause.fibreFault.byte).modCircuit n
      (fun y => y.left .copper (some .fibreFault))).queue = u.queue := rfl
  have p3 : (((u.modCtx c faulted).advertise c .abort Cause.fibreFault.byte).modCircuit n
      (fun y => y.left .copper (some .fibreFault))).pool = u.pool := rfl
  generalize ((u.modCtx c faulted).advertise c .abort Cause.fibreFault.byte).modCircuit n
      (fun y => y.left .copper (some .fibreFault)) = t at f3 k3 x3 c3 q3 p3 ⊢
  have r := Reentered.reenterParked (n := n) (t.raiseAborted c) p
    (fun y hy => (i.entries.2 y (by rw [hp]; exact hy)).trans hn)
  have kr : Keeps (t.raiseAborted c) ((t.raiseAborted c).reenterParked p) := Keeps.reenterParked _ p
  have ka := Keeps.raiseAborted t c
  have fa := Confined.raiseAborted n c c t
  have xa : (t.raiseAborted c).contexts = t.contexts := rfl
  have ca : (t.raiseAborted c).circuits = t.circuits := rfl
  have qa : (t.raiseAborted c).queue = t.queue := rfl
  have pa : (t.raiseAborted c).pool = t.pool := rfl
  generalize t.raiseAborted c = w at r kr ka fa xa ca qa pa ⊢
  obtain ⟨⟨r1, r2, r3, r4⟩, r5⟩ := r
  have r : Reentered n w (w.reenterParked p) := ⟨⟨r1, r2, r3, r4⟩, r5⟩
  have fr := r.confined c
  generalize w.reenterParked p = z at r kr r1 r2 r3 r4 r5 fr ⊢
  have hz : z.circuit n = (u.circuit n).left .copper (some .fibreFault) := by
    rw [State.circuit_congr r1, State.circuit_congr ca, c3]
  have hx : z.ctx c = faulted (u.ctx c) := by rw [State.ctx_congr r2, State.ctx_congr xa, x3]
  refine h.parts i ((((fw.trans st.confined).trans f3).trans fa).trans fr)
    (((((kw.trans ks).trans k3).trans ka).trans kr).maps h.maps) ?_ ⟨?_, ?_, ?_, ?_, ?_⟩ ?_ ?_ ?_ ?_ ?_ ?_ ?_
  · rw [← vq, ← st.queue, ← q3, ← qa]; exact r5
  · rw [hz]; simp [Circuit.left, Circuit.enter]
  · rw [hz]; rfl
  · rw [hz]
    exact ⟨fun q => (delay_lines (c := u.circuit n) rfl rfl q).trans (st.delay q), fun k => st.path k⟩
  · rw [hx]; rintro ⟨_, k⟩; exact absurd (k rfl) (by simp [faulted])
  · rw [hx, st.ctx]; rfl
  · rw [hz]; exact carried_enter (u.circuit n) (st := .copper) (by simp)
  · rw [hz, ← vc]; exact ⟨st.same.1, st.same.2.1⟩
  · rw [hx]; exact ⟨fun e he => by simp [faulted] at he, fun e he => by simp [faulted] at he⟩
  · rw [hz]; exact st.held
  · rw [hz, r4, pa, p3, ← vf, ← vc, ← vx]; exact st.total
  · rw [r4, pa, p3, st.waits]; exact hw0
  · rw [hx]; simp [faulted, Ctx.abortWith]

end Sound
end Sys2Proof.Machine
namespace Sys2Proof.Machine
namespace Sound

/-! ### A context that goes on -/

/-- An update of a working context's own record, and of what no law reads. -/
theorem staysCtx {s t : State} {n c : Nat} (h : Sound s) (i : Inside n c s) (hm : t.mapLawful)
    (hc : t.circuits = s.circuits) (hx : ∀ k, k ≠ c → t.ctx k = s.ctx k) (hs : t.spans = s.spans) (hq : t.queue = s.queue)
    (hp : t.pool = s.pool) {y : Ctx} (hy : t.ctx c = y) (hname : y.circuit = (s.ctx c).circuit)
    (hcells : y.cells = (s.ctx c).cells) (hwork : y.working) (hfits : y.fits (s.circuit n)) (hent : y.ownEntries)
    (hal : (s.ctx c).state = .allocate ↔ y.state = .allocate) : Sound t := by
  subst hy
  have hcn := State.circuit_congr hc n
  refine h.stays i ⟨fun m _ => by rw [State.circuit_congr hc], fun k e => by rw [hx k e],
    fun x => by rw [State.span_congr hs], fun m _ => by simp only [State.queued, hq], fun k _ => by rw [hp],
    fun k => by rw [hp]; exact k⟩ hm (by rw [hq]) ?_ (by rw [hname]; exact i.name) hwork (by rw [hcn]; exact hfits) hent ?_ ?_ ?_
  · rw [hcn]; exact ⟨i.migrating, i.field, i.both, rfl, rfl⟩
  · rw [hcn]; exact i.held
  · rw [hcn, hp, hcells]
  · rw [hp, h.backed.waiting c]; exact hal

/-- The record of a context in READY, as `enterReady` makes it. -/
def readied (x : Ctx) : Ctx :=
  { x with state := .ready, stepTimer := 0, stepRunning := !x.peerReady, switchDue := x.peerReady }

/-- The entry to READY after an update of the context's own record (R98, R121, R135). -/
theorem readyAfter {s : State} {n c : Nat} (h : Sound s) (i : Inside n c s) {f : Ctx → Ctx}
    (hname : (f (s.ctx c)).circuit = (s.ctx c).circuit) (hcells : (f (s.ctx c)).cells = (s.ctx c).cells)
    (hent : (f (s.ctx c)).ownEntries) (hst : (s.ctx c).state ≠ .allocate)
    (hfits : (readied (f (s.ctx c))).fits (s.circuit n)) : Sound ((s.modCtx c f).enterReady c) := by
  have key : (s.modCtx c f).enterReady c = ((s.modCtx c f).modCtx c readied).advertise c .ready 0 := rfl
  have k := (Keeps.modCtx s c f).trans (Keeps.enterReady (s.modCtx c f) c)
  rw [key] at k ⊢
  refine h.staysCtx i (k.maps h.maps) rfl (fun m e => ?_) rfl rfl rfl (y := readied (f (s.ctx c))) ?_ hname hcells ?_ hfits hent ?_
  · rw [State.ctx_advertise, State.ctx_modCtx, if_neg (fun x => e x.1), State.ctx_modCtx, if_neg (fun x => e x.1)]
  · rw [State.ctx_advertise, State.ctx_modCtx_same _ i.hc, State.ctx_modCtx_same _ i.hc]
  · exact ⟨by simp [readied], by simp [readied]⟩
  · simp [readied, hst]

/-- A context without an update of its own enters READY. -/
theorem enterReady {s : State} {n c : Nat} (h : Sound s) (i : Inside n c s) (hst : (s.ctx c).state ≠ .allocate)
    (hfits : (readied (s.ctx c)).fits (s.circuit n)) : Sound (s.enterReady c) := by
  have k := Keeps.enterReady s c
  have key : s.enterReady c = (s.modCtx c readied).advertise c .ready 0 := rfl
  rw [key] at k ⊢
  refine h.staysCtx i (k.maps h.maps) rfl (fun m e => ?_) rfl rfl rfl (y := readied (s.ctx c)) ?_ rfl rfl ?_ hfits i.entries ?_
  · rw [State.ctx_advertise, State.ctx_modCtx, if_neg (fun x => e x.1)]
  · rw [State.ctx_advertise, State.ctx_modCtx_same _ i.hc]
  · exact ⟨by simp [readied], by simp [readied]⟩
  · simp [readied, hst]

/-- The entry to ALLOCATE after an update of the context's own record (R95, R100). -/
theorem allocateAfter {s : State} {n c : Nat} (h : Sound s) (i : Inside n c s) {f : Ctx → Ctx}
    (hname : (f (s.ctx c)).circuit = (s.ctx c).circuit) (hcells : (f (s.ctx c)).cells = (s.ctx c).cells)
    (hent : (f (s.ctx c)).ownEntries) (hst : (s.ctx c).state ≠ .allocate)
    (hfits : Ctx.fits { f (s.ctx c) with state := .allocate } (s.circuit n)) : Sound ((s.modCtx c f).enterAllocate c) := by
  have k := (Keeps.modCtx s c f).trans (Keeps.enterAllocate (s.modCtx c f) c)
  have hmem : c ∉ s.pool.waitList := fun e => hst ((h.backed.waiting c).mp e)
  have body : ∀ t : State, t.mapLawful → t.circuits = s.circuits → t.contexts = ((s.modCtx c f).modCtx c (fun x => { x with
      state := .allocate })).contexts → t.spans = s.spans → t.queue = s.queue → t.pool.free = s.pool.free →
      t.pool.waitList = s.pool.waitList ++ [c] → Sound t := by
    intro t hm hc hx hs hq hf hw
    have hcn := State.circuit_congr hc n
    have hxc : t.ctx c = { f (s.ctx c) with state := .allocate } := by
      rw [State.ctx_congr hx, State.ctx_modCtx_same _ i.hc, State.ctx_modCtx_same _ i.hc]
    refine h.stays i ⟨fun m _ => by rw [State.circuit_congr hc], fun m e => ?_, fun x => by rw [State.span_congr hs],
      fun m _ => by simp only [State.queued, hq], fun m e => by rw [hw]; simp [e], fun nd => ?_⟩ hm (by rw [hq]) ?_ ?_ ?_ ?_ ?_ ?_
      ?_ ?_
    · rw [State.ctx_congr hx, State.ctx_modCtx, if_neg (fun x => e x.1), State.ctx_modCtx, if_neg (fun x => e x.1)]
    · rw [hw]; exact List.nodup_append.mpr ⟨nd, by simp, fun a ha b hb => by
        simp only [List.mem_singleton] at hb; subst hb; intro e; subst e; exact hmem ha⟩
    · rw [hcn]; exact ⟨i.migrating, i.field, i.both, rfl, rfl⟩
    · rw [hxc]; exact hname.trans i.name
    · rw [hxc]; exact ⟨by simp, by simp⟩
    · rw [hxc, hcn]; exact hfits
    · rw [hxc]; exact hent
    · rw [hcn]; exact i.held
    · rw [hcn, hxc, hf]; show _ + _ + (f (s.ctx c)).cells = _; rw [hcells]
    · rw [hw, hxc]; simp
  unfold State.enterAllocate at k ⊢
  dsimp only at k ⊢
  refine body _ (k.maps h.maps) ?_ ?_ ?_ ?_ ?_ ?_ <;> split <;> rfl

/-- The entry to MEASURE (R117). -/
theorem measureAfter {s : State} {n c : Nat} (h : Sound s) (i : Inside n c s) (f : Ctx → Ctx)
    (hf : (f (s.ctx c)).core = (s.ctx c).core) (hst : (s.ctx c).state = .request) :
    Sound ((s.modCtx c f).enterMeasure c) := by
  have k := (Keeps.modCtx s c f).trans (Keeps.enterMeasure (s.modCtx c f) c)
  have hsw : (s.ctx c).switched = false := by
    cases hs : (s.ctx c).switched with
    | false => rfl
    | true => have := (i.after hs).2.1; rw [hst] at this; simp at this
  have hb := i.before hsw
  simp only [Ctx.core, Prod.mk.injEq] at hf
  obtain ⟨f1, f2, f3, f4, f5, f6, f7, f8, f9, f10⟩ := hf
  refine h.staysCtx i (k.maps h.maps) rfl (fun m e => ?_) rfl rfl rfl (y := { f (s.ctx c) with
      state := .measure, stepRunning := false, bridgeTimer := 0, begun := false }) ?_ f3 f6 ?_ ?_ ?_ ?_
  · unfold State.enterMeasure
    rw [State.ctx_advertise, State.ctx_modCtx, if_neg (fun x => e x.1), State.ctx_modCtx, if_neg (fun x => e x.1)]
  · unfold State.enterMeasure
    rw [State.ctx_advertise, State.ctx_modCtx_same _ i.hc, State.ctx_modCtx_same _ i.hc]
  · exact ⟨by simp, by simp⟩
  · have hp := hb.2.2.2.2.1
    unfold Ctx.prepared at hp
    rw [hst] at hp
    simp only [Ctx.fits, f2, f4, f7, hsw, Ctx.prepared, f5, f6]
    exact ⟨hb.1, hb.2.1, hb.2.2.2.1, hp⟩
  · simp only [Ctx.ownEntries, f9, f3, f10]; exact i.entries
  · simp [hst]

theorem enterMeasure {s : State} {n c : Nat} (h : Sound s) (i : Inside n c s) (hst : (s.ctx c).state = .request) :
    Sound (s.enterMeasure c) := by
  have hsw : (s.ctx c).switched = false := by
    cases hs : (s.ctx c).switched with
    | false => rfl
    | true => have := (i.after hs).2.1; rw [hst] at this; simp at this
  have hb := i.before hsw
  refine h.staysCtx i ((Keeps.enterMeasure s c).maps h.maps) rfl (fun m e => ?_) rfl rfl rfl (y := { s.ctx c with
      state := .measure, stepRunning := false, bridgeTimer := 0, begun := false }) ?_ rfl rfl ?_ ?_ i.entries ?_
  · unfold State.enterMeasure
    rw [State.ctx_advertise, State.ctx_modCtx, if_neg (fun x => e x.1)]
  · unfold State.enterMeasure
    rw [State.ctx_advertise, State.ctx_modCtx_same _ i.hc]
  · exact ⟨by simp, by simp⟩
  · have hp := hb.2.2.2.2.1
    unfold Ctx.prepared at hp
    rw [hst] at hp
    simp only [Ctx.fits, hsw, Ctx.prepared]
    exact ⟨hb.1, hb.2.1, hb.2.2.2.1, hp⟩
  · simp [hst]

/-! ### Attempts -/

theorem unswitched {s : State} {n c : Nat} (i : Inside n c s) (h1 : (s.ctx c).state ≠ .switched)
    (h2 : (s.ctx c).state ≠ .aborting) : (s.ctx c).switched = false := by
  cases hs : (s.ctx c).switched with
  | false => rfl
  | true => rcases (i.after hs).2.1 with k | k
            · exact absurd k h1
            · exact absurd k h2

theorem beginAttempt {s : State} (h : Sound s) (c k : Nat) : Sound (s.beginAttempt c k) := h.modCtx rfl

/-- The end of an attempt that is due (R92, R94, R95). -/
theorem endAttempt {s : State} (h : Sound s) (c : Nat) (hst : (s.ctx c).state = .measure) : Sound (s.endAttempt c) := by
  have i := h.inside rfl (working_of (c := c) (by rw [hst]; simp) (by rw [hst]; simp))
  have hsw := unswitched i (by rw [hst]; simp) (by rw [hst]; simp)
  have hb := i.before hsw
  have hp := hb.2.2.2.2.1
  unfold Ctx.prepared at hp
  rw [hst] at hp
  obtain ⟨-, p2, p3, p4⟩ := hp
  unfold State.endAttempt
  refine ite (fun _ => ?_) (fun _ => ite (fun _ => h.beginAttempt c _) (fun _ => h.abort c _ _))
  generalize hf : (fun y : Ctx => { y with
    running := false, lead := some (y.direction.leadOf (meanOf y.sum y.attemptN)) }) = f
  have fx : f (s.ctx c) = { s.ctx c with
    running := false, lead := some ((s.ctx c).direction.leadOf (meanOf (s.ctx c).sum (s.ctx c).attemptN)) } := by
    rw [← hf]
  generalize (s.ctx c).direction.leadOf (meanOf (s.ctx c).sum (s.ctx c).attemptN) = e at fx
  unfold State.prepareSwitch
  have hlead : (((s.modCtx c f).ctx c).lead.getD 0) = e := by rw [State.ctx_modCtx_same _ i.hc, fx]; rfl
  dsimp only
  rw [hlead]
  have hst' : (s.ctx c).state ≠ .allocate := by rw [hst]; simp
  refine ite (fun he => ?_) (fun hne => ite (fun he => ?_) (fun _ => ?_))
  · refine h.readyAfter i (by rw [fx]) (by rw [fx]) (by rw [fx]; exact i.entries) hst' ?_
    rw [fx]
    simp only [Ctx.fits, readied, hsw, Ctx.prepared]
    exact ⟨hb.1, hb.2.1, hb.2.2.2.1, .inl ⟨by simp [he], p2, p3, p4⟩⟩
  · have key : (s.modCtx c f).modCtx c (fun x => { x with idleOnly := true }) = s.modCtx c (fun x => { f x with
        idleOnly := true }) := by
      simp only [State.modCtx, State.setCtx, State.ctx]
      rw [Table.put_put, Table.at_put_eq _ _ _ i.hc]
    rw [key]
    refine h.readyAfter i (by rw [fx]) (by rw [fx]) (by rw [fx]; exact i.entries) hst' ?_
    rw [fx]
    simp only [Ctx.fits, readied, hsw, Ctx.prepared]
    exact ⟨hb.1, hb.2.1, hb.2.2.2.1, .inl ⟨by simp only [Option.getD_some]; omega, p2, p3, p4⟩⟩
  · refine h.allocateAfter i (by rw [fx]) (by rw [fx]) (by rw [fx]; exact i.entries) hst' ?_
    rw [fx]
    simp only [Ctx.fits, hsw, Ctx.prepared]
    exact ⟨hb.1, hb.2.1, hb.2.2.2.1, by simpa using hne, p2, p3, p4⟩

theorem measureIfDue {s : State} (h : Sound s) (c : Nat) : Sound (s.measureIfDue c) :=
  ite (fun k => h.endAttempt c (by simp only [Ctx.measurementDue, Bool.and_eq_true, beq_iff_eq] at k; exact k.1.1)) (fun _ => h)

theorem startAttempt {s : State} (h : Sound s) (c : Nat) (hst : (s.ctx c).state = .measure) : Sound (s.startAttempt c) := by
  have h' := h.forget (.bridgeTimeout c)
  have hx : (s.forget (.bridgeTimeout c)).ctx c = s.ctx c := rfl
  unfold State.startAttempt
  dsimp only
  generalize s.forget (.bridgeTimeout c) = t at h' hx ⊢
  rw [← hx] at hst ⊢
  have i := h'.inside rfl (working_of (c := c) (by rw [hst]; simp) (by rw [hst]; simp))
  have hsw := unswitched i (by rw [hst]; simp) (by rw [hst]; simp)
  have hb := i.before hsw
  have hp := hb.2.2.2.2.1
  unfold Ctx.prepared at hp
  rw [hst] at hp
  split
  · exact h'.beginAttempt c 1
  · exact h'.beginAttempt c 1
  · refine h'.readyAfter i rfl rfl i.entries (by rw [hst]; simp) ?_
    simp only [Ctx.fits, readied, hsw, Ctx.prepared]
    exact ⟨hb.1, hb.2.1, hb.2.2.2.1, .inl ⟨by rw [hp.1]; simp, hp.2⟩⟩

theorem startIfDue {s : State} (h : Sound s) (c : Nat) : Sound (s.startIfDue c) :=
  ite (fun k => h.startAttempt c (by simp only [State.attemptDue, Bool.and_eq_true, beq_iff_eq] at k; exact k.1.1)) (fun _ => h)

theorem markerTimeoutIfDue {s : State} (h : Sound s) (c : Nat) : Sound (s.markerTimeoutIfDue c) :=
  ite (fun _ => h.abort c _ _) (fun _ => h)

end Sound
end Sys2Proof.Machine
end

