-- ==== Sys2Proof/Tests/Slice0.lean ====
section
/-! SUPPORT. Tests/Slice0.lean: the WellFormed smoke, known answers from the manual's worked examples and tables, and
for each statement of Obligations.lean a state and operands that meet its hypotheses. -/

section Tests

open Sys2Proof Sys2Proof.Machine

-- One kernel check at a time: each takes a large stack.
set_option Elab.async false

/-! ### Helpers -/

/-- A part just reset whose controllers have brought both links into service. -/
def Tests.opened : State :=
  { State.reset with
    linkA := { LinkRec.reset with rx := .hunt, rate := some 115200 }
    linkB := { LinkRec.reset with rx := .hunt, rate := some 115200 } }

/-- The next state of a command; the same state where there is none. -/
def Tests.ran (i : Instr) (s : State) : State :=
  match exec i s with
  | .next t => t
  | _ => s

/-- A whole part that has been given one command after another. -/
def Tests.runs (is : List Instr) (s : State) : State := is.foldl (fun t i => Tests.ran i t) s

/-- The status and the data of the response a link holds. -/
def Tests.reply (s : State) (l : Link) : Option (Status × List Byte) :=
  (s.link l).response.map (fun r => (r.status, r.data))

/-- An equipped circuit in group `g` on slot `k`, on a part whose spans are all INSERTED. -/
def Tests.part (n g : Nat) (k : Option Nat) (f : Circuit → Circuit) : State :=
  let c : Circuit := f { Circuit.reset with equipped := true, group := g, slot := k }
  let s : State := State.setCircuit { Tests.opened with
    spans := Table.fill 16 { Span.reset with state := .inserted, relay := true, sending := true, marking := true } } n c
  match k with
  | some k => { s with map := { s.map with entries := Table.put s.map.entries k (some n) } }
  | none => s

/-- A part whose peer is present. -/
def Tests.joined (s : State) : State :=
  { s with
    port := { s.port with los := false, position := some 0, wordAge := some 0 }
    peer := { s.peer with silent := false }
    linkA := { s.linkA with alive := true }
    linkB := { s.linkB with alive := true }
    faults := { s.faults with
      records := Table.put (Table.put s.faults.records 0 { FaultRecord.reset .fibreLos with live := false, declared := false })
        2 { FaultRecord.reset .peerSilent with live := false, declared := false } } }

/-! ### WellFormed -/

theorem test_wellFormed_refuses_table_numbers :
    ([.coldReset .pin 64 0 0, .coldReset .pin 0 8 0, .coldReset .pin 0 0 4, .superframeBoundary [.switch 8],
      .superframeBoundary [.abortReturn 8], .superframeBoundary [.drainComplete 16], .superframeBoundary [.windowExpiry 16],
      .superframeBoundary [.stepTimeout 8], .superframeBoundary [.bridgeTimeout 8], .superframeBoundary [.abortingEnd 8],
      .superframeBoundary [.lingerExpiry 512], .copperFrameReceive .line 16 0 false (List.replicate 30 0) [],
      .copperFrameReceive .line 0 0 false (List.replicate 29 0) [],
      .copperFrameReceive .line 0 0 false (List.replicate 30 0) [⟨0, 1, [0]⟩],
      .copperFrameReceive .line 0 0 false (List.replicate 30 0) [⟨31, 1, [0]⟩],
      .copperFrameReceive .line 0 0 false (List.replicate 30 0) [⟨1, 1, []⟩],
      .copperFrameReceive .line 0 0 false (List.replicate 30 0) [⟨1, 1, [16]⟩],
      .carriageFrameReceive 8 (List.replicate 539 0), .carriageFrameReceive 0 (List.replicate 537 0),
      .carriageFrameReceive 1 (List.replicate 538 0), .character .a (List.replicate 7 false),
      .syncCharacter .a 115200 (List.replicate 9 true) true,
      .measurementComplete 8, .markerLoss 16, .attemptStart 8, .contextCompletion 8, .ageOut 512, .drainComplete 16,
      .switch 8, .abortReturn 8, .abortingEnd 8, .lingerExpiry 512, .bridgeTimeout 8, .stepTimeout 8, .markerTimeout 8,
      .windowExpiry 16] : List Instr).all (fun i => !i.wellFormed) = true := by decide +kernel

theorem test_wellFormed_refuses_wide_parameters :
    ([.equip .a 65536 0 0, .equip .a 0 256 0, .equip .a 0 0 256, .unequip .a 65536, .setClass .a 65536 0, .setClass .a 0 256,
      .setGroup .a 65536 0, .setGroup .a 0 256, .hold .a 65536, .unhold .a 65536, .freeze .a 256, .thaw .a 256,
      .setMigration .b 256 0 0 0 0 0, .setMigration .b 0 0 0 0 0 256, .readCircuits .a 65536 0, .readCircuits .a 0 256,
      .readGroup .a 256, .setSignalling .a 256 0 0 0 0 0 0 0 0, .setSignalling .a 0 0 0 0 0 0 0 0 256, .insertSpan .a 256 0,
      .insertSpan .a 0 256, .bypassSpan .a 256 0, .bypassSpan .a 0 256, .cancelSpan .a 256, .readSpan .a 256,
      .setFibreThreshold .b 65536, .stageAssign .b 65536 0, .stageAssign .b 0 65536, .stageRelease .b 65536,
      .readMap .b 65536 0, .readMap .b 0 256, .setAlignment .b 256 0 0 0, .setAlignment .b 0 256 0 0,
      .setAlignment .b 0 0 65536 0, .setAlignment .b 0 0 0 65536, .request .b 65536 0, .request .b 0 256,
      .cancelRequest .b 65536, .abortContext .b 256, .setAdmission .b 256 0 0 0, .setAdmission .b 0 256 0 0,
      .setAdmission .b 0 0 65536 0, .setAdmission .b 0 0 0 65536, .readQueue .b 256 0, .readQueue .b 0 256,
      .readContext .b 256, .setPeerSilentTime .b 65536, .readPeer .b 256, .setFaultPolicy .b 256 0 0 0,
      .setFaultPolicy .b 0 0 0 256, .clearFault .b 256 0, .clearFault .b 0 256, .clearLockout .b 256, .commit .b 65536,
      .uncommit .b 65536, .readCounters .b 256, .takeNotices .b 256, .setNoticeLevels .b (List.replicate 17 0) 1,
      .setNoticeLevels .b (List.replicate 18 256) 1, .setNoticeLevels .b (List.replicate 18 0) 256]
      : List Instr).all (fun i => !i.wellFormed) = true := by decide +kernel

/-- Commands at the ends of their ranges are well formed, and so are parameters that the part itself refuses. -/
theorem test_wellFormed_takes_range_ends :
    ([.coldReset .pin 63 7 3, .superframeBoundary [.switch 7, .drainComplete 15, .lingerExpiry 511, .windowExpiry 15],
      .copperFrameReceive .switch 15 0 true (List.replicate 30 0) [⟨30, 14, [15]⟩],
      .carriageFrameReceive 7 (List.replicate 539 0), .carriageFrameReceive 0 (List.replicate 538 0),
      .character .b (lineBits 0xA7), .ageOut 511, .equip .a 65535 255 255,
      .setNoticeLevels .a (List.replicate 18 255) 255, .powerOff] : List Instr).all Instr.wellFormed = true := by
  decide +kernel

/-! ### Checks, digests and layouts (chapter 12) -/

/-- The usual check value of this CRC-16 (x¹⁶ + x¹² + x⁵ + 1 from all ones), over the nine digits. -/
theorem test_crc16_of_digits : crc16 [0x31, 0x32, 0x33, 0x34, 0x35, 0x36, 0x37, 0x38, 0x39] = 0x29B1 := by decide +kernel

/-- The usual check value of this CRC-8 (x⁸ + x² + x + 1 from 0), over the nine digits. -/
theorem test_crc8_of_digits : crc8 [0x31, 0x32, 0x33, 0x34, 0x35, 0x36, 0x37, 0x38, 0x39] = 0xF4 := by decide +kernel

theorem test_empty_map_digest : digestOf State.reset.map.entries = 0xD6DA := by decide +kernel

/-- Section 12.2: a BRIDGED word from site 2 for slot 300. -/
theorem test_exchange_word_bytes :
    (ExchangeWord.bytes { step := 3, site := 2, slot := 300, argument := 0 }).take 3 = [0x35, 0x2C, 0x00]
      ∧ ExchangeWord.read 0x35 0x2C 0x00 = { step := 3, site := 2, slot := 300, argument := 0 } := by decide +kernel

/-- Section 12.1: 538 bytes in all, the alignment word first. -/
theorem test_carriage_frame_length :
    State.reset.carriageFrame.bytes.length = 538 ∧ State.reset.carriageFrame.bytes.take 2 = [0x3A, 0xC5] := by
  decide +kernel

/-- The check of a frame as sent is good (R189). -/
theorem Tests.check_of_body (body : List Byte) (h : body.length = 536) :
    let bytes := withCrc16 body
    bytes.length = 538 ∧ (crc16 (bytes.take 536)).toNat
      = 256 * (bytes.getD 536 0).toNat + (bytes.getD 537 0).toNat := by
  have h1 : (withCrc16 body).take 536 = body := by simp [withCrc16, ← h]
  refine ⟨by simp [withCrc16, u16, h], ?_⟩
  rw [h1]
  have h2 : (withCrc16 body).getD 536 0 = BitVec.ofNat 8 ((crc16 body).toNat / 256) := by
    simp [withCrc16, u16, List.getD_eq_getElem?_getD, h]
  have h3 : (withCrc16 body).getD 537 0 = BitVec.ofNat 8 (crc16 body).toNat := by
    simp [withCrc16, u16, List.getD_eq_getElem?_getD, h]
  rw [h2, h3]
  have := (crc16 body).isLt
  simp only [BitVec.toNat_ofNat]
  omega

/-- Section 12.3: REQUEST(200, TO_FIBRE) to address 5 is code 0x98, L 3, then its parameters. -/
theorem test_request_frame :
    sentCommand (.request .b 200 0) = some (.b, .transport, 0x98, [0x00, 0xC8, 0x00])
      ∧ (commandBytes 5 0x98 [0x00, 0xC8, 0x00]).take 6 = [0x98, 0x05, 0x03, 0x00, 0xC8, 0x00] := by decide +kernel

/-! ### Circuits, groups, signalling (the examples of sections 1.6 and 2.7) -/

theorem test_equip : (fun t : State => t.circuit 61 = { Circuit.reset with equipped := true, group := 2 }
    ∧ Tests.reply t .a = some (.ok, [])) (Tests.ran (.equip .a 61 2 0) Tests.opened) := by decide +kernel

theorem test_equip_refuses_equipped :
    Tests.reply (Tests.ran (.equip .a 61 2 0) (Tests.part 61 5 none id)) .a = some (.refusedState, []) := by decide +kernel

/-- Event 3 of section 1.6: the ninth arrival of SEIZE; levels of all classes at 1, so that the notice is seen. -/
def Tests.heard (n g : Nat) (f b : Code) (c : Circuit → Circuit) : State :=
  let s := Tests.part n g none c;
  { s with
    channels := Table.put s.channels n { line := ⟨0, b, 9⟩, switch := ⟨0, f, 9⟩ }
    linkA := { s.linkA with levels := Table.fill 18 1 } }

theorem test_ninth_seize_is_accepted : (fun t : State =>
    (t.circuit 61).call = .outSeized ∧ (t.circuit 61).forward = ⟨1, none, 0⟩
    ∧ (t.group 2).seizureCount = 1 ∧ (t.group 2).busyCount = 1
    ∧ t.linkA.notices.map Notice.cls = [.seize] ∧ t.linkB.notices = [])
    (State.superviseCircuit (Tests.heard 61 2 1 9 (fun c => { c with forward := ⟨9, some 1, 8⟩ })) 61) := by
  decide +kernel

theorem test_eighth_seize_is_not_accepted : (fun t : State =>
    (t.circuit 61).call = .idle ∧ (t.circuit 61).forward = ⟨9, some 1, 8⟩)
    (State.superviseCircuit (Tests.heard 61 2 1 9 (fun c => { c with forward := ⟨9, some 1, 7⟩ })) 61) := by
  decide +kernel

/-- Section 2.7, b56: the 17th arrival of code 7, and b57: no second notice. -/
theorem test_unrecognised_at_b56 : (fun t : State =>
    (t.circuit 95).backward = ⟨5, some 7, 17⟩ ∧ t.linkA.notices.map Notice.value = [some 23])
    (State.superviseCircuit (Tests.heard 95 3 1 7 (fun c => { c with
      forward := ⟨1, none, 0⟩, backward := ⟨5, some 7, 16⟩, call := .outAnswered })) 95) := by decide +kernel

theorem test_no_second_unrecognised : (State.superviseCircuit (Tests.heard 95 3 1 7 (fun c => { c with
    forward := ⟨1, none, 0⟩, backward := ⟨5, some 7, 17⟩, call := .outAnswered })) 95).linkA.notices = [] := by
  decide +kernel

/-- Section 2.7, b91: CLEAR carries CLEARING (position 5). -/
theorem test_clear_at_b91 : (fun t : State => (t.circuit 95).call = .idle
    ∧ t.linkA.notices.map (fun x => (x.cls, x.value)) = [(.clear, some 5)])
    (State.superviseCircuit (Tests.heard 95 3 9 9 (fun c => { c with backward := ⟨5, some 9, 16⟩, call := .clearing })) 95)
    := by decide +kernel

/-- Section 1.6, events 4, 5 and 7. -/
theorem test_setGroup_refused_in_call :
    Tests.reply (Tests.ran (.setGroup .a 61 5) (Tests.part 61 2 none (fun c => { c with call := .outSeized }))) .a
      = some (.refusedState, []) := by decide +kernel

theorem test_setMigration_clamps : (fun t : State => Tests.reply t .b = some (.clamped, [1, 0, 20, 15, 240])
    ∧ (t.group 5).policy = .drain ∧ (t.group 5).lockoutLimit = 15 ∧ (t.group 4).lockoutLimit = 3)
    (Tests.ran (.setMigration .b 5 1 0 20 20 240) Tests.opened) := by decide +kernel

theorem test_freeze_all : (fun t : State => (t.group 0).frozen = true ∧ (t.group 15).frozen = true)
    (Tests.ran (.freeze .a 0xFF) Tests.opened) := by decide +kernel

/-- Section 1.6, event 8: the call is still up. -/
theorem test_unequip_in_call : (fun t : State => (t.circuit 61).equipped = false ∧ (t.circuit 61).call = .idle
    ∧ (t.circuit 61).forward.accepted = 9 ∧ (t.group 2).busyCount = 0 ∧ (t.group 2).seizureCount = 1)
    (Tests.ran (.unequip .a 61) (State.setGroup (Tests.part 61 2 none (fun c => { c with
      call := .outSeized, forward := ⟨1, none, 0⟩ })) 2 { Group.reset with busyCount := 1, seizureCount := 1 })) := by
  decide +kernel

theorem test_setSignalling_values :
    (readSignalling 1 2 3 4 5 6 7 8).map SignallingSettings.bytes = some [1, 2, 3, 4, 5, 6, 7, 8]
    ∧ (readSignalling 1 2 3 1 5 6 7 8).isNone = true
    ∧ (readSignalling 1 2 3 4 5 6 7 8).map (fun m => ((Circuit.reset.resignal m).backward.accepted,
        (Circuit.resignal { Circuit.reset with conditioned := true } m).backward.accepted)) = some (1, 7) := by
  decide +kernel

/-- Section 2.7, the end: COPPER_LOS with CONDITION blocks the circuit. -/
theorem test_copper_loss_conditions : (fun t : State => (t.circuit 95).conditioned = true
    ∧ (t.circuit 95).backward = ⟨13, none, 0⟩ ∧ (t.circuit 95).call = .blocked)
    (State.declare (Tests.part 95 3 none id) .copperLos 3) := by decide +kernel

/-- R15, then R33: a conditioned circuit that SET_GROUP left at the IDLE code has the conditioning code from the boundary on,
whatever its line sends. -/
theorem test_conditioning_code_returns_at_a_boundary : (fun t : State =>
    (t.circuit 95).backward = ⟨13, none, 0⟩ ∧ (t.circuit 95).forward = ⟨9, none, 0⟩ ∧ (t.circuit 95).call = .blocked)
    (State.superviseCircuit (Tests.heard 95 3 9 9 (fun c => { c with
      conditioned := true, forward := ⟨9, none, 0⟩, backward := ⟨9, none, 0⟩ })) 95) := by decide +kernel

/-! ### Spans (the example of section 3.8) -/

theorem test_insert_span_drain : (fun t : State => (t.span 4).state = .drainIn ∧ (t.span 4).relay = false
    ∧ Tests.reply t .a = some (.ok, [1]) ∧ t.linkB.notices.map Notice.cls = [.spanState])
    (Tests.ran (.insertSpan .a 4 0) Tests.opened) := by decide +kernel

theorem test_drain_completes : (fun t : State => (t.span 4).state = .inserted ∧ (t.span 4).relay = true)
    (Tests.ran (.drainComplete 4) { State.reset with
      owed := [.drainComplete 4], spans := Table.put State.reset.spans 4 { Span.reset with state := .drainIn } }) := by
  decide +kernel

/-- A frame with the framing pattern and the spare bit, no code completing. -/
def Tests.copper (side : Side) (x : Nat) (pattern : BitVec 7) (spare : Bool) : Instr :=
  .copperFrameReceive side x pattern spare (List.replicate 30 0x55) []

/-- Frame 3003: the fourth wrong pattern in a row. -/
theorem test_copper_loss_at_fourth : (fun t : State => (t.span 4).line.los = true ∧ (t.span 4).line.run = 0
    ∧ (t.span 4).history = [] ∧ (t.span 4).tc = some 2597 ∧ (t.fault .copperLos 4).live = true)
    (Tests.ran (Tests.copper .line 4 0 false) (State.setSpan State.reset 4 { Span.reset with
      line := ⟨false, 3, []⟩, tc := some 2597 })) := by decide +kernel

/-- R53: a span cut in a frame sends from the next one; a span bypassed in a frame still sends in it, and not in the next. -/
theorem test_sending_follows_the_cut :
    (fun x : Span => x.sending = false ∧ x.tickFrame.sending = true)
      { Span.reset with state := .inserted, relay := true }
    ∧ (fun x : Span => x.tickFrame.sending = false) { Span.reset with sending := true }
    ∧ (fun s : State => (s.copperFrame 4 false s.toLine).isSome = true) (State.setSpan State.reset 4 { Span.reset with
      sending := true })
    ∧ (State.copperFrame (State.setSpan State.reset 4 { Span.reset with state := .inserted, relay := true }) 4 false
      (fun _ => (0, 0))).isSome = false := by decide +kernel

/-- R46: a span bypassed and cut again in one frame still sends it, without a marker; a span that stayed cut marks it. -/
theorem test_markers_start_after_the_cut :
    (fun s : State => (s.span 4).sending = true ∧ s.frameCount = 0 ∧ s.markerFrame 4 = true
      ∧ (fun t : State => (t.span 4).state = .inserted ∧ (t.span 4).sending = true ∧ t.markerFrame 4 = false)
        ((s.moveSpan 4 .bypass).moveSpan 4 .inserted))
    (Tests.part 95 3 none id) := by decide +kernel

/-- Frame 37: a marker after the loss; MARKER_LOSS clears. -/
theorem test_marker_at_37 : (fun t : State => (t.span 4).tc = some 37 ∧ (t.span 4).lossCount = 0
    ∧ (t.span 4).markerLoss = false ∧ (t.span 4).history = List.replicate 6 false ++ [true])
    (Tests.ran (Tests.copper .line 4 0b1010110 true) (State.setSpan { State.reset with frameCount := 37 } 4 { Span.reset with
      state := .inserted, relay := true, history := List.replicate 7 false, tc := some 2597, lossCount := 1024
      markerLoss := true })) := by decide +kernel

/-- Frame 3621: the second missed marker. -/
theorem test_second_missed_marker : (fun s : State =>
    ((Tests.ran (.markerLoss 4) s).span 4).markerLoss = false
    ∧ (fun t : State => (t.span 4).lossCount = 1024 ∧ (t.span 4).tested = true ∧ ((Tests.ran (Tests.copper .line 4 0 false) t).span
        4).lossCount = 1024 ∧ ((Tests.ran (.markerLoss 4) t).span 4).markerLoss = true)
      (Tests.ran (Tests.copper .line 4 0 false) s)
    ∧ (fun t : State => (t.span 4).lossCount = 0 ∧ (t.span 4).tested = true) (Tests.ran (Tests.copper .line 4 0b1010110 true) s))
    (State.setSpan (Tests.joined Tests.opened) 4 { Span.reset with
      state := .inserted, relay := true, history := List.replicate 7 false, lossCount := 1023 }) := by decide +kernel

theorem test_marker_loss_at_1024 : (fun t : State => (t.span 4).markerLoss = true ∧ (t.fault .markerLoss 4).live = true)
    (Tests.ran (.markerLoss 4) (State.setSpan State.reset 4 { Span.reset with
      state := .inserted, relay := true, lossCount := 1024 })) := by decide +kernel

/-! ### The Fibre Port (the examples of sections 4.9 and 4.10) -/

/-- A carriage frame's bytes with a wrong alignment word. -/
def Tests.wrongFrame : List Byte := List.replicate 538 0

/-- R190, R61: a local frame whose bits hold the alignment word from bit 4 on. -/
def Tests.shifted : List Byte := [0x03, 0xAC, 0x50] ++ List.replicate 535 0

theorem test_hunt_finds_a_word_between_bytes : (fun t : State => t.port.trial = some 4 ∧ t.port.run = 1 ∧ t.port.los = true)
    (Tests.ran (.carriageFrameReceive 0 Tests.wrongFrame) { State.reset with
      port := { FibrePort.reset with stream := Tests.shifted } }) := by decide +kernel

theorem test_third_wrong_word_is_errored : (fun t : State => t.port.los = false ∧ t.port.run = 3
    ∧ t.port.windowCount = 5 ∧ t.port.erroredFrames = 5)
    (Tests.ran (.carriageFrameReceive 0 Tests.wrongFrame) (let s := Tests.joined State.reset;
      { s with port := { s.port with run := 2, windowCount := 4, erroredFrames := 4 } })) := by decide +kernel

/-- Section 4.10: windows with 95, 3 (with a loss) and 79 errored frames under threshold 80. -/
def Tests.window (count : Nat) (mark err : Bool) : State :=
  Tests.ran .windowEnd { State.reset with
    owed := [.windowEnd], port := { FibrePort.reset with windowPosition := 500, windowCount := count, lossMark := mark, err := err } }

theorem test_three_windows : (Tests.window 95 false false).port.err = true ∧ (Tests.window 3 true true).port.err = true
    ∧ (Tests.window 79 false true).port.err = false ∧ (Tests.window 79 false true).port.windowCount = 0 := by
  decide +kernel

/-! ### The Carriage Map (the example of section 5.6) -/

theorem test_stage_answers : (fun t : State => Tests.reply t .b = some (.ok, [2, 3])
    ∧ t.map.staging = [.assign 12 47, .assign 13 48, .release 40])
    (Tests.ran (.stageRelease .b 40) { Tests.opened with
      map := { State.reset.map with staging := [.assign 12 47, .assign 13 48] } }) := by decide +kernel

/-- Event 6: position 2, CIRCUIT_IN_USE (0x43), RELEASE 40; the map is as before. -/
def Tests.applying (st : MigState) : State :=
  let s := Tests.part 33 0 (some 40) (fun c => { c with state := st });
  { s with
    owed := [.mapApply]
    map := { s.map with
      applyPending := true, applyAnswer := true
      staging := [.assign 12 47, .assign 13 48, .release 40, .assign 40 95, .assign 41 33] } }

theorem test_apply_fails_whole : (fun t : State => Tests.reply t .b = some (.refusedState, [2, 0x43, 1, 0, 40])
    ∧ t.boundTo 12 = none ∧ t.map.staging.length = 5 ∧ t.map.applyPending = false)
    (Tests.ran .mapApply (Tests.applying .fibreProtected)) := by decide +kernel

/-- Event 8. -/
theorem test_apply_moves_slots : (State.judge (Tests.applying .copper) 0 (Tests.applying .copper).map.staging).elim
    (fun w => [w.boundTo 12, w.boundTo 13, w.boundTo 40, w.boundTo 41, (w.circuit 33).slot, (w.circuit 95).slot])
    (fun _ => []) = [some 47, some 48, some 95, some 33, some 41, some 40] := by decide +kernel

theorem test_third_different_digest : (fun t : State => t.map.mismatch = true ∧ t.map.run = 0
    ∧ (t.fault .mapMismatch 0).live = true)
    (State.takeDigest { State.reset with map := { State.reset.map with run := 2 } } 0x1234) := by decide +kernel

/-! ### Measurement, alignment, contexts (sections 6.9, 6.10 and 7.8) -/

theorem test_differential_delay : differentialDelay 2737 2700 = 37 ∧ differentialDelay 2694 2700 = -6
    ∧ differentialDelay 300 0 = -212 ∧ meanOf 297 8 = 37 ∧ meanOf (-23) 4 = -6 := by decide +kernel

/-- Circuit 47 on slot 12 in context 2, group 1, with pool 3976. -/
def Tests.moving (x : Ctx) (f : Circuit → Circuit) : State :=
  let s := Tests.part 47 1 (some 12) (fun c => f { c with
    state := .migrating, context := some 2, transmit := .both, call := .outAnswered })
  State.setCtx { s with
    pool := { free := 3976, waitList := [], waitCount := 0 }
    stamp := 8262
    peer := { s.peer with adverts := [⟨.context 2, 12, .bridged, 0⟩] } } 2 { x with
      circuit := 47, slot := 12, served := some ⟨47, .toFibre, .linkB, false, 8000⟩ }

theorem test_measurement_completes : (fun t : State => (t.ctx 2).lead = some 37 ∧ (t.ctx 2).state = .allocate
    ∧ t.pool.waitList = [2])
    (Tests.ran (.measurementComplete 2) (Tests.moving { Ctx.reset with
      state := .measure, attemptN := 8, attemptLimit := 3, n := 8, sum := 297, min := some 36, max := some 38
      running := true, begun := true } id)) := by decide +kernel

theorem test_service_presets : (fun t : State => (t.ctx 2).state = .ready ∧ (t.ctx 2).cells = 39 ∧ t.pool.free = 3937
    ∧ (t.circuit 47).delay .fibre = 37 ∧ (t.circuit 47).delay .copper = 0 ∧ t.peer.adverts.map Advert.step = [.ready])
    (Tests.ran .poolService (let s := Tests.moving { Ctx.reset with state := .allocate, lead := some 37 } id;
      { s with pool := { s.pool with waitList := [2] } })) := by decide +kernel

theorem test_switch_at_8263 : (fun t : State => (t.ctx 2).state = .switched ∧ (t.ctx 2).cells = 0
    ∧ (t.circuit 47).receive = .fibre ∧ (t.circuit 47).residual = 37 ∧ (t.circuit 47).residualPath = .fibre
    ∧ (t.circuit 47).cellsHeld = 39)
    (Tests.ran (.switch 2) (let s := Tests.moving { Ctx.reset with
        state := .ready, lead := some 37, cells := 39, switchDue := true } (fun c => { c with fibreLine := List.replicate 37 none });
      { s with owed := [.switch 2] })) := by decide +kernel

/-- Section 6.9, row 5: the slip that takes the residual from 1 to 0. -/
theorem test_last_slip : (fun t : State => (t.circuit 47).residual = 0 ∧ (t.circuit 47).cellsHeld = 0 ∧ t.pool.free = 4099
    ∧ t.linkB.notices.map (fun x => (x.cls, x.value)) = [(.walkDone, some 3)])
    (Tests.ran .walkSlot (let s := Tests.part 47 1 none (fun c => { c with
        residual := 1, residualPath := .fibre, cellsHeld := 3, fibreLine := [some 1] });
      { s with owed := [.walkSlot], align := { s.align with walkCounter := 7 } })) := by decide +kernel

/-- Section 6.10, row 4: the sixth insert. -/
theorem test_sixth_insert : (fun t : State => (t.ctx 2).state = .ready ∧ (t.circuit 47).delay .copper = 6)
    (Tests.ran .walkSlot (let s := Tests.moving { Ctx.reset with state := .walkUp, lead := some (-6), cells := 8 } (fun c => { c with
        copperLine := List.replicate 5 none });
      { s with owed := [.walkSlot], align := { s.align with walkCounter := 7 } })) := by decide +kernel

/-- Section 6.10: an abort just after the fourth insert; 3968 cells are free. -/
theorem test_abort_after_fourth_insert : (fun t : State => (t.circuit 47).residual = 4 ∧ (t.circuit 47).cellsHeld = 6
    ∧ (t.circuit 47).residualPath = .copper ∧ t.pool.free = 3970 ∧ (t.circuit 47).lastAbort = some .cancelled
    ∧ Tests.reply t .b = some (.ok, [0, 47, 4]))
    (Tests.ran (.abortContext .b 2) (let s := Tests.moving { Ctx.reset with state := .walkUp, lead := some (-6), cells := 8 } (fun c => { c with
        copperLine := List.replicate 4 none });
      { s with pool := { s.pool with free := 3968 } })) := by decide +kernel

/-- Section 7.8, stamp 8000. -/
def Tests.queued95 (s : State) : State := { s with queue := [⟨95, .toFibre, .linkB, false, 7990⟩] }

theorem test_request : (fun t : State => Tests.reply t .b = some (.ok, [1, 2]) ∧ t.queue.map Entry.circuit = [95, 47])
    (Tests.ran (.request .b 47 0) (Tests.queued95 (Tests.part 47 1 (some 12) id))) := by decide +kernel

/-- Stamp 8001: 95 is held, 47 is admitted; here contexts 0 and 1 are busy. -/
theorem test_admission_passes_over : (fun t : State => t.queue.map Entry.circuit = [95] ∧ (t.ctx 2).state = .request
    ∧ (t.circuit 47).state = .migrating ∧ (t.circuit 47).transmit = .both ∧ (t.circuit 47).receive = .copper
    ∧ t.peer.adverts.map (fun a => (a.slot, a.step)) = [(12, .reqFibre)])
    (Tests.ran .admission (let s := Tests.joined (Tests.part 47 1 (some 12) (fun c => { c with call := .outAnswered }))
      let s := State.setCircuit { s with
        queue := [⟨95, .toFibre, .linkB, false, 7990⟩, ⟨47, .toFibre, .linkB, false, 8000⟩], owed := [.admission] } 95
        { Circuit.reset with equipped := true, held := true, slot := some 13 }
      (s.setCtx 0 { Ctx.reset with state := .aborting }).setCtx 1 { Ctx.reset with state := .aborting })) := by
  decide +kernel

/-- Stamp 8001 again, the admission before the supervision: the step timer is 0 at this boundary, where a running one has risen. -/
theorem test_step_timer_is_0_at_its_boundary : (fun t : State => t.stamp = 8001 ∧ (t.ctx 1).stepTimer = 5
    ∧ (t.ctx 0).state = .request ∧ (t.ctx 0).stepRunning = true ∧ (t.ctx 0).stepTimer = 0)
    (State.perform (State.tickWork (State.openBoundary
      (let s := Tests.joined (Tests.part 47 1 (some 12) (fun c => { c with call := .outAnswered }))
      State.setCtx { s with stamp := 8000, boundaryDue := true, queue := [⟨47, .toFibre, .linkB, false, 8000⟩] } 1
        { Ctx.reset with state := .request, slot := 13, stepRunning := true, stepTimer := 4 }))) .admission) := by
  decide +kernel

/-- R180 in the order of its list, with the widths of R190: the free count, the contexts of the wait list, the head's count. -/
theorem test_status_pool_fields : State.statusPool { State.reset with
    pool := { free := 3937, waitList := [5, 3], waitCount := 258 } } = [15, 97, 5, 3, 1, 2] := by decide +kernel

/-- Stamp 8265. -/
theorem test_completion : (fun t : State => (t.ctx 2).state = .free ∧ (t.circuit 47).state = .fibreProtected
    ∧ (t.circuit 47).context = none ∧ t.linkB.notices.map (fun x => (x.cls, x.value)) = [(.completed, some 37)]
    ∧ t.peer.adverts.map (fun a => a.isLinger) = [true])
    (Tests.ran (.contextCompletion 2) (Tests.moving { Ctx.reset with
      state := .switched, switched := true, lead := some 37, lastStep := some (.switched, 0) } id)) := by decide +kernel

/-- Section 7.8, a deferral at 8263: placed behind circuit 95, value 1. -/
theorem test_deferral : (fun t : State => t.queue.map (fun e => (e.circuit, e.idleOnly)) = [(95, false), (47, true)]
    ∧ (t.circuit 47).state = .copper ∧ t.linkB.notices.map (fun x => (x.cls, x.value)) = [(.deferred, some 1)]
    ∧ t.peer.adverts.map (fun a => (a.step, a.argument)) = [(.abort, 0x0E)])
    (Tests.ran (.switch 2) (let s := Tests.queued95 (Tests.moving { Ctx.reset with
        state := .ready, lead := some (-6), idleOnly := true, switchDue := true } id);
      { s with stamp := 8263, owed := [.switch 2] })) := by decide +kernel

/-- Section 7.8, a fault after the switch: the return at the boundary. -/
theorem test_abort_return : (fun t : State => (t.circuit 47).state = .copper ∧ (t.circuit 47).receive = .copper
    ∧ (t.circuit 47).transmit = .copper ∧ (t.circuit 47).residual = 0 ∧ t.pool.free = 3976
    ∧ (t.circuit 47).lastAbort = some .fibreFault)
    (Tests.ran (.abortReturn 2) (let s := Tests.moving { Ctx.reset with
        state := .aborting, switched := true, returnPending := true, abortCause := some .fibreFault } (fun c => { c with
        receive := .fibre, residual := 37, residualPath := .fibre, cellsHeld := 39 });
      { s with owed := [.abortReturn 2], pool := { s.pool with free := 3937 } })) := by decide +kernel

/-! ### Peer exchange (the examples of sections 8.10 and 8.11) -/

/-- Part X of section 8.10 at t = 23: the second REQ_FIBRE word of site 5 for slot 300. -/
def Tests.glare (d : Direction) : State :=
  let s := Tests.joined (Tests.part 200 0 (some 300) (fun c => { c with state := .migrating, context := some 0 }))
  State.setCtx { s with
    ownSite := 2
    peer := { s.peer with
      adverts := [⟨.context 0, 300, d.requestStep, 0⟩], view := [⟨300, .reqFibre, 0, 5, 1, 0⟩] } } 0
    { Ctx.reset with state := .request, circuit := 200, slot := 300, direction := d, stepRunning := true }

theorem test_glare_lower_site_responds : (fun t : State => (t.ctx 0).role = .responder ∧ (t.ctx 0).state = .measure
    ∧ t.peer.adverts.map Advert.step = [.bridged] ∧ t.peer.view.map ViewEntry.seen = [2])
    (State.validWord (Tests.glare .toFibre) { step := 1, site := 5, slot := 300, argument := 0 }) := by decide +kernel

theorem test_glare_opposite_aborts : (fun t : State => (t.ctx 0).state = .aborting ∧ (t.ctx 0).abortCause = some .glare
    ∧ t.peer.adverts.map Advert.step = [.abort])
    (State.validWord (Tests.glare .toCopper) { step := 1, site := 5, slot := 300, argument := 0 }) := by decide +kernel

/-- Section 8.11. -/
theorem test_held_circuit_is_rejected : (fun t : State =>
    t.peer.adverts = [⟨.linger 32 0, 41, .reject, 0x22⟩] ∧ (t.circuit 33).state = .fibreProtected)
    (State.validWord (let s := Tests.joined (Tests.part 33 0 (some 41) (fun c => { c with
        state := .fibreProtected, held := true }));
      { s with ownSite := 2, peer := { s.peer with view := [⟨41, .reqCopper, 0, 5, 1, 0⟩] } })
      { step := 2, site := 5, slot := 41, argument := 0 }) := by decide +kernel

theorem test_linger_expires : (Tests.ran (.lingerExpiry 41) { State.reset with
    owed := [.lingerExpiry 41]
    peer := { State.reset.peer with adverts := [⟨.linger 0 0, 41, .reject, 0x22⟩] } }).peer.adverts = [] := by decide +kernel

/-! ### Faults and reversion (the example of section 9.8) -/

/-- Circuits 250, 251 and 280 of group 7, FIBRE_PROTECTED; 280's copper is down. -/
def Tests.protectedPart : State :=
  let c : Circuit := { Circuit.reset with
    equipped := true, group := 7, state := .fibreProtected, receive := .fibre, transmit := .both }
  let s := Tests.part 250 7 none (fun _ => { c with
    residual := 10, residualPath := .fibre, cellsHeld := 12, fibreLine := List.replicate 10 none })
  let s := ((s.setCircuit 251 c).setCircuit 280 c).setFault .copperLos 9 { FaultRecord.reset .copperLos with
    live := true, latched := true, declared := true };
  { s with
    owed := [.revert]
    groups := Table.put s.groups 7 { Group.reset with lockoutLimit := 2, autoReturn := true }
    pool := { s.pool with free := 4084 }
    faults := { s.faults with revertPending := some .fibreLos } }

/-- Event 2: circuit 250 returns with its 12 cells, and 280 stays on the fibre. -/
theorem test_revert : (fun t : State => (t.circuit 250).state = .reverted ∧ (t.circuit 250).receive = .copper
    ∧ (t.circuit 250).residual = 0 ∧ t.pool.free = 4096
    ∧ t.linkB.notices.map (fun x => (x.cls, x.value)) = [(.reverted, some 12)])
    (State.revertCircuit Tests.protectedPart .fibreLos 250)
    ∧ [250, 251, 280].map (State.reverts Tests.protectedPart) = [true, true, false] := by decide +kernel

/-- Events 2 and 4: the first counting starts the window, the second meets the limit. -/
theorem test_lockout : (fun t : State => (t.group 7).revertCount = 1 ∧ (t.group 7).windowTimer = some 240
    ∧ (t.group 7).lockedOut = false) (State.countRevert Tests.protectedPart 7)
    ∧ (fun t : State => (t.group 7).revertCount = 2 ∧ (t.group 7).windowTimer = some 239 ∧ (t.group 7).lockedOut = true
      ∧ (t.circuit 250).state = .locked ∧ t.linkB.notices.map Notice.value = [some 2])
      (State.countRevert ((State.modCircuit Tests.protectedPart 250 (fun c => { c with state := .reverted })).modGroup 7
        (fun g => { g with revertCount := 1, windowTimer := some 239 })) 7) := by decide +kernel

/-- Event 7. -/
theorem test_clear_lockout : (fun t : State => (t.circuit 250).state = .reverted ∧ (t.group 7).lockedOut = false
    ∧ (t.group 7).revertCount = 0 ∧ (t.group 7).windowTimer = none)
    (State.clearLockout ((State.modCircuit Tests.protectedPart 250 (fun c => { c with state := .locked })).modGroup 7
      (fun g => { g with revertCount := 2, windowTimer := some 200, lockedOut := true })) 7) := by decide +kernel

/-- Event 9, and the answer between events 1 and 5: FIBRE_LOS is live after a cold reset, and latched no. -/
theorem test_clear_fault : Tests.reply (Tests.ran (.clearFault .b 0 0x40) Tests.opened) .b = some (.stillPresent, [0])
    ∧ Tests.reply (Tests.ran (.clearFault .b 0 0x40) (State.setFault Tests.opened .fibreLos 0
        { FaultRecord.reset .fibreLos with live := false, latched := true })) .b = some (.ok, [1]) := by decide +kernel

theorem test_commit_then_uncommit : (fun t : State => (t.circuit 251).state = .fibreProtected
    ∧ (t.circuit 251).transmit = .both)
    (Tests.runs [.commit .b 251, .responseSent .b, .uncommit .b 251] (Tests.joined Tests.protectedPart)) := by decide +kernel

/-! ### Control links and notices (the examples of sections 10.8 and 11.7) -/

theorem test_link_comes_into_service : (fun t : State => t.linkB.rx = .hunt ∧ t.linkB.rate = some 115200)
    (Tests.runs [.lineReset .b, .syncCharacter .b 115200 (lineBits 0xC3) true] State.reset) := by decide +kernel

/-- A part at address 5 whose link B holds a whole frame. -/
def Tests.framed (bytes : List Byte) : State :=
  { State.reset with ownAddress := 5, linkB := { LinkRec.reset with rx := .inFrame, rate := some 115200, buffer := bytes } }

/-- Event 4: KEEPALIVE to 63. -/
theorem test_broadcast_keepalive : (fun t : State => t.linkB.alive = true ∧ t.linkB.watchdog = some 0
    ∧ t.linkB.rx = .hunt ∧ t.linkB.response = none ∧ t.linkA.notices.map Notice.value = [some 1])
    (Tests.ran (.commandFrame .b) (Tests.framed (commandBytes 63 0xA7 []))) := by decide +kernel

/-- Event 5: one CRC byte corrupted. -/
theorem test_bad_check : (fun t : State => t.linkB.crcErrors = 1 ∧ t.linkB.response = none ∧ t.linkB.alive = false)
    (Tests.ran (.commandFrame .b) (Tests.framed ((commandBytes 5 0xA8 []).dropLast ++ [0]))) := by decide +kernel

/-- Event 7: EQUIP on link B. -/
theorem test_wrong_role : (fun t : State => t.linkB.rx = .answering ∧ Tests.reply t .b = some (.notPermitted, [])
    ∧ t.linkB.alive = true)
    (Tests.ran (.commandFrame .b) (Tests.framed (commandBytes 5 0x80 [0, 61, 2, 0]))) := by decide +kernel

/-- Event 8: the count has reached 1000 under strap 1. -/
theorem test_link_silent : (fun t : State => t.linkB.alive = false
    ∧ t.linkB.notices.map (fun x => (x.cls, x.value)) = [(.linkSilent, some 1)])
    (Tests.ran (.linkSilent .b) { State.reset with
      watchdogStrap := 1, owed := [.linkSilent .b], linkB := { LinkRec.reset with alive := true, watchdog := some 1000 } }) := by
  decide +kernel

/-- R176: the count reached its timeout at the boundary, and a good frame comes after it: SILENT, then ALIVE. -/
theorem test_silence_before_a_late_frame : (fun t : State => t.linkB.alive = true ∧ t.linkB.watchdog = some 0
    ∧ t.linkA.notices.map Notice.cls = [.linkSilent, .linkAlive])
    (Tests.ran (.commandFrame .b) (let s := Tests.framed (commandBytes 5 0xA7 []);
      { s with watchdogStrap := 1, owed := [.linkSilent .b], linkB := { s.linkB with alive := true, watchdog := some 1000 } }))
    := by decide +kernel

/-- R169, R178: a link without a rate, and a part with address strap 63, carry nothing out. -/
theorem test_deaf_links : (Tests.ran (.equip .a 61 2 0) State.reset).linkA.response = none
    ∧ (fun t : State => t.linkA.response = none ∧ (t.circuit 61).equipped = false)
      (Tests.ran (.equip .a 61 2 0) { Tests.opened with ownAddress := 63 }) := by decide +kernel

/-- Section 11.7: link B with 30 notices from sequence 87, at event 1, with context 4 busy. -/
def Tests.noticed : State :=
  let note (i : Nat) : Notice := ⟨87 + i, .completed, 2, 0, none, none, none⟩
  let s := Tests.joined (Tests.part 250 0 (some 9) (fun c => { c with state := .migrating, context := some 4 }))
  State.setCtx { s with
    linkB := { s.linkB with notices := (List.range 30).map note, nextSequence := 117 } } 4
    { Ctx.reset with state := .measure, circuit := 250, slot := 9 }

theorem test_fibre_loss_on_link_b : (fun t : State => t.linkB.notices.length = 32 ∧ t.linkB.nextSequence = 119
    ∧ t.linkB.overflow = false ∧ t.linkB.attention = true
    ∧ (t.linkB.notices.drop 30).map (fun x => (x.cls, x.level, x.sequence)) = [(.faultSet, 3, 117), (.aborted, 2, 118)]
    ∧ (t.ctx 4).abortCause = some .fibreFault)
    (State.faultAbort (State.raise Tests.noticed (faultEvent .faultSet .fibreLos 0)) .fibreLos 0) := by decide +kernel

/-- Event 3, and the clamped take of event 5. -/
theorem test_take_notices : (fun t : State => (Tests.reply t .b).map (fun r => (r.1, r.2.take 4)) = some (.ok, [1, 8, 22, 87])
    ∧ t.linkB.overflow = false ∧ t.linkB.notices.length = 22)
    (Tests.ran (.takeNotices .b 8) { Tests.noticed with linkB := { Tests.noticed.linkB with overflow := true } })
    ∧ (Tests.reply (Tests.ran (.takeNotices .b 12) Tests.noticed) .b).map Prod.fst = some .clamped := by decide +kernel

/-! ### The machine -/

theorem test_cold_reset : (fun t : State => t.ownAddress = 5 ∧ t.resetCause = .pin ∧ t.map.ownDigest = 0xD6DA
    ∧ (t.circuit 61).equipped = false)
    (Tests.ran (.coldReset .pin 5 2 1) (Tests.part 61 2 none id)) := by decide +kernel

theorem test_power_off_releases : (fun t : State => (t.span 4).relay = false ∧ (t.span 4).state = .bypass)
    (Tests.ran .powerOff (Tests.part 61 2 none id)) := by decide +kernel

/-- R1: a boundary whose stamp becomes 128 owes a slow tick, and the one after it does not. -/
theorem test_slow_ticks_at_128 : (State.lateEvents { State.reset with stamp := 128 } []).contains .slowTick = true
    ∧ (State.lateEvents { State.reset with stamp := 129 } []).contains .slowTick = false := by decide +kernel

/-- R60: the first frame carries free slots and the digest word of the empty map. -/
theorem test_first_frame : State.reset.rotationWord = { step := 8, site := 0, slot := 0xD6, argument := 0xDA }
    ∧ State.reset.slotContent 511 = (0, 15) ∧ State.reset.carriageFrame.sequence = 0 := by decide +kernel

/-! ### The hypotheses of the statements: each theorem names its statement, and shows states and operands that meet its
hypotheses, for each of its clauses -/

/-- A link that is open and holds no command hears whatever comes to it. -/
theorem Tests.hears_open {s : State} {l : Link} (hp : s.powered = true) (hq : s.quiet = true)
    (h : (s.link l).handed = none) (hr : (s.link l).rx.listens = true) (ha : s.ownAddress ≠ 63)
    (hc : s.closed l = false) (i : Instr) : s.hears l i := by
  refine ⟨hp, hq, ?_⟩
  simp [State.takes, h, hr, hc, ha]

theorem Tests.opened_hears (l : Link) (i : Instr) : Tests.opened.hears l i := by
  cases l
  · exact Tests.hears_open rfl (by decide +kernel) rfl rfl (by decide) rfl i
  · exact Tests.hears_open rfl (by decide +kernel) rfl rfl (by decide) rfl i

theorem Tests.reset_rests : State.reset.rests := ⟨rfl, by decide +kernel⟩

/-- A state in which the events of a list are owed. -/
def Tests.owing (es : List BoundaryEvent) (s : State) : State := { s with owed := es }

theorem test_meets_StepRunsFrontCommand :
    State.pending { State.reset with pending := [.frame, .slowTick] } = .frame :: [.slowTick] := rfl

theorem test_meets_IdleAndUnpoweredPartsStay : State.reset.pending = []
    ∧ State.powered { State.reset with powered := false } = false
    ∧ (∀ c a b w, Instr.frame ≠ .coldReset c a b w) ∧ Instr.frame ≠ .powerOff :=
  ⟨rfl, rfl, fun _ _ _ _ h => (by cases h), fun h => (by cases h)⟩

/-- Frame count 4095 with a boundary still due at stamp 65535; and a boundary that makes the stamp 128. -/
theorem test_meets_TimeIsCounted :
    (fun s : State => s.powered = true ∧ s.frameCount = 4095 ∧ s.boundaryDue = true ∧ s.stamp = 65535
      ∧ BoundaryEvent.slowTick ∉ s.owed) { State.reset with frameCount := 4095, boundaryDue := true, stamp := 65535 }
    ∧ (fun s : State => s.powered = true ∧ s.boundaryDue = true ∧ BoundaryEvent.slowTick ∉ s.owed)
      { State.reset with boundaryDue := true, stamp := 127 } := by decide +kernel

/-- A step on a queue of one command that always has a next state. -/
theorem Tests.steps {s : State} {i : Instr} (hp : s.pending = [i]) (h : ∀ u, ∃ t, exec i u = .next t) :
    ∃ t, step s = .next t := by
  simp only [step, hp]; exact h _

/-- Every list full, and both counts at their ends. -/
def Tests.full : State :=
  let k : LinkRec := { LinkRec.reset with
    rx := .hunt, rate := some 115200, notices := List.replicate 32 ⟨0, .completed, 2, 0, none, none, none⟩ }
  { State.reset with
    pending := [.responseSent .a]
    frameCount := 4095
    stamp := 65535
    queue := List.replicate 64 ⟨479, .toFibre, .linkB, false, 0⟩
    map := { State.reset.map with staging := List.replicate 32 (.release 511) }
    peer := { State.reset.peer with
      adverts := List.replicate 16 ⟨.linger 32 0, 0, .abort, 0⟩, view := List.replicate 16 ⟨0, .ready, 0, 0, 255, 95⟩ }
    linkA := k
    linkB := k }

theorem test_meets_CapacitiesAndRangesAreKept :
    Tests.full.withinCapacity ∧ Tests.full.timeInRange ∧ ∃ t, step Tests.full = .next t := by
  refine ⟨?_, ?_, Tests.steps rfl (fun _ => ⟨_, rfl⟩)⟩
  · unfold State.withinCapacity; decide +kernel
  · unfold State.timeInRange; decide +kernel

/-- A cut span with its relay operated, and a link whose attention line is driven for a notice of level 3. -/
def Tests.driven : State :=
  { Tests.part 479 15 none id with
    pending := [.powerOff]
    linkA := { LinkRec.reset with notices := [⟨0, .faultSet, 3, 0, none, none, none⟩], attention := true } }

theorem test_meets_OutputsFollowTheState :
    Tests.driven.relaysFollow ∧ Tests.driven.attentionRight ∧ ∃ t, step Tests.driven = .next t := by
  refine ⟨?_, ?_, Tests.steps rfl (fun _ => ⟨_, rfl⟩)⟩
  · unfold State.relaysFollow; decide +kernel
  · unfold State.attentionRight; decide +kernel

/-- Circuit 479 with a residual of 1 on the fibre, slot 511. -/
def Tests.carriedCircuit : Circuit :=
  { Circuit.reset with
    equipped := true, group := 15, slot := some 511, state := .fibreProtected, receive := .fibre, transmit := .both
    residual := 1, residualPath := .fibre, cellsHeld := 3, fibreLine := [none] }

/-- Slot 511 is bound to circuit 479. -/
def Tests.mapped : State :=
  let s := Tests.part 479 15 (some 511) (fun _ => Tests.carriedCircuit)
  { s with
    pending := [.frame], map := { s.map with ownDigest := digestOf s.map.entries }, pool := { s.pool with free := 4093 } }

theorem Tests.mapped_boundTo (k : Nat) : Tests.mapped.boundTo k = if k = 511 then some 479 else none := by
  change Table.at (Table.put (Table.fill 512 none) 511 (some 479)) none k = _
  rw [Table.at_put_at, Table.at_fill_same]
  by_cases h : k = 511 <;> simp [h]

theorem Tests.mapped_circuit (n : Nat) :
    Tests.mapped.circuit n = if n = 479 then Tests.carriedCircuit else Circuit.reset := by
  change Table.at (Table.put (Table.fill 480 Circuit.reset) 479 _) Circuit.reset n = _
  rw [Table.at_put_at, Table.at_fill_same]
  by_cases h : n = 479
  · rw [if_pos ⟨h, by decide⟩, if_pos h]
  · rw [if_neg (fun hc => h hc.1), if_neg h]

theorem Tests.mapped_slot (n : Nat) : (Tests.mapped.circuit n).slot = if n = 479 then some 511 else none := by
  rw [Tests.mapped_circuit]
  by_cases h : n = 479
  · rw [if_pos h, if_pos h]; rfl
  · rw [if_neg h, if_neg h]; rfl

theorem Tests.mapped_ctx (c : Nat) : Tests.mapped.ctx c = Ctx.reset := Table.at_fill_same Ctx.reset c

/-- The laws of migration hold of a part with a residual in being. -/
theorem Tests.mapped_lawful : Tests.mapped.migrationLawful := by
  have hq : ∀ n, Tests.mapped.queued n = false := fun _ => rfl
  have hn : ∀ n, (Tests.mapped.circuit n).context = none := fun n => by
    rw [Tests.mapped_circuit]; by_cases h : n = 479 <;> simp [h, Tests.carriedCircuit, Circuit.reset]
  have hw : ∀ c, ¬ (Tests.mapped.ctx c).working := fun c h => by rw [Tests.mapped_ctx] at h; exact h.1 rfl
  have split : ∀ {q : Circuit → Prop} (n : Nat), q Tests.carriedCircuit → q Circuit.reset → q (Tests.mapped.circuit n) :=
    fun {q} n a b => by
      rw [Tests.mapped_circuit]; by_cases h : n = 479
      · rw [if_pos h]; exact a
      · rw [if_neg h]; exact b
  refine fun _ => ⟨⟨fun n => ?_, fun n => ?_, fun n c h => ?_, fun c h => absurd h (hw c), fun n h => ?_, List.nodup_nil,
    fun n _ => hn n, fun c => ?_⟩, ⟨by decide +kernel, fun n => ?_, fun n _ => ?_, fun n c h => ?_, fun c _ => ?_, fun c => ?_,
    List.nodup_nil⟩⟩
  · exact split n ⟨rfl, rfl⟩ ⟨rfl, rfl⟩
  · rw [hn n]; exact split n (q := fun x => x.state = .migrating ↔ none ≠ none) (by decide) (by decide)
  · rw [hn n] at h; cases h
  · rw [hq n] at h
    by_cases hc : n = 479
    · subst hc; decide +kernel
    · rw [Tests.mapped_circuit, if_neg hc] at h
      rcases h with h | h
      · exact absurd rfl h
      · cases h
  · rw [Tests.mapped_ctx]; exact ⟨fun e h => (by cases h), fun e h => (by cases h)⟩
  · exact split n (q := fun x => x.cellsHeld = if x.residual = 0 then 0 else x.residual + 2) rfl rfl
  · exact split n ⟨fun p => (by cases p <;> rfl), fun _ => rfl⟩ ⟨fun p => (by cases p <;> rfl), fun h => absurd rfl h⟩
  · rw [hn n] at h; cases h
  · rw [Tests.mapped_ctx]; rfl
  · rw [Tests.mapped_ctx]; exact ⟨fun h => (by cases h), fun h => (by cases h)⟩

theorem test_meets_MapSlotsAndDigestAgree : Tests.mapped.mapAgrees ∧ Tests.mapped.mapInRange
    ∧ Tests.mapped.digestCurrent ∧ ∃ t, step Tests.mapped = .next t := by
  refine ⟨fun k n _ _ => ?_, ⟨fun k n h => ?_, fun n k h => ?_, fun e he => ?_⟩,
    by unfold State.digestCurrent; decide +kernel, Tests.steps rfl (fun _ => ⟨_, rfl⟩)⟩
  · rw [Tests.mapped_boundTo, Tests.mapped_slot]
    by_cases hk : k = 511 <;> by_cases hn : n = 479 <;> simp [hk, hn]
    · exact fun h => hn h.symm
    · exact fun h => hk h.symm
  · rw [Tests.mapped_boundTo] at h
    by_cases hk : k = 511
    · simp [hk] at h; omega
    · simp [hk] at h
  · rw [Tests.mapped_slot] at h
    by_cases hn : n = 479
    · simp [hn] at h; omega
    · simp [hn] at h
  · cases he

/-- Circuit 479 of group 15 in a call, which its group counts. -/
def Tests.called : State :=
  { State.changeCall (Tests.part 479 15 none id) 479 .outSeized with pending := [.keepalive .a] }

theorem Tests.part_circuit (n : Nat) : (Tests.part 479 15 none id).circuit n
    = if n = 479 then { Circuit.reset with equipped := true, group := 15 } else Circuit.reset := by
  change Table.at (Table.put (Table.fill 480 Circuit.reset) 479 _) Circuit.reset n = _
  rw [Table.at_put_at, Table.at_fill_same]
  by_cases h : n = 479
  · rw [if_pos ⟨h, by decide⟩, if_pos h]; rfl
  · rw [if_neg (fun hc => h hc.1), if_neg h]

theorem Tests.pended_counts {s : State} (p : List Instr) (h : s.busyCounted) :
    State.busyCounted { s with pending := p } := h

theorem Tests.called_counts : Tests.called.busyCounted := by
  have hg : ∀ n, ((Tests.part 479 15 none id).circuit n).group < 16 := fun n => by
    rw [Tests.part_circuit]; by_cases h : n = 479 <;> simp [h, Circuit.reset]
  have hi : ∀ n, ((Tests.part 479 15 none id).circuit n).call = .idle := fun n => by
    rw [Tests.part_circuit]; by_cases h : n = 479 <;> simp [h, Circuit.reset]
  have hc : ∀ g, g < 16 → ((Tests.part 479 15 none id).group g).busyCount = (Tests.part 479 15 none id).busyMembers g :=
    fun g _ => by
      have : (Tests.part 479 15 none id).busyMembers g = 0 :=
        List.countP_eq_zero.mpr (fun n _ => by simp [hi n, CallState.busy])
      rw [this]
      exact congrArg Group.busyCount (Table.at_fill_same Group.reset g)
  have he : ((Tests.part 479 15 none id).circuit 479).equipped = true := by decide +kernel
  exact Tests.pended_counts [.keepalive .a] ((Keeps.changeCall (new := .outSeized) he).busy ⟨hg, fun n _ => hi n, hc⟩)

theorem test_meets_CountsAndRecordsStayLawful : Tests.called.busyCounted ∧ (Tests.called.group 15).busyCount = 1
    ∧ Tests.called.faultsLawful ∧ (∃ k x, x < 16 ∧ (Tests.called.fault k x).live = true)
    ∧ ∃ t, step Tests.called = .next t := by
  refine ⟨Tests.called_counts, by decide +kernel, fun k => ?_, ⟨.fibreLos, 0, by decide +kernel⟩,
    Tests.steps rfl (fun _ => ⟨_, rfl⟩)⟩
  unfold FaultRecord.lawful
  cases k <;> decide +kernel

/-- Nothing of the frame is left, and each count of the frame stands one short of its event. -/
def Tests.lastFrame : State :=
  let s := Tests.joined (Tests.part 479 15 (some 511) (fun c => { c with copperLine := [none, some 1] }))
  State.setCtx (State.setSpan { s with
    frameCount := 4095
    peer := { s.peer with view := [⟨511, .ready, 0, 0, 2, 95⟩] } } 15
    { Span.reset with state := .inserted, relay := true, lossCount := 1022 }) 7
    { Ctx.reset with state := .measure, running := true, begun := true, attemptN := 4, elapsed := 3071, slot := 511 }

theorem test_meets_FramesAreBuiltAndCounted : Tests.lastFrame.rests ∧ Tests.lastFrame.boundaryDue = false
    ∧ Tests.lastFrame.owed = []
    ∧ (∀ l, (Tests.lastFrame.link l).handed = none ∧ ¬ (3 ≤ (Tests.lastFrame.link l).buffer.length
      ∧ (Tests.lastFrame.link l).buffer.length = ((Tests.lastFrame.link l).buffer.getD 2 0).toNat + 5))
    ∧ (∀ x, x < 16 → (Tests.lastFrame.span x).lossCount < 1023)
    ∧ ((Tests.lastFrame.span 15).tested = false ∧ (Tests.lastFrame.span 15).state.cut = true
      ∧ Tests.lastFrame.peerPresent = true)
    ∧ (∀ c, c < 8 → ¬ ((Tests.lastFrame.ctx c).state = .measure ∧ (Tests.lastFrame.ctx c).running = true
      ∧ ((Tests.lastFrame.ctx c).attemptN + 2) * 512 ≤ (Tests.lastFrame.ctx c).elapsed))
    ∧ ∀ e, e ∈ Tests.lastFrame.peer.view → e.age < 96 := by
  refine ⟨⟨rfl, by decide +kernel⟩, rfl, rfl, fun l => ?_, ?_, ?_, ?_⟩
  · cases l <;> exact ⟨rfl, by decide +kernel⟩
  · decide +kernel
  · decide +kernel
  · decide +kernel

/-- A boundary with a revert, an apply, a switch, a return, a wait and a linger before it. -/
def Tests.beforeBoundary : State :=
  let s := Tests.joined State.reset
  State.setCtx (State.setCtx (State.setCtx { s with
    boundaryDue := true
    stamp := 127
    watchdogStrap := 1
    port := { s.port with windowPosition := 499 }
    map := { s.map with applyPending := true }
    pool := { s.pool with free := 0, waitList := [2], waitCount := 1000 }
    peer := { s.peer with adverts := [⟨.linger 1 0, 511, .abort, 0⟩] }
    faults := { s.faults with revertPending := some .fibreLos }
    linkA := { s.linkA with watchdog := some 999 } } 0 { Ctx.reset with state := .ready, switchDue := true })
    1 { Ctx.reset with state := .aborting, returnPending := true })
    2 { Ctx.reset with state := .allocate, lead := some 3 }

theorem test_meets_BoundariesRaiseTheTimers : Tests.beforeBoundary.rests ∧ Tests.beforeBoundary.boundaryDue = true
    ∧ Tests.beforeBoundary.owed = [] := ⟨⟨rfl, by decide +kernel⟩, rfl, rfl⟩

theorem test_meets_CircuitCommandsChangeTheirRecord :
    (∀ i, Tests.opened.hears .a i) ∧ 479 < 480 ∧ 15 < 16 ∧ readClass 1 = some .data
    ∧ (Tests.opened.circuit 479).equipped = false ∧ ((Tests.part 479 15 none id).circuit 479).equipped = true
    ∧ (∀ i, (Tests.part 479 15 none id).hears .a i) :=
  ⟨Tests.opened_hears .a, by decide, by decide, rfl, by decide +kernel, by decide +kernel,
    Tests.hears_open rfl (by decide +kernel) rfl rfl (by decide) rfl⟩

theorem test_meets_GroupSettingsReachTheirTargets : (15 < 16 ∨ 15 = 0xFF) ∧ (0xFF < 16 ∨ 0xFF = 0xFF)
    ∧ (∀ i, Tests.opened.hears .a i) ∧ (∀ i, Tests.opened.hears .b i) ∧ readPolicy 2 = some .forced
    ∧ readBool 1 = some true :=
  ⟨.inl (by decide), .inr rfl, Tests.opened_hears .a, Tests.opened_hears .b, rfl, rfl⟩

/-- Group 15 with an equipped circuit in a call; and with a conditioned one that is IDLE. -/
theorem test_meets_SignallingIsRewrittenWhileIdle :
    (∀ i, Tests.opened.hears .a i) ∧ (15 < 16 ∨ 15 = 0xFF) ∧ 14 < 15 ∧ [14, 0, 1, 2].Nodup ∧ 7 < 8 ∧ 255 < 256
    ∧ (fun s : State => s.quiet = true ∧ 479 < 480 ∧ (s.circuit 479).equipped = true ∧ (s.circuit 479).call ≠ .idle
      ∧ (s.circuit 479).group = 15) (Tests.part 479 15 none (fun c => { c with call := .outSeized }))
    ∧ (¬ ∃ n, n < 480 ∧ ((Tests.part 479 15 none id).circuit n).equipped = true
      ∧ ((Tests.part 479 15 none id).circuit n).call ≠ .idle ∧ ((Tests.part 479 15 none id).circuit n).group = 15)
    ∧ (fun s : State => s.quiet = true ∧ (s.circuit 479).conditioned = true ∧ (s.circuit 479).call = .idle)
      (Tests.part 479 15 none (fun c => { c with conditioned := true })) := by
  refine ⟨Tests.opened_hears .a, .inl (by decide), by decide, by decide, by decide, by decide, by decide +kernel, ?_,
    by decide +kernel⟩
  rintro ⟨n, -, -, h, -⟩
  rw [Tests.part_circuit] at h
  by_cases hn : n = 479 <;> simp [hn, Circuit.reset] at h

/-- The clear of a circuit with a residual (its call ends), and a circuit whose call stays. -/
theorem test_meets_SupervisionFollowsTheCodes :
    (fun f : Filter => (9 : Code) = f.accepted ∧ (1 : Code) ≠ f.accepted ∧ Group.reset.meaning 1 = some .seize
      ∧ Group.reset.meaning 14 = none) Filter.reset
    ∧ (fun f : Filter => (7 : Code) ≠ f.accepted ∧ Group.reset.meaning 7 = none
        ∧ (if f.candidate = some 7 then min 65 (f.count + 1) else 1) = 16 + 1 ∧ ¬ (f.candidate = some 7 ∧ f.count = 16 + 1))
      ⟨5, some 7, 16⟩
    ∧ (fun s : State => 479 < 480 ∧ (s.circuit 479).group < 16 ∧ (s.circuit 479).equipped = true
      ∧ (s.circuit 479).call ≠ .idle ∧ (s.circuit 479).residual ≠ 0
      ∧ callTable ((s.group 15).acceptedMeaning (s.circuit 479).forward.accepted)
          ((s.group 15).acceptedMeaning (s.circuit 479).backward.accepted) = .idle)
      (Tests.heard 479 15 9 9 (fun c => { c with call := .clearing, residual := 1, cellsHeld := 3, copperLine := [none] }))
    ∧ (fun s : State => (s.circuit 479).equipped = true ∧ (s.circuit 479).residual = 0) (Tests.heard 479 15 1 9 id)
    ∧ (State.reset.circuit 0).equipped = false := by decide +kernel

theorem test_meets_ConditioningForcesTheBackwardCode :
    (fun s : State => 479 < 480 ∧ s.wantsConditioning 479 = true ∧ (s.circuit 479).conditioned = false)
      (State.setFault (Tests.part 479 15 none id) .copperLos 15 { FaultRecord.reset .copperLos with live := true })
    ∧ (fun s : State => s.wantsConditioning 479 = false ∧ (s.circuit 479).conditioned = true)
      (Tests.part 479 15 none (fun c => { c with conditioned := true })) := by decide +kernel

theorem test_meets_SpanChangesMoveTheRelay : 15 < 16 ∧ (State.reset.span 15).state.cut = false
    ∧ (State.reset.span 15).state.cut = SpanState.drainIn.cut ∧ ((Tests.part 0 0 none id).span 15).state.cut = true := by
  decide +kernel

/-- An empty span; one with a circuit outside COPPER; one whose circuit has a residual; each state of a span; a drain
that may complete and one that waits. -/
theorem test_meets_SpanCommandsFollowTheirTables :
    15 < 16 ∧ readImmediate 0 = some false ∧ readImmediate 1 = some true ∧ (∀ i, Tests.opened.hears .a i)
    ∧ (∃ n, n / 30 = 15 ∧ ((Tests.part 479 15 none (fun c => { c with state := .locked })).circuit n).state ≠ .copper)
    ∧ (¬ ∃ n, n / 30 = 15 ∧ ((Tests.opened.circuit n).state ≠ .copper ∨ Tests.opened.queued n = true
      ∨ (Tests.opened.circuit n).context ≠ none ∨ (true = true ∧ (Tests.opened.circuit n).residual ≠ 0)))
    ∧ (fun s : State => s.rests ∧ BoundaryEvent.drainComplete 15 ∈ s.owed ∧ (s.span 15).state = .drainIn
        ∧ (∀ y, y < 15 → BoundaryEvent.drainComplete y ∉ s.owed)
        ∧ ∀ n, n / 30 = 15 → (s.circuit n).equipped = true → (s.circuit n).call = .idle)
      (Tests.owing [.drainComplete 15] (State.reset.setSpan 15 { Span.reset with state := .drainIn })) := by
  have hc : ∀ n, Tests.opened.circuit n = Circuit.reset := fun n => Table.at_fill_same Circuit.reset n
  refine ⟨by decide, rfl, rfl, Tests.opened_hears .a, ⟨479, by decide, by decide +kernel⟩, ?_,
    ⟨rfl, by decide +kernel⟩, by decide +kernel, by decide +kernel, by decide +kernel, ?_⟩
  · rintro ⟨n, -, h⟩
    rw [hc n] at h
    rcases h with h | h | h | h
    · exact h rfl
    · cases h
    · exact h rfl
    · exact h.2 rfl
  · intro n _ _
    exact congrArg Circuit.call (hc n)

/-- The fourth wrong frame of a side in order; a code that completes and one that does not; and a marker of a span in order while an attempt runs on it. -/
theorem test_meets_CopperFramesAreReceived : State.reset.rests ∧ 15 < 16 ∧ (List.replicate 30 (0x55 : Byte)).length = 30
    ∧ (fun f : Framing => f.los = false ∧ 3 ≤ f.run) ⟨false, 3, []⟩
    ∧ (fun f : Framing => f.los = true ∧ 2 ≤ f.run) ⟨true, 2, []⟩
    ∧ (fun a : CodeArrival => a.channel = 479 % 30 + 1
        ∧ ∀ k, k ∈ a.parts → (Framing.examine ⟨false, 0, List.replicate 15 true⟩ true).good[k]? = some true) ⟨30, 14, [0, 15]⟩
    ∧ (fun a : CodeArrival => a.channel = 479 % 30 + 1
        ∧ ¬ ∀ k, k ∈ a.parts → (Framing.examine ⟨false, 0, []⟩ true).good[k]? = some true) ⟨30, 14, [0, 15]⟩
    ∧ (fun s : State => s.quiet = true ∧ (s.span 15).history = List.replicate 7 false ∧ (s.span 15).line.los = false
        ∧ (s.span 15).markerLoss = true)
      (State.setSpan State.reset 15 { Span.reset with
        state := .inserted, relay := true, history := List.replicate 7 false, lossCount := 1024, markerLoss := true })
    ∧ (fun s : State => s.quiet = true ∧ (s.span 15).history = List.replicate 7 false ∧ (s.span 15).line.los = false
        ∧ (s.span 15).markerLoss = false ∧ s.port.tf = some 2700 ∧ (s.ctx 7).state = .measure
        ∧ (s.ctx 7).running = true ∧ (s.ctx 7).n < (s.ctx 7).attemptN ∧ (s.ctx 7).circuit / 30 = 15)
      (State.setCtx (State.setSpan { State.reset with port := { FibrePort.reset with tf := some 2700 } } 15
        { Span.reset with history := List.replicate 7 false }) 7
        { Ctx.reset with state := .measure, running := true, begun := true, attemptN := 4, n := 3, circuit := 479 }) := by
  refine ⟨Tests.reset_rests, by decide +kernel⟩

/-- Hunting, on trial at its second frame, and aligned with three wrong words behind it. -/
theorem test_meets_CarriageFramesAreFound :
    4 + 4304 ≤ 8 * (List.replicate 539 (0 : Byte)).length
    ∧ (fun stream : List Byte => 4 + 4304 ≤ 8 * stream.length
        ∧ 256 * ((frameAt stream 4).getD 0 0).toNat + ((frameAt stream 4).getD 1 0).toNat = 0x3AC5
        ∧ ∀ j, 1 ≤ j → j < 4 → 256 * ((frameAt stream j).getD 0 0).toNat + ((frameAt stream j).getD 1 0).toNat ≠ 0x3AC5)
      (Tests.shifted ++ Tests.wrongFrame)
    ∧ (fun stream : List Byte => ∀ k, 0 ≤ k → k + 4304 ≤ 8 * stream.length →
        256 * ((frameAt stream k).getD 0 0).toNat + ((frameAt stream k).getD 1 0).toNat ≠ 0x3AC5) Tests.wrongFrame ∧
    (fun s : State => s.rests ∧ s.port.los = true ∧ s.port.trial = none) State.reset
    ∧ (fun s : State => s.rests ∧ s.port.los = true ∧ s.port.trial = some 4303 ∧ 2 ≤ s.port.run)
      { State.reset with port := { FibrePort.reset with trial := some 4303, run := 2 } }
    ∧ (fun s : State => s.rests ∧ s.port.los = false ∧ s.port.position = some 0 ∧ 3 ≤ s.port.run)
      { State.reset with port := { FibrePort.reset with los := false, position := some 0, run := 3 } }
    ∧ 256 * (([0x3A, 0xC5] : List Byte).getD 0 0).toNat + (([0x3A, 0xC5] : List Byte).getD 1 0).toNat = 0x3AC5
    ∧ (State.reset.fault .fibreLos 0).enabled = true :=
  ⟨by decide +kernel, by decide +kernel, fun k _ h => by
      have hl : Tests.wrongFrame.length = 538 := List.length_replicate
      have : k = 0 := by omega
      subst this; decide +kernel,
    ⟨Tests.reset_rests, rfl, rfl⟩, ⟨⟨rfl, by decide +kernel⟩, rfl, rfl, by decide⟩,
    ⟨⟨rfl, by decide +kernel⟩, rfl, rfl, by decide⟩, by decide, by decide +kernel⟩

/-- A frame with a good check and a good word; one with a good check and a bad word; and one with a bad check. -/
theorem test_meets_FramesAreJudged :
    (∀ body : List Byte, body.length = 536 → (withCrc16 body).length = 538
      ∧ (crc16 ((withCrc16 body).take 536)).toNat
        = 256 * ((withCrc16 body).getD 536 0).toNat + ((withCrc16 body).getD 537 0).toNat)
    ∧ (fun bytes : List Byte => bytes.length = 536 ∧ crc8 [bytes.getD 4 0, bytes.getD 5 0, bytes.getD 6 0] = bytes.getD 7 0)
      (List.replicate 536 0)
    ∧ crc8 [1, 0, 0] ≠ 0
    ∧ ∃ bytes : List Byte, bytes.length = 538 ∧ (crc16 (bytes.take 536)).toNat
        ≠ 256 * (bytes.getD 536 0).toNat + (bytes.getD 537 0).toNat := by
  refine ⟨Tests.check_of_body, by decide +kernel, by decide +kernel, ?_⟩
  obtain ⟨body, hb⟩ : ∃ body : List Byte, body.length = 536 := ⟨List.replicate 536 0, List.length_replicate⟩
  have ht : ∀ a b : Byte, (body ++ [a, b]).take 536 = body := fun a b => by simp [← hb]
  have h0 : ∀ a b : Byte, (body ++ [a, b]).getD 536 0 = a := fun a b => by simp [List.getD_eq_getElem?_getD, hb]
  have h1 : ∀ a b : Byte, (body ++ [a, b]).getD 537 0 = b := fun a b => by simp [List.getD_eq_getElem?_getD, hb]
  by_cases h : (crc16 body).toNat = 0
  · refine ⟨body ++ [0, 1], by simp [hb], ?_⟩
    rw [ht, h0, h1, h]; decide
  · refine ⟨body ++ [0, 0], by simp [hb], ?_⟩
    rw [ht, h0, h1]; exact h

theorem test_meets_ErroredFrameWindowsEnd :
    (fun s : State => s.rests ∧ BoundaryEvent.windowEnd ∈ s.owed ∧ s.port.windowPosition < 500)
      (Tests.owing [.windowEnd] { State.reset with port := { FibrePort.reset with windowPosition := 499 } })
    ∧ (fun s : State => s.rests ∧ BoundaryEvent.windowEnd ∈ s.owed ∧ 500 ≤ s.port.windowPosition
        ∧ s.port.lossMark = false ∧ s.port.threshold ≤ s.port.windowCount ∧ s.port.err = false)
      (Tests.owing [.windowEnd] { State.reset with port := { FibrePort.reset with windowPosition := 500, windowCount := 80 } })
    ∧ (fun s : State => s.rests ∧ BoundaryEvent.windowEnd ∈ s.owed ∧ 500 ≤ s.port.windowPosition
        ∧ s.port.lossMark = false ∧ s.port.windowCount < s.port.threshold ∧ s.port.err = true)
      (Tests.owing [.windowEnd] { State.reset with
        port := { FibrePort.reset with windowPosition := 500, windowCount := 79, err := true } }) :=
  ⟨⟨⟨rfl, by decide +kernel⟩, by decide, by decide⟩, ⟨⟨rfl, by decide +kernel⟩, by decide, by decide, rfl, by decide, rfl⟩,
    ⟨⟨rfl, by decide +kernel⟩, by decide, by decide, rfl, by decide, rfl⟩⟩

/-- PEER_SILENT is due once the time is 10, and not while it is 11. -/
theorem test_meets_SettingsAreClamped : (∀ i, Tests.opened.hears .b i) ∧ readBool 0 = some false ∧ readBool 1 = some true
    ∧ (fun s : State => (∀ i, s.hears .b i) ∧ s.peer.silent = false ∧ (∃ a, s.port.wordAge = some a ∧ 10 ≤ a)
        ∧ ¬ ∃ a, s.port.wordAge = some a ∧ 11 ≤ a)
      { Tests.opened with
        port := { FibrePort.reset with wordAge := some 10 }, peer := { PeerExchange.reset with silent := false } } := by
  refine ⟨Tests.opened_hears .b, rfl, rfl, Tests.hears_open rfl (by decide +kernel) rfl rfl (by decide) rfl, rfl,
    ⟨10, rfl, by decide⟩, ?_⟩
  rintro ⟨a, h, ha⟩
  cases h
  exact absurd ha (by decide)

theorem test_meets_EditsAreStaged : (∀ l i, Tests.opened.hears l i)
    ∧ (fun s : State => (∀ i, s.hears .b i) ∧ s.map.staging.length = 31)
      { Tests.opened with map := { CarriageMap.reset with staging := List.replicate 31 (.release 511) } }
    ∧ (fun s : State => (∀ i, s.hears .b i) ∧ 32 ≤ s.map.staging.length) Tests.full := by
  refine ⟨Tests.opened_hears, ⟨Tests.hears_open rfl (by decide +kernel) rfl rfl (by decide) rfl, by decide +kernel⟩,
    ⟨Tests.hears_open rfl (by decide +kernel) rfl rfl (by decide) rfl, by decide +kernel⟩⟩

/-- A free slot and a circuit without one; a mapped circuit; a slot that may be released, and one that may not. -/
theorem test_meets_EditsAreJudgedInOrder : 511 < 512 ∧ 479 < 480
    ∧ State.reset.boundTo 511 = none ∧ (State.reset.circuit 479).slot = none
    ∧ (fun w : State => w.boundTo 511 = some 479 ∧ w.boundTo 0 = none ∧ (w.circuit 479).slot ≠ none
        ∧ (w.circuit 479).state = .copper ∧ w.queue = [] ∧ (w.circuit 479).context = none
        ∧ ∀ c, c < 8 → ¬ ((w.ctx c).state = .aborting ∧ (w.ctx c).slot = 511)) (Tests.part 479 15 (some 511) id)
    ∧ (fun w : State => w.boundTo 511 = some 479 ∧ (w.circuit 479).state ≠ .copper)
      (Tests.part 479 15 (some 511) (fun c => { c with state := .fibreProtected })) := by decide +kernel

/-- One circuit changed on a part whose circuits stand as after a cold reset. -/
theorem Tests.circuit_only {s : State} (hs : s.circuits = Table.fill 480 Circuit.reset) {n : Nat} (hn : n < 480)
    (c : Circuit) (m : Nat) : (s.setCircuit n c).circuit m = if m = n then c else Circuit.reset := by
  change Table.at (Table.put s.circuits n c) Circuit.reset m = _
  rw [hs, Table.at_put_at, Table.at_fill_same]
  by_cases h : m = n
  · rw [if_pos ⟨h, hn⟩, if_pos h]
  · rw [if_neg (fun hc => h hc.1), if_neg h]

theorem Tests.applying_circuit (st : MigState) (m : Nat) : (Tests.applying st).circuit m
    = if m = 33 then { Circuit.reset with equipped := true, slot := some 40, state := st } else Circuit.reset :=
  Tests.circuit_only (s := { Tests.opened with
    spans := Table.fill 16 { Span.reset with state := .inserted, relay := true, sending := true, marking := true } }) rfl (by decide) _ m

/-- An apply that fails at position 2, one that succeeds with every circuit's conditioning right, and APPLY_MAP. -/
theorem test_meets_MapIsAppliedWholeOrNotAtAll : (∀ i, Tests.opened.hears .b i)
    ∧ (fun s : State => s.rests ∧ BoundaryEvent.mapApply ∈ s.owed ∧ s.map.applyPending = true
        ∧ (s.judge 0 s.map.staging).isRight = true) (Tests.applying .fibreProtected)
    ∧ (fun s : State => s.rests ∧ BoundaryEvent.mapApply ∈ s.owed ∧ s.map.applyPending = true
        ∧ (s.judge 0 s.map.staging).isLeft = true
        ∧ (∀ n, n < 480 → (s.circuit n).state ≠ .fibreOnly)
        ∧ ∀ n, n < 480 → (s.circuit n).conditioned = s.wantsConditioning n) (Tests.applying .copper) := by
  refine ⟨Tests.opened_hears .b, ⟨⟨rfl, by decide +kernel⟩, by decide, rfl, by decide +kernel⟩,
    ⟨rfl, by decide +kernel⟩, by decide, rfl, by decide +kernel, fun n _ => ?_, fun n _ => ?_⟩
  · rw [Tests.applying_circuit]; by_cases h : n = 33 <;> simp [h, Circuit.reset]
  · by_cases h : n = 33
    · subst h; decide +kernel
    · simp [State.wantsConditioning, Tests.applying_circuit, h, Circuit.reset]

theorem test_meets_DigestWordsAreCompared :
    (fun s : State => s.map.mismatch = false ∧ (0 : BitVec 16) ≠ s.map.ownDigest ∧ 2 ≤ s.map.run)
      { State.reset with map := { CarriageMap.reset with run := 2 } }
    ∧ (fun s : State => s.map.mismatch = true ∧ (0xD6DA : BitVec 16) = s.map.ownDigest ∧ s.map.run < 2)
      { State.reset with map := { CarriageMap.reset with mismatch := true, run := 1 } } := by decide

theorem test_meets_DelaysAreMeasured : 0 < 1 ∧ 0 < 32 := by decide

/-- Before attempt 1 on a live slot; the last value of an attempt; the third attempt with too wide a spread; a head whose
need is just covered, and one whose need is not. -/
theorem test_meets_AttemptsEndAndThePoolServes :
    (fun s : State => s.powered = true ∧ s.poolDue = false ∧ 7 < 8 ∧ (s.ctx 7).state = .measure
        ∧ (s.ctx 7).begun = false ∧ s.slotLive (s.ctx 7).slot = true)
      (State.setCtx { State.reset with port := { FibrePort.reset with codes := Table.fill 512 5 } } 7
        { Ctx.reset with state := .measure, slot := 511 })
    ∧ (fun s : State => s.poolDue = false ∧ (s.ctx 7).state = .measure ∧ (s.ctx 7).running = true
        ∧ (s.ctx 7).attemptN ≤ (s.ctx 7).n ∧ (s.ctx 7).spread ≤ (s.ctx 7).attemptLimit)
      (State.setCtx State.reset 7 { Ctx.reset with
        state := .measure, running := true, begun := true, attemptN := 4, n := 4, attemptLimit := 3
        min := some 0, max := some 3 })
    ∧ (fun s : State => s.poolDue = false ∧ (s.ctx 7).state = .measure ∧ (s.ctx 7).running = true
        ∧ (s.ctx 7).attemptN ≤ (s.ctx 7).n ∧ (s.ctx 7).attemptLimit < (s.ctx 7).spread ∧ 3 ≤ (s.ctx 7).attempt)
      (State.setCtx State.reset 7 { Ctx.reset with
        state := .measure, running := true, begun := true, attempt := 3, attemptN := 4, n := 4, attemptLimit := 3
        min := some 0, max := some 4 })
    ∧ (fun s : State => s.powered = true ∧ s.pool.waitList = 7 :: [] ∧ (s.ctx 7).lead = some (-254) ∧ 256 ≤ s.pool.free)
      (State.setCtx { State.reset with pool := { free := 256, waitList := [7], waitCount := 3 } } 7
        { Ctx.reset with state := .allocate, lead := some (-254) })
    ∧ (fun s : State => s.pool.waitList = 7 :: [] ∧ (s.ctx 7).lead = some 254 ∧ s.pool.free < 256)
      (State.setCtx { State.reset with pool := { free := 255, waitList := [7], waitCount := 3 } } 7
        { Ctx.reset with state := .allocate, lead := some 254 })
    ∧ (fun x : Ctx => ∃ b, x.lastStep = some (.ready, b) ∨ x.lastStep = some (.switched, b))
      { Ctx.reset with lastStep := some (.switched, 0) }
    ∧ (¬ ∃ b, Ctx.reset.lastStep = some (.ready, b) ∨ Ctx.reset.lastStep = some (.switched, b))
    ∧ (State.reset.pool.waitList = [] ∧ ((State.reset.ctx 7).lead.getD 0).natAbs + 2 ≤ State.reset.pool.free)
    ∧ (fun s : State => ¬ (s.pool.waitList = [] ∧ ((s.ctx 7).lead.getD 0).natAbs + 2 ≤ s.pool.free))
      { State.reset with pool := { State.reset.pool with waitList := [0] } } := by
  refine ⟨by decide +kernel, by decide +kernel, by decide +kernel, by decide +kernel, by decide +kernel,
    ⟨0, .inr rfl⟩, fun ⟨b, h⟩ => ?_, by decide +kernel, by decide +kernel⟩
  rcases h with h | h <;> cases h

/-- The walk-up of a context, a residual of 2, a residual of 1. -/
theorem test_meets_WalkSlotsStepTheirCircuits :
    State.rests (Tests.owing [.walkSlot] State.reset) ∧ BoundaryEvent.walkSlot ∈ (Tests.owing [.walkSlot] State.reset).owed
    ∧ (fun s : State => 47 < 480 ∧ (s.circuit 47).context = some 2 ∧ 2 < 8 ∧ (s.ctx 2).state = .walkUp)
      (Tests.moving { Ctx.reset with state := .walkUp, lead := some (-6), cells := 8 } id)
    ∧ (fun s : State => (∀ k, (s.circuit 479).context ≠ some k) ∧ 1 < (s.circuit 479).residual
        ∧ (s.circuit 479).cls = .voice) (Tests.part 479 0 none (fun c => { c with residual := 2, cellsHeld := 4 }))
    ∧ (fun s : State => (s.circuit 479).residual = 1 ∧ (s.circuit 479).cls = .voice)
      (Tests.part 479 0 none (fun c => { c with residual := 1, cellsHeld := 3 })) := by
  refine ⟨⟨rfl, by decide +kernel⟩, by decide, by decide +kernel, ⟨?_, by decide +kernel, by decide +kernel⟩,
    by decide +kernel⟩
  have h : ((Tests.part 479 0 none (fun c => { c with residual := 2, cellsHeld := 4 })).circuit 479).context = none := by
    decide +kernel
  intro k hk
  rw [h] at hk
  cases hk

theorem test_meets_CellMovesBalance :
    (Tests.mapped.mapAgrees ∧ Tests.mapped.mapInRange ∧ Tests.mapped.migrationLawful ∧ ∃ t, step Tests.mapped = .next t)
    ∧ (fun s : State => 47 < 480 ∧ 2 < 8 ∧ s.pool.waitList = 2 :: [] ∧ (s.ctx 2).cells = 0 ∧ (s.ctx 2).need ≤ s.pool.free)
      (State.setCtx { Tests.opened with pool := { free := 39, waitList := [2], waitCount := 0 } } 2
        { Ctx.reset with state := .allocate, lead := some 37 })
    ∧ (fun s : State => 0 < (s.circuit 479).residual ∧ (s.circuit 479).cellsHeld = (s.circuit 479).residual + 2)
      (Tests.part 479 0 none (fun c => { c with residual := 1, cellsHeld := 3 }))
    ∧ (fun s : State => (s.ctx 2).circuit = 47 ∧ (s.circuit 47).cellsHeld = 0
        ∧ (s.circuit 47).delay (s.ctx 2).direction.currentPath + 2 ≤ (s.ctx 2).cells)
      (Tests.moving { Ctx.reset with state := .ready, lead := some (-6), cells := 8 } (fun c => { c with
        copperLine := List.replicate 6 none })) :=
  ⟨⟨test_meets_MapSlotsAndDigestAgree.1, test_meets_MapSlotsAndDigestAgree.2.1, Tests.mapped_lawful,
    Tests.steps rfl (fun _ => ⟨_, rfl⟩)⟩, by decide +kernel⟩

/-- A request that passes; one for each check that may fail; an entry that re-enters a queue of 63, and of 64. -/
theorem test_meets_RequestsJoinTheQueueByAge :
    (fun s : State => (∀ i, s.hears .b i) ∧ 479 < 480 ∧ readDirection 0 = some .toFibre
        ∧ (s.circuit 479).equipped = true ∧ (s.span 15).state = .inserted ∧ s.queued 479 = false
        ∧ (s.circuit 479).context = none ∧ (s.circuit 479).state = .copper ∧ (s.circuit 479).slot = some 511)
      (Tests.part 479 15 (some 511) id)
    ∧ (∀ i, Tests.opened.hears .b i) ∧ readDirection 1 = some .toCopper
    ∧ State.queue { State.reset with queue := List.replicate 63 ⟨0, .toFibre, .linkB, false, 0⟩ } =
        List.replicate 63 ⟨0, .toFibre, .linkB, false, 0⟩
    ∧ 64 ≤ Tests.full.queue.length := by
  refine ⟨⟨Tests.hears_open rfl (by decide +kernel) rfl rfl (by decide) rfl, by decide, rfl, by decide +kernel,
    by decide +kernel, rfl, by decide +kernel, by decide +kernel, by decide +kernel⟩, Tests.opened_hears .b, rfl, rfl,
    by decide +kernel⟩

/-- A queued circuit, a parked entry, and neither. -/
theorem test_meets_CancelRequestWithdraws : (∀ l i, Tests.opened.hears l i) ∧ 480 ≤ 480 ∧ 479 < 480
    ∧ (fun s : State => (∀ i, s.hears .b i) ∧ s.queue = [] ++ ⟨95, .toFibre, .linkB, false, 7990⟩ :: [])
      (Tests.queued95 Tests.opened)
    ∧ (fun s : State => (∀ i, s.hears .b i) ∧ s.queue = [] ∧ (s.circuit 47).context = some 2
        ∧ (s.ctx 2).parked = some ⟨47, .toCopper, .linkB, false, 1⟩)
      (Tests.moving { Ctx.reset with state := .ready, parked := some ⟨47, .toCopper, .linkB, false, 1⟩ } id)
    ∧ par [0x99] 0 = 0x99 := by
  refine ⟨Tests.opened_hears, by decide, by decide, ⟨Tests.hears_open rfl (by decide +kernel) rfl rfl (by decide) rfl, rfl⟩,
    ⟨Tests.hears_open rfl (by decide +kernel) rfl rfl (by decide) rfl, rfl, by decide +kernel, by decide +kernel⟩, by decide⟩

/-- Section 7.8, stamp 8001: contexts 0 and 1 busy, 95 held, 47 passes; every port kind has its record as after reset. -/
def Tests.admitting : State :=
  let s := Tests.joined (Tests.part 47 1 (some 12) (fun c => { c with call := .outAnswered }))
  let s := State.setCircuit { s with
    queue := [⟨95, .toFibre, .linkB, false, 7990⟩, ⟨47, .toFibre, .linkB, false, 8000⟩], owed := [.admission] } 95
    { Circuit.reset with equipped := true, held := true, slot := some 13 }
  (s.setCtx 0 { Ctx.reset with state := .aborting }).setCtx 1 { Ctx.reset with state := .aborting }

theorem test_meets_AdmissionTakesTheFirstThatPasses :
    (fun s : State => s.rests ∧ BoundaryEvent.admission ∈ s.owed
        ∧ ¬ (s.port.los = false ∧ s.peer.silent = false ∧ ∃ a, s.port.wordAge = some a ∧ a < s.peer.silentTime))
      (Tests.owing [.admission] State.reset)
    ∧ (fun s : State => s.rests ∧ BoundaryEvent.admission ∈ s.owed
        ∧ (s.ctx 2).state = .free ∧ (∀ k, k < 2 → (s.ctx k).state ≠ .free)
        ∧ s.port.los = false ∧ s.peer.silent = false ∧ (∃ a, s.port.wordAge = some a ∧ a < s.peer.silentTime)
        ∧ (∀ k : FaultKind, k.isPort = true →
            ¬ ((s.fault k 0).enabled = true ∧ (s.fault k 0).live = true ∧ (s.fault k 0).actions.halt = true))
        ∧ s.linkA.alive = true ∧ s.linkB.alive = true
        ∧ s.queue = [⟨95, .toFibre, .linkB, false, 7990⟩] ++ ⟨47, .toFibre, .linkB, false, 8000⟩ :: []
        ∧ (s.circuit 95).held = true
        ∧ ((s.span 1).state = .inserted ∧ s.spanHalt 1 = false ∧ (s.circuit 47).state = .copper
          ∧ (s.group 1).frozen = false ∧ (s.group 1).lockedOut = false ∧ (s.circuit 47).held = false
          ∧ (s.circuit 47).residual = 0 ∧ (∀ k, k < 8 → ¬ ((s.ctx k).state = .aborting ∧ (s.ctx k).slot = 12))
          ∧ (s.group 1).policy = .hitless)) Tests.admitting := by
  refine ⟨⟨⟨rfl, by decide +kernel⟩, by decide, fun h => by cases h.1⟩, ⟨rfl, by decide +kernel⟩, by decide,
    by decide +kernel, by decide +kernel, rfl, rfl, ⟨0, rfl, by decide⟩, fun k => ?_, rfl, rfl, rfl, by decide +kernel,
    by decide +kernel⟩
  cases k <;> decide +kernel

/-- A busy call with a lead, and the same with an idle-only switch. -/
theorem test_meets_SwitchAlignsThePaths :
    (fun s : State => s.rests ∧ BoundaryEvent.switch 2 ∈ s.owed ∧ 2 < 8 ∧ 47 < 480 ∧ (s.ctx 2).circuit = 47
        ∧ (s.ctx 2).state = .ready ∧ (s.ctx 2).switchDue = true ∧ (s.ctx 2).idleOnly = false
        ∧ (s.circuit 47).call.busy = true ∧ (s.ctx 2).lead = some 37 ∧ (s.circuit 47).delay .fibre = 37
        ∧ (s.circuit 47).delay .copper = 0)
      (Tests.owing [.switch 2] (Tests.moving { Ctx.reset with
        state := .ready, switchDue := true, lead := some 37, cells := 39 } (fun c => { c with
          fibreLine := List.replicate 37 none })))
    ∧ (fun s : State => s.rests ∧ BoundaryEvent.switch 2 ∈ s.owed ∧ (s.ctx 2).state = .ready
        ∧ (s.ctx 2).switchDue = true ∧ (s.ctx 2).idleOnly = true ∧ (s.circuit 47).call.busy = true
        ∧ (s.ctx 2).switched = false ∧ (s.ctx 2).parked = none
        ∧ (s.ctx 2).served = some ⟨47, .toFibre, .linkB, false, 8000⟩ ∧ s.queue.length < 64
        ∧ State.wantsConditioning (s.defer 2) 47 = (s.circuit 47).conditioned)
      (Tests.owing [.switch 2] (Tests.moving { Ctx.reset with
        state := .ready, switchDue := true, idleOnly := true, lead := some (-6) } id)) := by
  unfold State.rests; decide +kernel

theorem test_meets_ContextsComplete :
    (fun s : State => s.powered = true ∧ s.poolDue = false ∧ 2 < 8 ∧ 47 < 480 ∧ (s.ctx 2).circuit = 47
        ∧ (s.ctx 2).state = .switched ∧ (s.ctx 2).lastStep = some (.switched, 0) ∧ (s.ctx 2).parked = none)
      (Tests.moving { Ctx.reset with state := .switched, switched := true, lead := some 37, lastStep := some (.switched, 0) } id)
    ∧ (fun s : State => s.powered = true ∧ s.poolDue = false ∧ (s.ctx 0).state = .free) State.reset := by decide +kernel

/-- Before the switch with a delay of 4 and a busy call; after the switch; and contexts that are not reached. -/
theorem test_meets_AbortsEndAContext :
    (fun s : State => 2 < 8 ∧ 47 < 480 ∧ (s.ctx 2).circuit = 47 ∧ (s.ctx 2).state ≠ .free ∧ (s.ctx 2).state ≠ .aborting
        ∧ (s.ctx 2).switched = false ∧ (s.circuit 47).delay (s.ctx 2).direction.currentPath ≠ 0
        ∧ (s.circuit 47).call.busy = true ∧ (s.ctx 2).parked = none)
      (Tests.moving { Ctx.reset with state := .walkUp, lead := some (-6), cells := 8 } (fun c => { c with
        copperLine := List.replicate 4 none }))
    ∧ (fun s : State => (s.ctx 2).circuit = 47 ∧ (s.ctx 2).state ≠ .free ∧ (s.ctx 2).state ≠ .aborting
        ∧ (s.ctx 2).switched = true) (Tests.moving { Ctx.reset with state := .switched, switched := true } id)
    ∧ (State.reset.ctx 7).state = .free
    ∧ ((Tests.moving { Ctx.reset with state := .aborting } id).ctx 2).state = .aborting := by decide +kernel

theorem test_meets_AbortContextAnswers :
    (fun s : State => (∀ i, s.hears .b i) ∧ 8 ≤ 8 ∧ 7 < 8 ∧ (s.ctx 7).state = .free) Tests.opened
    ∧ (fun s : State => (∀ i, s.hears .b i) ∧ (s.ctx 2).state = .aborting ∧ (s.ctx 2).abortCause = some .fibreFault)
      (Tests.moving { Ctx.reset with state := .aborting, abortCause := some .fibreFault } id)
    ∧ (fun s : State => (∀ i, s.hears .b i) ∧ (s.ctx 2).state ≠ .free ∧ (s.ctx 2).state ≠ .aborting)
      (Tests.moving { Ctx.reset with state := .walkUp } id) := by
  refine ⟨⟨Tests.opened_hears .b, by decide, by decide, by decide +kernel⟩,
    ⟨Tests.hears_open rfl (by decide +kernel) rfl rfl (by decide) rfl, by decide +kernel, by decide +kernel⟩,
    ⟨Tests.hears_open rfl (by decide +kernel) rfl rfl (by decide) rfl, by decide +kernel, by decide +kernel⟩⟩

/-- A return that is pending; the end at an abort count of 32, and one short of it. -/
theorem test_meets_AbortedContextsReturnAndEnd :
    (fun s : State => s.rests ∧ 2 < 8 ∧ 47 < 480 ∧ (s.ctx 2).circuit = 47 ∧ (s.ctx 2).state = .aborting
        ∧ BoundaryEvent.abortReturn 2 ∈ s.owed ∧ (s.ctx 2).returnPending = true)
      (Tests.owing [.abortReturn 2] (Tests.moving { Ctx.reset with
        state := .aborting, returnPending := true, switched := true } id))
    ∧ (fun s : State => s.rests ∧ (s.ctx 2).circuit = 47 ∧ (s.ctx 2).state = .aborting
        ∧ BoundaryEvent.abortingEnd 2 ∈ s.owed ∧ (s.ctx 2).returnPending = false ∧ (s.ctx 2).resetPending = false
        ∧ 32 ≤ (s.ctx 2).abortCount)
      (Tests.owing [.abortingEnd 2] (Tests.moving { Ctx.reset with state := .aborting, peerEntry := true, abortCount := 32 } id))
    ∧ (fun s : State => s.rests ∧ (s.ctx 2).state = .aborting ∧ (s.ctx 2).resetPending = false
        ∧ (s.ctx 2).peerEntry = true ∧ (s.ctx 2).lastStep = none ∧ ¬ 32 ≤ (s.ctx 2).abortCount)
      (Tests.owing [.abortingEnd 2] (Tests.moving { Ctx.reset with state := .aborting, peerEntry := true, abortCount := 31 } id))
    := by
  unfold State.rests; decide +kernel

/-- Each timeout at the first count at which it is due. -/
theorem test_meets_TimeoutsActWhereDue :
    (fun s : State => s.rests ∧ BoundaryEvent.stepTimeout 7 ∈ s.owed ∧ BoundaryEvent.bridgeTimeout 6 ∈ s.owed
        ∧ BoundaryEvent.poolTimeout ∈ s.owed
        ∧ (s.ctx 7).stepRunning = true ∧ s.admitting.stepTimeout ≤ (s.ctx 7).stepTimer
        ∧ (s.ctx 6).state = .measure ∧ (s.ctx 6).begun = false ∧ s.admitting.bridgeTimeout ≤ (s.ctx 6).bridgeTimer
        ∧ (s.ctx 5).state = .measure ∧ (s.ctx 5).running = true ∧ ((s.ctx 5).attemptN + 2) * 512 ≤ (s.ctx 5).elapsed
        ∧ s.pool.waitList = 4 :: [] ∧ s.align.poolTimeout < s.pool.waitCount
        ∧ (s.span 15).state.cut = true ∧ 1024 ≤ (s.span 15).lossCount ∧ (s.span 15).markerLoss = false)
      (State.setSpan ((((Tests.owing [.stepTimeout 7, .bridgeTimeout 6, .poolTimeout] { State.reset with
          pool := { free := 2, waitList := [4], waitCount := 1001 } }).setCtx 7
        { Ctx.reset with state := .request, stepRunning := true, stepTimer := 500 }).setCtx 6
        { Ctx.reset with state := .measure, bridgeTimer := 250 }).setCtx 5
        { Ctx.reset with state := .measure, running := true, begun := true, attemptN := 4, elapsed := 3072 } |>.setCtx 4
        { Ctx.reset with state := .allocate, lead := some 1 }) 15
        { Span.reset with state := .inserted, relay := true, lossCount := 1024 }) := by
  unfold State.rests; decide +kernel

theorem test_meets_ResetMigrationClearsTheWork :
    (fun s : State => (∀ i, s.hears .b i) ∧ (s.ctx 2).switched = true ∧ (s.ctx 2).state ≠ .free)
      (Tests.moving { Ctx.reset with state := .switched, switched := true } id)
    ∧ (fun s : State => (∀ i, s.hears .b i) ∧ (s.ctx 2).state = .aborting ∧ (s.ctx 2).returnPending = true)
      (Tests.moving { Ctx.reset with state := .aborting, returnPending := true } id)
    ∧ (fun s : State => (∀ i, s.hears .b i) ∧ (s.ctx 2).state = .ready ∧ (s.ctx 2).switched = false)
      (Tests.moving { Ctx.reset with state := .ready } id) := by
  refine ⟨⟨Tests.hears_open rfl (by decide +kernel) rfl rfl (by decide) rfl, by decide +kernel, by decide +kernel⟩,
    ⟨Tests.hears_open rfl (by decide +kernel) rfl rfl (by decide) rfl, by decide +kernel, by decide +kernel⟩,
    ⟨Tests.hears_open rfl (by decide +kernel) rfl rfl (by decide) rfl, by decide +kernel, by decide +kernel⟩⟩

/-- Codes 0, 8, 9 and 15, a step's code, and PEER_SILENT due exactly at its time; a second sighting of a slot that a context
holds, and of one that none holds. -/
theorem test_meets_ValidWordsAreTakenInOrder : (8 : Nat) = 8 ∧ (0 = 0 ∨ 8 < 0) ∧ (15 = 0 ∨ 8 < 15) ∧ (9 = 0 ∨ 8 < 9)
    ∧ Step.reqFibre ≠ .digest ∧ 1 = Step.reqFibre.code ∧ Step.reject ≠ .digest ∧ 7 = Step.reject.code
    ∧ (fun s : State => s.powered = true ∧ s.peer.silent = false ∧ ∃ a, s.port.wordAge = some a ∧ s.peer.silentTime ≤ a)
      { State.reset with
        port := { FibrePort.reset with wordAge := some 50 }, peer := { PeerExchange.reset with silent := false } }
    ∧ (fun s : State => s.powered = true ∧ s.peer.silent = true) State.reset
    ∧ (fun s : State => s.peer.view.find? (fun e => e.slot == 511) = some ⟨511, .ready, 0, 0, 2, 0⟩
        ∧ (s.ctx 7).state ≠ .free ∧ (s.ctx 7).slot = 511 ∧ ∀ k, k < 7 → (s.ctx k).state = .free ∨ (s.ctx k).slot ≠ 511)
      (State.setCtx { State.reset with peer := { PeerExchange.reset with view := [⟨511, .ready, 0, 0, 2, 0⟩] } } 7
        { Ctx.reset with state := .ready, slot := 511 })
    ∧ (fun s : State => s.peer.view.find? (fun e => e.slot == 0) = some ⟨0, .ready, 0, 0, 2, 0⟩
        ∧ s.peer.view.find? (fun e => e.slot == 1) = some ⟨1, .ready, 0, 0, 1, 0⟩
        ∧ ∀ c, c < 8 → (s.ctx c).state = .free ∨ (s.ctx c).slot ≠ 0)
      { State.reset with peer := { PeerExchange.reset with view := [⟨0, .ready, 0, 0, 2, 0⟩, ⟨1, .ready, 0, 0, 1, 0⟩] } } :=
  ⟨rfl, .inl rfl, .inr (by decide), .inr (by decide), by decide, rfl, by decide, rfl, ⟨rfl, rfl, 50, rfl, by decide⟩,
    ⟨rfl, rfl⟩, by decide +kernel, by decide +kernel⟩

/-- A slot that the view holds, one it does not, a full view, and an entry at age 96. -/
theorem test_meets_PeerViewFollowsTheWords :
    (fun s : State => (∃ e, e ∈ s.peer.view ∧ e.slot = 0) ∧ 16 ≤ s.peer.view.length
        ∧ (∀ e, e ∈ s.peer.view → e.slot ≠ 511)) Tests.full
    ∧ (fun s : State => (∀ e, e ∈ s.peer.view → e.slot ≠ 511) ∧ s.peer.view.length < 16) State.reset
    ∧ (fun s : State => s.rests
        ∧ s.peer.view.find? (fun e => e.slot == 511) = some ⟨511, .ready, 0, 0, 255, 96⟩
        ∧ 7 < 8 ∧ (s.ctx 7).state ≠ .free ∧ (s.ctx 7).slot = 511
        ∧ ∀ k, k < 7 → (s.ctx k).state = .free ∨ (s.ctx k).slot ≠ 511)
      (State.setCtx { State.reset with peer := { PeerExchange.reset with view := [⟨511, .ready, 0, 0, 255, 96⟩] } } 7
        { Ctx.reset with state := .aborting, slot := 511 })
    ∧ (fun s : State => s.rests ∧ s.peer.view.find? (fun e => e.slot == 511) = none) State.reset := by
  refine ⟨⟨⟨⟨0, .ready, 0, 0, 255, 95⟩, by decide +kernel, rfl⟩, by decide +kernel, by decide +kernel⟩, by decide +kernel,
    ⟨⟨rfl, by decide +kernel⟩, by decide +kernel⟩, Tests.reset_rests, by decide +kernel⟩

/-- A context in each state that a confirmed step moves, and an entry for each step. -/
theorem test_meets_ConfirmedStepsActByState :
    (fun s : State => 0 < 8 ∧ (s.ctx 0).state = .request ∧ (s.ctx 0).served = none ∧ s.ownSite = 2
        ∧ (s.ctx 0).direction = .toFibre) (Tests.glare .toFibre)
    ∧ (fun s : State => (s.ctx 2).state = .walkUp ∧ (s.ctx 2).switched = false ∧ (s.ctx 2).parked = none
        ∧ (s.ctx 2).served = some ⟨47, .toFibre, .linkB, false, 8000⟩ ∧ (s.ctx 2).circuit < 480 ∧ s.queue.length < 64)
      (Tests.moving { Ctx.reset with state := .walkUp, lead := some (-6), cells := 8 } id)
    ∧ (fun s : State => (s.ctx 2).state = .switched ∧ (s.ctx 2).switched = true ∧ (s.ctx 2).served ≠ none)
      (Tests.moving { Ctx.reset with state := .switched, switched := true } id)
    ∧ (fun s : State => 2 < 8 ∧ (s.ctx 2).state = .ready ∧ (s.ctx 2).served ≠ none)
      (Tests.moving { Ctx.reset with state := .ready } id)
    ∧ (fun s : State => (s.ctx 2).state = .switched) (Tests.moving { Ctx.reset with state := .switched } id)
    ∧ (fun e : ViewEntry => e.step = .reqFibre ∧ e.site = 5) ⟨300, .reqFibre, 0, 5, 2, 0⟩
    ∧ (fun e : ViewEntry => e.step = .abort ∧ e.argument = 0x0E) ⟨300, .abort, 0x0E, 5, 2, 0⟩
    ∧ (State.reset.ctx 7).state = .free := by decide +kernel

/-- Slot 41 of section 8.11: an equipped, held circuit; a circuit that may be moved; a slot that is free. -/
theorem test_meets_PeerStepsAreAnswered :
    (fun s : State => s.peer.adverts = [] ∧ s.boundTo 41 = some 33 ∧ 33 < 480 ∧ (s.circuit 33).equipped = true
        ∧ (s.span 1).state = .inserted ∧ (s.circuit 33).held = true)
      (Tests.part 33 0 (some 41) (fun c => { c with state := .fibreProtected, held := true }))
    ∧ (fun s : State => s.peer.adverts = [] ∧ s.boundTo 41 = some 33 ∧ (s.circuit 33).equipped = true
        ∧ (s.span 1).state = .inserted ∧ (s.circuit 33).held = false ∧ (s.group 0).frozen = false
        ∧ (s.circuit 33).state = .fibreProtected ∧ (s.circuit 33).residual = 0 ∧ s.halted = false
        ∧ 7 < 8 ∧ (s.ctx 7).state = .free ∧ ∀ i, i < 7 → (s.ctx i).state ≠ .free)
      (let s := Tests.joined (Tests.part 33 0 (some 41) (fun c => { c with state := .fibreProtected }));
        { s with contexts := Table.put (Table.fill 8 { Ctx.reset with state := .ready }) 7 Ctx.reset })
    ∧ (fun s : State => s.boundTo 511 = none ∧ s.halted = true) State.reset := by decide +kernel

/-- Tables of 16 and of 15 entries; a linger among contexts; a linger at count 0. -/
theorem test_meets_AdvertisementsKeepTheirPlaces :
    (fun p : PeerExchange => 1 < p.adverts.length ∧ p.position = some 1 ∧ p.adverts[2]? = none)
      { PeerExchange.reset with position := some 1, adverts := [⟨.context 0, 1, .ready, 0⟩, ⟨.linger 32 5, 2, .abort, 0⟩] }
    ∧ 16 ≤ Tests.full.peer.adverts.length ∧ Tests.full.peer.adverts[0]? = some ⟨.linger 32 0, 0, .abort, 0⟩
    ∧ (fun s : State => s.rests ∧ BoundaryEvent.lingerExpiry 511 ∈ s.owed
        ∧ s.peer.adverts = [] ++ ⟨.linger 0 3, 511, .abort, 0⟩ :: [])
      (Tests.owing [.lingerExpiry 511] { State.reset with
        peer := { PeerExchange.reset with adverts := [⟨.linger 0 3, 511, .abort, 0⟩] } }) := by
  unfold State.rests; decide +kernel

/-- An enabled and a disabled record; and contexts that a fault reaches, in both directions. -/
theorem test_meets_FaultsAreDeclaredAndCleared :
    (fun s : State => (s.fault .copperLos 1).enabled = true ∧ (s.fault .copperLos 1).actions.abort = true
        ∧ (s.ctx 2).state ≠ .free ∧ (s.ctx 2).state ≠ .aborting ∧ (s.ctx 2).circuit / 30 = 1)
      (Tests.moving { Ctx.reset with state := .walkUp } id)
    ∧ (fun s : State => (s.fault .fibreLos 0).enabled = true ∧ (s.fault .fibreLos 0).live = true
        ∧ (s.fault .fibreLos 0).actions.revert = true) State.reset
    ∧ 15 < 16 ∧ (State.reset.fault .copperLos 15).enabled = true
    ∧ ((State.reset.setFault .fibreErr 0 { FaultRecord.reset .fibreErr with enabled := false }).fault .fibreErr 0).enabled
      = false
    ∧ (fun s : State => 2 < 8 ∧ 47 < 480 ∧ (s.ctx 2).circuit = 47 ∧ (s.ctx 2).state ≠ .free ∧ (s.ctx 2).state ≠ .aborting
        ∧ (s.ctx 2).direction = .toFibre) (Tests.moving { Ctx.reset with state := .switched, switched := true } id)
    ∧ (fun s : State => (s.ctx 2).circuit = 47 ∧ (s.ctx 2).state ≠ .free ∧ (s.ctx 2).state ≠ .aborting
        ∧ ¬ (s.ctx 2).direction = .toFibre)
      (Tests.moving { Ctx.reset with state := .measure, direction := .toCopper } id) := by decide +kernel

theorem test_meets_FaultRecordsAreSetAndCleared : Tests.opened.faultsLawful ∧ (∀ l i, Tests.opened.hears l i)
    ∧ readKind 0 = some .fibreLos ∧ readKind 7 = some .markerLoss ∧ FaultKind.fibreLos.isPort = true
    ∧ FaultKind.markerLoss.isPort = false ∧ (15 < 16 ∨ 15 = 0xFF) ∧ readBool 1 = some true
    ∧ readActions 8 = some ⟨false, false, false, true⟩ ∧ Actions.within ⟨false, false, false, true⟩ FaultKind.markerLoss.permitted
      = true ∧ readActions 15 = some ⟨true, true, true, true⟩
    ∧ Actions.within ⟨true, true, true, true⟩ FaultKind.markerLoss.permitted = false
    ∧ (Tests.opened.fault .fibreLos 0).live = true ∧ (Tests.opened.fault .fibreErr 0).live = false := by
  refine ⟨fun k => ?_, Tests.opened_hears, by decide +kernel⟩
  unfold FaultRecord.lawful
  cases k <;> decide +kernel

theorem test_meets_RevertsReturnCircuitsToCopper :
    (fun s : State => s.rests ∧ BoundaryEvent.revert ∈ s.owed ∧ s.faults.revertPending = some .fibreLos
        ∧ (s.circuit 250).state = .fibreProtected ∧ (s.group 7).revertCount < 15) Tests.protectedPart := by
  unfold State.rests; decide +kernel

theorem test_meets_SlowTicksReturnCircuitsToFibre :
    (fun s : State => s.rests ∧ BoundaryEvent.slowTick ∈ s.owed ∧ BoundaryEvent.windowExpiry 15 ∈ s.owed
        ∧ (s.group 15).windowTimer = some 1 ∧ s.faults.health = 19 ∧ (s.circuit 479).state = .reverted
        ∧ (s.group 15).autoReturn = true)
      (let s := Tests.joined (Tests.part 479 15 none (fun c => { c with state := .reverted, transmit := .both }));
        { State.setGroup s 15 { Group.reset with autoReturn := true, windowTimer := some 1 } with
          owed := [.slowTick, .windowExpiry 15], faults := { s.faults with health := 19 } }) := by
  unfold State.rests; decide +kernel

theorem test_meets_LockoutAndStandbyAreReleased : (∀ i, Tests.opened.hears .b i) ∧ (15 < 16 ∨ 15 = 0xFF) ∧ 479 < 480
    ∧ (fun s : State => (∀ i, s.hears .b i) ∧ (s.circuit 251).state = .fibreProtected) Tests.protectedPart
    ∧ (fun s : State => (∀ i, s.hears .b i) ∧ (s.circuit 479).state = .fibreOnly)
      (Tests.part 479 15 (some 511) (fun c => { c with state := .fibreOnly, receive := .fibre, transmit := .fibre })) := by
  refine ⟨Tests.opened_hears .b, .inl (by decide), by decide,
    ⟨Tests.hears_open rfl (by decide +kernel) rfl rfl (by decide) rfl, by decide +kernel⟩,
    ⟨Tests.hears_open rfl (by decide +kernel) rfl rfl (by decide) rfl, by decide +kernel⟩⟩

/-- A frame one byte short of complete. -/
theorem test_meets_LineEventsFollowTheReceiveState :
    (fun s : State => s.rests ∧ s.linkB.handed = none
        ∧ ¬ (3 ≤ s.linkB.buffer.length ∧ s.linkB.buffer.length = (s.linkB.buffer.getD 2 0).toNat + 5))
      (Tests.framed [0xA7, 5, 0, 0x11])
    ∧ State.reset.rests ∧ State.reset.linkA.handed = none ∧ ¬ 3 ≤ State.reset.linkA.buffer.length
    ∧ 19200 ≤ 19200 ∧ 1000000 ≤ 1000000 := by
  unfold State.rests; decide +kernel

theorem test_meets_CommandFramesHandOverTheirCommand :
    (fun s : State => (Instr.request .b 65535 255).wellFormed = true
        ∧ sentCommand (.request .b 65535 255) = some (.b, .transport, 0x98, [0xFF, 0xFF, 0xFF]) ∧ s.rests
        ∧ s.ownAddress < 63 ∧ (s.link .b).buffer = commandBytes s.ownAddress 0x98 [0xFF, 0xFF, 0xFF])
      (Tests.framed (commandBytes 5 0x98 [0xFF, 0xFF, 0xFF]))
    ∧ CommandRole.transport.permits .b = true ∧ CommandRole.switch.permits .b = false := by
  unfold State.rests; decide +kernel

/-- A frame with a bad check, one for another part, a broadcast FREEZE, an unknown code, a wrong length. -/
theorem test_meets_OtherFramesAreJudged :
    (fun s : State => s.rests ∧ s.linkB.buffer.length = 5 ∧ commandCheck s.linkB.buffer = false) (Tests.framed [0xA7, 5, 0, 0, 0])
    ∧ (fun s : State => s.rests ∧ s.linkB.buffer.length = 5 ∧ commandCheck s.linkB.buffer = true
        ∧ par s.linkB.buffer 1 ≠ 63 ∧ par s.linkB.buffer 1 ≠ s.ownAddress) (Tests.framed (commandBytes 6 0xA7 []))
    ∧ (fun s : State => s.rests ∧ commandCheck s.linkB.buffer = true ∧ par s.linkB.buffer 1 = 63
        ∧ par s.linkB.buffer 0 = 0x86 ∧ par s.linkB.buffer 2 = 1 ∧ par s.linkB.buffer 3 = 0xFF)
      (Tests.framed (commandBytes 63 0x86 [0xFF]))
    ∧ (fun s : State => s.rests ∧ commandCheck s.linkB.buffer = true ∧ par s.linkB.buffer 1 = 63
        ∧ par s.linkB.buffer 0 = 0xAB ∧ par s.linkB.buffer 2 = 19) (Tests.framed (commandBytes 63 0xAB (List.replicate 19 3)))
    ∧ (fun s : State => s.rests ∧ commandCheck s.linkB.buffer = true ∧ par s.linkB.buffer 1 = s.ownAddress
        ∧ par s.linkB.buffer 0 = 0xAC) (Tests.framed (commandBytes 5 0xAC []))
    ∧ (fun s : State => s.rests ∧ commandCheck s.linkB.buffer = true ∧ par s.linkB.buffer 1 = s.ownAddress
        ∧ par s.linkB.buffer 0 = 0xA7 ∧ par s.linkB.buffer 2 = 1) (Tests.framed (commandBytes 5 0xA7 [0]))
    ∧ catalogue .b [0] 0xA7 = some (.either, 0, .keepalive .b) := by
  unfold State.rests; decide +kernel

/-- A command of the other role; a command on a link that is answering, on one that has another in hand, on one without a
rate, and on a part whose address strap is 63. -/
theorem test_meets_RefusedCommandsChangeNothing : (∀ l i, Tests.opened.hears l i)
    ∧ sentCommand (.hold .b 479) = some (.b, .switch, 0x84, [0x01, 0xDF]) ∧ CommandRole.switch.permits .b = false
    ∧ (fun s : State => s.powered = true ∧ s.quiet = true ∧ (s.link .b).handed ≠ some (.hold .b 479)
        ∧ (s.link .b).handed ≠ none)
      { Tests.opened with linkB := { LinkRec.reset with rx := .answering, handed := some (.keepalive .b) } }
    ∧ (fun s : State => s.powered = true ∧ s.quiet = true ∧ (s.link .b).handed ≠ some (.hold .b 479)
        ∧ (s.link .b).rx = .unsynced) State.reset
    ∧ (fun s : State => s.powered = true ∧ s.quiet = true ∧ s.ownAddress = 63) { Tests.opened with ownAddress := 63 }
    ∧ (fun s : State => s.powered = true ∧ s.quiet = true ∧ (s.link .b).handed ≠ some (.hold .b 479)
        ∧ s.map.applyPending = true) { Tests.opened with map := { CarriageMap.reset with applyPending := true } } := by
  refine ⟨Tests.opened_hears, by decide +kernel⟩

/-- A count that has just reached the timeout of strap 3. -/
theorem test_meets_WatchdogsHearTheirControllers : (∀ l i, Tests.opened.hears l i)
    ∧ (fun s : State => s.rests ∧ BoundaryEvent.linkSilent .a ∈ s.owed ∧ s.watchdogStrap = 3 ∧ (s.link .a).alive = true
        ∧ (s.link .a).watchdog = some 16000)
      (Tests.owing [.linkSilent .a] { State.reset with
        watchdogStrap := 3, linkA := { LinkRec.reset with alive := true, watchdog := some 16000 } })
    ∧ (fun s : State => s.rests ∧ BoundaryEvent.linkSilent .a ∈ s.owed ∧ (s.link .a).alive = false)
      (Tests.owing [.linkSilent .a] State.reset) := by
  unfold State.rests
  exact ⟨Tests.opened_hears, by decide +kernel⟩

theorem test_meets_NoticesAreQueuedAndTaken : (∀ l i, Tests.opened.hears l i) ∧ 0 < 1 ∧ 0 < 255
    ∧ (List.replicate 18 3).length = 18 ∧ (∀ n, n ∈ List.replicate 18 3 → n < 4)
    ∧ Table.at Tests.opened.linkA.levels 0 NoticeClass.seize.code = 0
    ∧ Table.at Tests.opened.linkA.levels 0 NoticeClass.poolWait.code ≠ 0
    ∧ 32 ≤ Tests.full.linkA.notices.length ∧ Tests.noticed.linkB.notices.length < 32 := by
  refine ⟨Tests.opened_hears, by decide +kernel⟩

theorem test_meets_RecordsAreRead : (∀ l i, Tests.opened.hears l i) ∧ 479 < 480 ∧ 0 < 255 ∧ 15 < 16 ∧ 511 < 512 ∧ 63 < 64
    ∧ (Tests.queued95 Tests.opened).queue[0]? = some ⟨95, .toFibre, .linkB, false, 7990⟩ :=
  ⟨Tests.opened_hears, by decide⟩

theorem test_meets_ViewsOfThePartAreRead : (∀ l i, Tests.opened.hears l i) ∧ 7 < 8 ∧ 0 < 2 ∧ 1 < 2
    ∧ readBool 1 = some true ∧ readBool 0 = some false :=
  ⟨Tests.opened_hears, by decide⟩

end Tests
end

section
/-! Staging of edits (section 5.3): what the staging list answers to STAGE_ASSIGN, STAGE_RELEASE and DISCARD_STAGING. -/

namespace Sys2Proof.Machine

/-- A list with room takes the edit at its end and answers position and new length (R76). -/
theorem State.stage_of_room {s : State} (h : s.map.staging.length < 32) (e : Edit) :
    s.stage e = State.done { s with map := { s.map with staging := s.map.staging ++ [e] } } .ok
      [BitVec.ofNat 8 s.map.staging.length, BitVec.ofNat 8 (s.map.staging.length + 1)] :=
  if_pos h

/-- A list of 32 edits takes no more (R76). -/
theorem State.stage_of_full {s : State} (h : 32 ≤ s.map.staging.length) (e : Edit) : s.stage e = s.refuse .full :=
  if_neg (Nat.not_lt.mpr h)

/-- The circuit's range, as the manual gives it: 0 to 479. -/
theorem State.bodyStageAssign_eq (s : State) (slot n : Nat) :
    s.bodyStageAssign slot n = if slot < 512 ∧ n < 480 then s.stage (.assign slot n) else s.refuse .badParam := by
  simp [State.bodyStageAssign, circuitOk]

/-- The staging rule that STAGE_ASSIGN and STAGE_RELEASE share (R76): a transport command that is heard, whose block checks
`ok` and then stages the edit `e`. The range is judged before the list's length. -/
theorem State.command_stages {s : State} {i : Instr} {body : State → Reply} {ok : Prop} [Decidable ok] {e : Edit}
    (h : s.hears .b i) (hb : body s = if ok then s.stage e else s.refuse .badParam) :
    (¬ ok → s.command .b .transport i body = s.replied .b .badParam [])
    ∧ (ok → 32 ≤ s.map.staging.length → s.command .b .transport i body = s.replied .b .full [])
    ∧ (ok → s.map.staging.length < 32 → s.command .b .transport i body =
        State.replied { s with map := { s.map with staging := s.map.staging ++ [e] } } .b .ok
          [BitVec.ofNat 8 s.map.staging.length, BitVec.ofNat 8 (s.map.staging.length + 1)]) := by
  rw [State.command_heard h rfl, hb]
  refine ⟨fun hbad => ?_, fun hok hfull => ?_, fun hok hroom => ?_⟩
  · rw [if_neg hbad]; rfl
  · rw [if_pos hok, State.stage_of_full hfull]; rfl
  · rw [if_pos hok, State.stage_of_room hroom]; rfl

theorem exec_stageAssign_eq (l : Link) (slot n : Nat) (s : State) : exec (.stageAssign l slot n) s =
    .next (s.command l .transport (.stageAssign l slot n) (fun t => t.bodyStageAssign slot n)) := rfl

theorem exec_stageRelease_eq (l : Link) (slot : Nat) (s : State) : exec (.stageRelease l slot) s =
    .next (s.command l .transport (.stageRelease l slot) (fun t => t.bodyStageRelease slot)) := rfl

theorem exec_discardStaging_eq (l : Link) (s : State) : exec (.discardStaging l) s =
    .next (s.command l .transport (.discardStaging l) State.bodyDiscardStaging) := rfl

/-- Settles O25: the two staging commands are cases of `State.command_stages`; a discard has no condition. -/
theorem editsAreStaged : Obligations.EditsAreStaged := by
  refine ⟨fun s => ⟨fun slot n h => ?_, fun slot h => ?_⟩, fun s h => ?_⟩
  · simpa only [exec_stageAssign_eq, Host.Outcome.next.injEq] using
      State.command_stages h (s.bodyStageAssign_eq slot n)
  · simpa only [exec_stageRelease_eq, Host.Outcome.next.injEq] using
      State.command_stages (body := fun t => t.bodyStageRelease slot) h rfl
  · rw [exec_discardStaging_eq, State.command_heard h rfl]; rfl

end Sys2Proof.Machine
end

section
/-! CANCEL_REQUEST (section 7.1, R110): which entry the block of the command withdraws, and what it answers. -/

namespace Sys2Proof.Machine

/-- A search for a circuit that no entry names finds nothing. -/
theorem Entry.find?_none {es : List Entry} {n : Nat} (h : ∀ x, x ∈ es → x.circuit ≠ n) :
    es.find? (fun x => x.circuit == n) = none :=
  List.find?_eq_none.mpr fun x hx => by simpa using h x hx

/-- The only entry of its circuit is the one that a search for the circuit finds. -/
theorem Entry.find?_only {before after : List Entry} {e : Entry}
    (ho : ∀ x, x ∈ before ++ after → x.circuit ≠ e.circuit) :
    (before ++ e :: after).find? (fun x => x.circuit == e.circuit) = some e := by
  have hb := Entry.find?_none fun x hx => ho x (List.mem_append_left _ hx)
  rw [List.find?_append, hb, Option.none_or, List.find?_cons_of_pos (by simp)]

/-- Withdrawing a circuit from a queue that holds one entry of it takes this entry and keeps the others in order. -/
theorem Entry.filter_only {before after : List Entry} {e : Entry}
    (ho : ∀ x, x ∈ before ++ after → x.circuit ≠ e.circuit) :
    (before ++ e :: after).filter (fun x => x.circuit != e.circuit) = before ++ after := by
  have hkeep : (before ++ after).filter (fun x => x.circuit != e.circuit) = before ++ after :=
    List.filter_eq_self.mpr fun x hx => by simpa using ho x hx
  rw [List.filter_append, List.filter_cons_of_neg (by simp), ← List.filter_append, hkeep]

/-- A circuit has a parked entry exactly where its context holds one. -/
theorem State.parkedOf_eq_some_iff {s : State} {n c : Nat} {e : Entry} :
    s.parkedOf n = some (c, e) ↔ (s.circuit n).context = some c ∧ (s.ctx c).parked = some e := by
  unfold State.parkedOf
  cases (s.circuit n).context with
  | none => simp
  | some k =>
    simp only [Option.map_eq_some_iff, Prod.mk.injEq, Option.some.injEq]
    exact ⟨fun ⟨_, hp, hk, he⟩ => ⟨hk, hk ▸ he ▸ hp⟩, fun ⟨hk, hp⟩ => ⟨e, hk ▸ hp, hk, rfl⟩⟩

theorem circuitOk_iff {n : Nat} : circuitOk n = true ↔ n < 480 := decide_eq_true_iff

theorem State.bodyCancelRequest_of_bad {s : State} {n : Nat} (h : 480 ≤ n) :
    s.bodyCancelRequest n = s.refuse .badParam :=
  if_neg (mt circuitOk_iff.mp (Nat.not_lt.mpr h))

/-- A circuit with one queue entry loses it. -/
theorem State.bodyCancelRequest_of_queued {s : State} {before after : List Entry} {e : Entry} (hn : e.circuit < 480)
    (hq : s.queue = before ++ e :: after) (ho : ∀ x, x ∈ before ++ after → x.circuit ≠ e.circuit) :
    s.bodyCancelRequest e.circuit = State.done { s with queue := before ++ after } .ok e.cancelled := by
  rw [State.bodyCancelRequest, if_pos (circuitOk_iff.mpr hn), hq, Entry.find?_only ho, Entry.filter_only ho]

/-- A parked entry is withdrawn only where the queue holds no entry of the circuit. -/
theorem State.bodyCancelRequest_of_parked {s : State} {n c : Nat} {e : Entry} (hn : n < 480)
    (hq : ∀ x, x ∈ s.queue → x.circuit ≠ n) (hp : s.parkedOf n = some (c, e)) :
    s.bodyCancelRequest n = (s.setCtx c { s.ctx c with parked := none }).done .ok e.cancelled := by
  rw [State.bodyCancelRequest, if_pos (circuitOk_iff.mpr hn), Entry.find?_none hq, hp]
  rfl

theorem State.bodyCancelRequest_of_absent {s : State} {n : Nat} (hn : n < 480)
    (hq : ∀ x, x ∈ s.queue → x.circuit ≠ n) (hp : s.parkedOf n = none) :
    s.bodyCancelRequest n = s.refuse .notFound := by
  rw [State.bodyCancelRequest, if_pos (circuitOk_iff.mpr hn), Entry.find?_none hq, hp]

theorem exec_cancelRequest_eq (l : Link) (n : Nat) (s : State) : exec (.cancelRequest l n) s =
    .next (s.command l .transport (.cancelRequest l n) (fun t => t.bodyCancelRequest n)) := rfl

/-- CANCEL_REQUEST from link B is answered with its block's outcome. -/
theorem exec_cancelRequest_heard {s : State} {n : Nat} {r : Reply} (h : s.hears .b (.cancelRequest .b n))
    (hr : s.bodyCancelRequest n = r) :
    exec (.cancelRequest .b n) s = .next (r.state.replied .b r.status r.data) := by
  rw [exec_cancelRequest_eq, State.command_heard h rfl, hr]

/-- A broadcast frame with the code of CANCEL_REQUEST has no effect, on either link and at any length (R172, step 4). -/
theorem State.broadcastFrame_cancelRequest (s : State) (l : Link) {frame : List Byte} (h : par frame 0 = 0x99) :
    s.broadcastFrame l frame = s := by
  have hcat : catalogue l (commandParameters frame) (par frame 0) =
      some (.transport, 2, .cancelRequest l (par16 (commandParameters frame) 0)) := by rw [h]; rfl
  simp only [State.broadcastFrame, hcat, State.carryOut, ite_self]

/-- Settles O34: the block's outcome by where the circuit's entry stands: in the queue, parked, nowhere. -/
theorem cancelRequestWithdraws : Obligations.CancelRequestWithdraws := by
  intro n s
  refine ⟨fun h => ⟨fun hbad => ?bad, fun hn => ⟨?queued, fun hq => ⟨fun c e hc hp => ?parked, fun hno => ?absent⟩⟩⟩,
    fun h => ?wrongRole, fun l frame hcode => s.broadcastFrame_cancelRequest l hcode⟩
  case bad => exact exec_cancelRequest_heard h (State.bodyCancelRequest_of_bad hbad)
  case queued =>
    rintro before e after hq rfl ho
    exact exec_cancelRequest_heard h (State.bodyCancelRequest_of_queued hn hq ho)
  case parked =>
    have hpark := State.parkedOf_eq_some_iff.mpr ⟨hc, hp⟩
    exact exec_cancelRequest_heard h (State.bodyCancelRequest_of_parked hn hq hpark)
  case absent =>
    have hnone : s.parkedOf n = none := Option.eq_none_iff_forall_ne_some.mpr fun (c, e) hpark =>
      have ⟨hc, hp⟩ := State.parkedOf_eq_some_iff.mp hpark
      hno c e hc hp
    exact exec_cancelRequest_heard h (State.bodyCancelRequest_of_absent hn hq hnone)
  case wrongRole => rw [exec_cancelRequest_eq, State.command_refused h rfl]

end Sys2Proof.Machine
end

section
/-! Every row of the table through one relation between states: a relation that the operations of the blocks carry is carried
by every command, by every event of a link's line and by every row but those of time and power. -/

namespace Sys2Proof.Machine

/-! ### Controller commands by their blocks' bodies -/

/-- The link, the role and the body of a controller command; KEEPALIVE and APPLY_MAP, which refresh the watchdog and hold
their answer back, have none. -/
def commandBody : Instr → Option (Link × CommandRole × (State → Reply))
  | .equip l circuit group cls => some (l, .switch, fun t => t.bodyEquip circuit group cls)
  | .unequip l circuit => some (l, .switch, fun t => t.bodyUnequip circuit)
  | .setClass l circuit cls => some (l, .switch, fun t => t.bodySetClass circuit cls)
  | .setGroup l circuit group => some (l, .switch, fun t => t.bodySetGroup circuit group)
  | .hold l circuit => some (l, .switch, fun t => t.bodySetHeld circuit true)
  | .unhold l circuit => some (l, .switch, fun t => t.bodySetHeld circuit false)
  | .freeze l target => some (l, .switch, fun t => t.bodySetFrozen target true)
  | .thaw l target => some (l, .switch, fun t => t.bodySetFrozen target false)
  | .setMigration l target policy autoReturn hold limit window =>
      some (l, .transport, fun t => t.bodySetMigration target policy autoReturn hold limit window)
  | .readCircuits l first count => some (l, .either, fun t => t.bodyReadCircuits first count)
  | .readGroup l group => some (l, .either, fun t => t.bodyReadGroup group)
  | .setSignalling l target idle seize answer block seizeIndex clearIndex conditioning quiet =>
      some (l, .switch, fun t =>
        t.bodySetSignalling target idle seize answer block seizeIndex clearIndex conditioning quiet)
  | .insertSpan l span mode => some (l, .switch, fun t => t.bodyInsertSpan span mode)
  | .bypassSpan l span mode => some (l, .switch, fun t => t.bodyBypassSpan span mode)
  | .cancelSpan l span => some (l, .switch, fun t => t.bodyCancelSpan span)
  | .readSpan l span => some (l, .either, fun t => t.bodyReadSpan span)
  | .setFibreThreshold l threshold => some (l, .transport, fun t => t.bodySetFibreThreshold threshold)
  | .stageAssign l slot circuit => some (l, .transport, fun t => t.bodyStageAssign slot circuit)
  | .stageRelease l slot => some (l, .transport, fun t => t.bodyStageRelease slot)
  | .discardStaging l => some (l, .transport, State.bodyDiscardStaging)
  | .readMap l first count => some (l, .either, fun t => t.bodyReadMap first count)
  | .readStaging l => some (l, .either, State.bodyReadStaging)
  | .setAlignment l n spread walk timeout => some (l, .transport, fun t => t.bodySetAlignment n spread walk timeout)
  | .request l circuit direction => some (l, .transport, fun t => t.bodyRequest circuit direction)
  | .cancelRequest l circuit => some (l, .transport, fun t => t.bodyCancelRequest circuit)
  | .setAdmission l requireA requireB bridge step =>
      some (l, .transport, fun t => t.bodySetAdmission requireA requireB bridge step)
  | .readQueue l first count => some (l, .either, fun t => t.bodyReadQueue first count)
  | .abortContext l context => some (l, .transport, fun t => t.bodyAbortContext context)
  | .resetMigration l => some (l, .transport, State.bodyResetMigration)
  | .readContext l context => some (l, .either, fun t => t.bodyReadContext context)
  | .setPeerSilentTime l time => some (l, .transport, fun t => t.bodySetPeerSilentTime time)
  | .readPeer l part => some (l, .either, fun t => t.bodyReadPeer part)
  | .setFaultPolicy l kind scope enabled actions =>
      some (l, .transport, fun t => t.bodySetFaultPolicy kind scope enabled actions)
  | .clearFault l kind scope => some (l, .either, fun t => t.bodyClearFault kind scope)
  | .readFaults l => some (l, .either, State.bodyReadFaults)
  | .clearLockout l target => some (l, .transport, fun t => t.bodyClearLockout target)
  | .commit l circuit => some (l, .transport, fun t => t.bodyCommit circuit)
  | .uncommit l circuit => some (l, .transport, fun t => t.bodyUncommit circuit)
  | .readStatus l => some (l, .either, fun t => t.bodyReadStatus l)
  | .readCounters l clear => some (l, .either, fun t => t.bodyReadCounters clear)
  | .takeNotices l count => some (l, .either, fun t => t.bodyTakeNotices l count)
  | .setNoticeLevels l levels threshold => some (l, .either, fun t => t.bodySetNoticeLevels l levels threshold)
  | _ => none

/-- A command with a body is taken with it. -/
theorem State.runCommand_of_body {i : Instr} {l : Link} {role : CommandRole} {body : State → Reply}
    (h : commandBody i = some (l, role, body)) (s : State) : s.runCommand i = s.command l role i body := by
  cases i <;> first | cases h; rfl | cases h

/-- The commands that have no body of their own. -/
theorem State.runCommand_without_body {i : Instr} (h : commandBody i = none) (s : State) :
    (∃ l, i = .keepalive l ∧ s.runCommand i = s.cmdKeepalive l)
    ∨ (∃ l, i = .applyMap l ∧ s.runCommand i = s.cmdApplyMap l) ∨ s.runCommand i = s := by
  cases i <;> first | (cases h; done) | exact .inr (.inr rfl) | skip
  case keepalive l => exact .inl ⟨l, rfl, rfl⟩
  case applyMap l => exact .inr (.inl ⟨l, rfl, rfl⟩)

/-! ### Reads change nothing -/

theorem State.bodyReadCircuits_state (s : State) (f c : Nat) : (s.bodyReadCircuits f c).state = s := by
  unfold State.bodyReadCircuits
  split <;> rfl

theorem State.bodyReadGroup_state (s : State) (g : Nat) : (s.bodyReadGroup g).state = s := by
  unfold State.bodyReadGroup
  split <;> rfl

theorem State.bodyReadSpan_state (s : State) (x : Nat) : (s.bodyReadSpan x).state = s := by
  unfold State.bodyReadSpan
  split <;> rfl

theorem State.bodyReadMap_state (s : State) (f c : Nat) : (s.bodyReadMap f c).state = s := by
  unfold State.bodyReadMap
  split <;> rfl

theorem State.bodyReadQueue_state (s : State) (f c : Nat) : (s.bodyReadQueue f c).state = s := by
  unfold State.bodyReadQueue
  split <;> rfl

theorem State.bodyReadContext_state (s : State) (c : Nat) : (s.bodyReadContext c).state = s := by
  unfold State.bodyReadContext
  split <;> rfl

theorem State.bodyReadPeer_state (s : State) (p : Nat) : (s.bodyReadPeer p).state = s := by
  unfold State.bodyReadPeer
  split
  · rfl
  · split <;> rfl

/-- The commands that only answer. -/
def reads : Instr → Bool
  | .readCircuits .. | .readGroup .. | .readSpan .. | .readMap .. | .readStaging .. | .readQueue .. | .readContext ..
  | .readPeer .. | .readFaults .. | .readStatus .. => true
  | _ => false

theorem body_of_reads : ∀ {i l role body}, commandBody i = some (l, role, body) → reads i = true →
    ∀ s, (body s).state = s
  | .readCircuits .., _, _, _, rfl, _, s => s.bodyReadCircuits_state _ _
  | .readGroup .., _, _, _, rfl, _, s => s.bodyReadGroup_state _
  | .readSpan .., _, _, _, rfl, _, s => s.bodyReadSpan_state _
  | .readMap .., _, _, _, rfl, _, s => s.bodyReadMap_state _ _
  | .readStaging .., _, _, _, rfl, _, _ => rfl
  | .readQueue .., _, _, _, rfl, _, s => s.bodyReadQueue_state _ _
  | .readContext .., _, _, _, rfl, _, s => s.bodyReadContext_state _
  | .readPeer .., _, _, _, rfl, _, s => s.bodyReadPeer_state _
  | .readFaults .., _, _, _, rfl, _, _ => rfl
  | .readStatus .., _, _, _, rfl, _, _ => rfl

/-- The boundary event that a row takes, if the row takes one. -/
def rowEvent : Instr → Option BoundaryEvent
  | .slowTick => some .slowTick
  | .windowEnd => some .windowEnd
  | .drainComplete x => some (.drainComplete x)
  | .admission => some .admission
  | .walkSlot => some .walkSlot
  | .switch c => some (.switch c)
  | .abortReturn c => some (.abortReturn c)
  | .abortingEnd c => some (.abortingEnd c)
  | .lingerExpiry x => some (.lingerExpiry x)
  | .bridgeTimeout c => some (.bridgeTimeout c)
  | .stepTimeout c => some (.stepTimeout c)
  | .poolTimeout => some .poolTimeout
  | .linkSilent l => some (.linkSilent l)
  | .revert => some .revert
  | .windowExpiry g => some (.windowExpiry g)
  | .mapApply => some .mapApply
  | _ => none

/-- The row of a boundary event takes it as a boundary does. -/
theorem exec_of_rowEvent {i : Instr} {e : BoundaryEvent} (h : rowEvent i = some e) (s : State) :
    exec i s = .next (s.perform e) := by
  cases i <;> first | cases h; rfl | cases h

/-- The row of a controller command is the command. -/
theorem exec_of_sent {i : Instr} (h : (sentCommand i).isSome = true) (s : State) : exec i s = .next (s.runCommand i) := by
  cases i <;> first | rfl | cases h

/-! ### Relations that the part's operations carry -/

/-- The operations of the blocks lead from a state only to states that `R` relates to it. -/
structure Carried (R : State → State → Prop) : Prop where
  refl : ∀ s, R s s
  trans : ∀ {s t u}, R s t → R t u → R s u
  settle : ∀ s, R s s.settle
  serviceAll : ∀ s, R s s.serviceAll
  completeIfDue : ∀ s c, R s (s.completeIfDue c)
  startIfDue : ∀ s c, R s (s.startIfDue c)
  measureIfDue : ∀ s c, R s (s.measureIfDue c)
  markerTimeoutIfDue : ∀ s c, R s (s.markerTimeoutIfDue c)
  ageOut : ∀ s x, R s (s.ageOut x)
  declareSilentIfDue : ∀ s, R s s.declareSilentIfDue
  declareMarkerLoss : ∀ s x, R s (s.declareMarkerLoss x)
  receiveCopper : ∀ s side x p b ss cs, R s (s.receiveCopper side x p b ss cs)
  receiveCarriage : ∀ s p b, R s (s.receiveCarriage p b)
  perform : ∀ s e, R s (s.perform e)
  change : ∀ {i l role body}, commandBody i = some (l, role, body) → reads i = false → ∀ s, R s (body s).state
  answer : ∀ s l st d, R s (s.answer l st d)
  onLink : ∀ {s l} {f : LinkRec → LinkRec}, (f (s.link l)).notices = (s.link l).notices →
    (f (s.link l)).overflow = (s.link l).overflow → (f (s.link l)).threshold = (s.link l).threshold →
    (f (s.link l)).attention = (s.link l).attention → R s (s.modLink l f)
  forget : ∀ s e, R s (s.forget e)
  raise : ∀ s e, R s (s.raise e)
  pendApply : ∀ s p a, R s { s with map := { s.map with applyPending := p, applyAnswer := a } }

namespace Carried

variable {R : State → State → Prop} (h : Carried R)
include h

omit h in
theorem ite {p : Prop} [Decidable p] {s t u : State} (ht : R s t) (hu : R s u) : R s (if p then t else u) := by
  split
  · exact ht
  · exact hu

theorem event {s : State} {f : State → State} (hf : ∀ t, R t (f t)) : R s (s.event f) :=
  Carried.ite (h.trans (h.settle s) (hf _)) (h.refl s)

/-- A row that falls due with its cause settles the pool's service alone before it acts. -/
theorem service {s : State} {f : State → State} (hf : ∀ t, R t (f t)) :
    R s (if s.powered then f s.serviceAll else s) :=
  Carried.ite (h.trans (h.serviceAll s) (hf _)) (h.refl s)

theorem respond (s : State) (l : Link) (st : Status) (d : List Byte) : R s (s.respond l st d) :=
  h.trans (h.onLink rfl rfl rfl rfl) (h.answer _ _ _ _)

theorem command {s : State} {l : Link} {role : CommandRole} {i : Instr} {body : State → Reply}
    (hb : ∀ t, R t (body t).state) : R s (s.command l role i body) :=
  h.event (fun _ => Carried.ite (Carried.ite (h.trans (hb _) (h.respond _ _ _ _)) (h.respond _ _ _ _)) (h.refl _))

/-- The body of a command, one that reads or one that changes something. -/
theorem body {i : Instr} {l : Link} {role : CommandRole} {b : State → Reply} (hb : commandBody i = some (l, role, b))
    (s : State) : R s (b s).state := by
  cases hr : reads i with
  | true => rw [body_of_reads hb hr]; exact h.refl s
  | false => exact h.change hb hr s

theorem silenceIfDue (s : State) (l : Link) : R s (s.silenceIfDue l) :=
  Carried.ite (h.trans (h.onLink rfl rfl rfl rfl) (h.raise _ _)) (h.refl s)

theorem refreshWatchdog (s : State) (l : Link) : R s (s.refreshWatchdog l) := by
  have hu : R s (s.takeOwed (.linkSilent l) (fun t => t.silenceIfDue l)) :=
    Carried.ite (h.trans (h.forget _ _) (h.silenceIfDue _ l)) (h.refl s)
  have hv := h.trans hu (h.onLink (l := l) (f := fun k => { k with watchdog := some 0, alive := true }) rfl rfl rfl rfl)
  exact Carried.ite hv (h.trans hv (h.raise _ _))

theorem cmdKeepalive (s : State) (l : Link) : R s (s.cmdKeepalive l) :=
  h.event (fun t => Carried.ite (h.trans (Carried.ite (h.refl t) (h.refreshWatchdog t l)) (h.respond _ _ _ _)) (h.refl t))

theorem cmdApplyMap (s : State) (l : Link) : R s (s.cmdApplyMap l) :=
  h.event (fun t => Carried.ite (Carried.ite (h.trans (h.pendApply t true true) (h.onLink rfl rfl rfl rfl)) (h.respond _ _ _ _))
    (h.refl t))

theorem runCommand (s : State) (i : Instr) : R s (s.runCommand i) := by
  cases hb : commandBody i with
  | some b =>
    rw [State.runCommand_of_body hb]
    exact h.command (h.body hb)
  | none =>
    obtain ⟨l, -, e⟩ | ⟨l, -, e⟩ | e := s.runCommand_without_body hb
    · rw [e]; exact h.cmdKeepalive s l
    · rw [e]; exact h.cmdApplyMap s l
    · rw [e]; exact h.refl s

/-! ### Frames on the control links -/

theorem carryOut (s : State) (i : Instr) : R s (s.carryOut i) := by
  cases i <;> first | exact h.refl s | exact h.body (i := .freeze .a _) rfl s | exact h.body (i := .thaw .a _) rfl s | skip
  case setNoticeLevels l levels threshold => exact h.body (i := .setNoticeLevels l levels threshold) rfl s

theorem dispatchFrame (s : State) (l : Link) (b : List Byte) : R s (s.dispatchFrame l b) := by
  have hu : R s (s.modLink l (fun k => { k with rx := .answering })) := h.onLink rfl rfl rfl rfl
  have ha := fun st => h.trans hu (h.answer _ l st [])
  unfold State.dispatchFrame
  dsimp only
  split
  · exact ha .badCommand
  · exact Carried.ite (ha .notPermitted) (Carried.ite (ha .badParam) (h.trans hu (h.onLink rfl rfl rfl rfl)))

theorem broadcastFrame (s : State) (l : Link) (b : List Byte) : R s (s.broadcastFrame l b) := by
  unfold State.broadcastFrame
  split
  · exact h.refl s
  · exact Carried.ite (h.carryOut s _) (h.refl s)

theorem addressFrame (s : State) (l : Link) (b : List Byte) : R s (s.addressFrame l b) :=
  have hr := h.refreshWatchdog s l
  Carried.ite (h.trans hr (h.broadcastFrame _ l b)) (Carried.ite (h.trans hr (h.dispatchFrame _ l b)) (h.refl s))

theorem judgeCommand (s : State) (l : Link) : R s (s.judgeCommand l) :=
  have hu : R s (s.modLink l (fun k => { k with rx := .hunt, buffer := [] })) := h.onLink rfl rfl rfl rfl
  Carried.ite (Carried.ite (h.trans hu (h.addressFrame _ l _)) (h.trans hu (h.onLink rfl rfl rfl rfl))) (h.refl s)

theorem settleLink (s : State) (l : Link) : R s (s.settleLink l) := by
  unfold State.settleLink
  dsimp only
  split
  · exact h.trans (h.judgeCommand s l) (h.runCommand _ _)
  · exact h.judgeCommand s l

end Carried

/-- The updates of a link's record that its line makes leave its notice account. -/
structure LinkRec.SameAccount (j k : LinkRec) : Prop where
  notices : j.notices = k.notices
  overflow : j.overflow = k.overflow
  threshold : j.threshold = k.threshold
  attention : j.attention = k.attention

namespace LinkRec.SameAccount

theorem refl (k : LinkRec) : LinkRec.SameAccount k k := ⟨rfl, rfl, rfl, rfl⟩

theorem abandon (k : LinkRec) : k.abandon.SameAccount k := ⟨rfl, rfl, rfl, rfl⟩

theorem ite {p : Prop} [Decidable p] {i j k : LinkRec} (hi : i.SameAccount k) (hj : j.SameAccount k) :
    (if p then i else j).SameAccount k := by
  split
  · exact hi
  · exact hj

theorem character (k : LinkRec) (b : Byte) : (k.character b).SameAccount k := by
  unfold LinkRec.character
  split
  · exact ite ⟨rfl, rfl, rfl, rfl⟩ (refl k)
  · exact ite (abandon k) ⟨rfl, rfl, rfl, rfl⟩
  all_goals exact refl k

theorem characterError (k : LinkRec) : k.characterError.SameAccount k := by
  unfold LinkRec.characterError
  split
  · exact abandon k
  · exact abandon k
  all_goals exact refl k

theorem gap (k : LinkRec) : k.gap.SameAccount k := ite (abandon k) (refl k)

theorem responseSent (k : LinkRec) : k.responseSent.SameAccount k := ite ⟨rfl, rfl, rfl, rfl⟩ (refl k)

theorem sync (k : LinkRec) (held : Bool) (rate : Nat) (b : Byte) (stop : Bool) :
    (k.sync held rate b stop).SameAccount k :=
  ite (ite ⟨rfl, rfl, rfl, rfl⟩ ⟨rfl, rfl, rfl, rfl⟩) (refl k)

end LinkRec.SameAccount

namespace Carried

variable {R : State → State → Prop} (h : Carried R)
include h

theorem onLine {s : State} {l : Link} {f : LinkRec → LinkRec} (hf : (f (s.link l)).SameAccount (s.link l)) :
    R s (s.modLink l f) :=
  h.onLink hf.notices hf.overflow hf.threshold hf.attention

theorem lineEvent (s : State) (l : Link) {f : LinkRec → LinkRec} (hf : ∀ k, (f k).SameAccount k) :
    R s (s.lineEvent l f) :=
  h.event (fun t => h.trans (h.settleLink t l) (h.onLine (hf _)))

theorem resetLine (s : State) (l : Link) : R s (s.resetLine l) := by
  cases l
  · exact h.onLink rfl rfl rfl rfl
  · exact h.trans (h.onLink (l := .b) (f := LinkRec.lineReset) rfl rfl rfl rfl) (h.pendApply _ _ false)

/-- Every row but those of time and power. -/
theorem row {i : Instr} {s t : State} (ht : exec i s = .next t) (hr : ∀ c a b w, i ≠ .coldReset c a b w)
    (hp : i ≠ .powerOff) (hf : i ≠ .frame) (hb : ∀ es, i ≠ .superframeBoundary es) : R s t := by
  cases he : rowEvent i with
  | some e =>
    rw [exec_of_rowEvent he] at ht
    cases ht
    exact h.perform s e
  | none =>
    cases hs : (sentCommand i).isSome with
    | true =>
      rw [exec_of_sent hs] at ht
      cases ht
      exact h.runCommand s i
    | false =>
      cases i <;> first | (cases he; done) | (cases hs; done) | skip
      case coldReset c a b w => exact absurd rfl (hr c a b w)
      case powerOff => exact absurd rfl hp
      case frame => exact absurd rfl hf
      case superframeBoundary es => exact absurd rfl (hb es)
      case copperFrameReceive side x p b ss cs =>
        cases ht
        exact h.event (fun t => Carried.ite (h.receiveCopper t side x p b ss cs) (h.refl t))
      case carriageFrameReceive p b => cases ht; exact h.event (fun t => h.receiveCarriage t p b)
      case measurementComplete c => cases ht; exact h.service (f := fun t => t.measureIfDue c) (fun t => h.measureIfDue t c)
      case attemptStart c => cases ht; exact h.service (f := fun t => t.startIfDue c) (fun t => h.startIfDue t c)
      case contextCompletion c => cases ht; exact h.service (f := fun t => t.completeIfDue c) (fun t => h.completeIfDue t c)
      case poolService => cases ht; exact h.service h.refl
      case peerSilent => cases ht; exact Carried.ite (h.declareSilentIfDue s) (h.refl s)
      case markerLoss x => cases ht; exact h.event (fun t => h.declareMarkerLoss t x)
      case markerTimeout c => cases ht; exact h.event (fun t => h.markerTimeoutIfDue t c)
      case ageOut x => cases ht; exact h.event (fun t => h.ageOut t x)
      case commandFrame l => cases ht; exact h.event (fun t => h.judgeCommand t l)
      case lineReset l => cases ht; exact h.event (fun t => h.trans (h.settleLink t l) (h.resetLine _ l))
      case syncCharacter l rate bits stop =>
        cases ht
        exact h.event (fun t => h.trans (h.settleLink t l) (h.onLine (LinkRec.SameAccount.sync _ _ _ _ _)))
      case characterError l => cases ht; exact h.lineEvent s l LinkRec.SameAccount.characterError
      case interByteTimeout l => cases ht; exact h.lineEvent s l LinkRec.SameAccount.gap
      case responseSent l => cases ht; exact h.lineEvent s l LinkRec.SameAccount.responseSent
      case character l bits => cases ht; exact h.lineEvent s l (fun k => LinkRec.SameAccount.character k _)

end Carried
end Sys2Proof.Machine
end

section
/-! The laws of the whole part through every row of the table: the bodies of the commands, the relation `Keeps` carried, and
the frame. -/

namespace Sys2Proof.Machine

namespace Keeps

/-! ### Circuits that join, leave or change a group -/

/-- A circuit whose call is not counted before an update and not after it. -/
theorem uncounted {s : State} {n : Nat} {f : Circuit → Circuit} (hslot : (f (s.circuit n)).slot = (s.circuit n).slot)
    (hgroup : (s.circuit n).group < 16 → (f (s.circuit n)).group < 16)
    (hidle : ((s.circuit n).equipped = false → (s.circuit n).call = .idle) →
      (f (s.circuit n)).equipped = false → (f (s.circuit n)).call = .idle)
    (hbefore : ((s.circuit n).equipped && (s.circuit n).call.busy) = false)
    (hafter : ((f (s.circuit n)).equipped && (f (s.circuit n)).call.busy) = false) : Keeps s (s.modCircuit n f) := by
  have hread := fun m => s.circuit_modCircuit n m f
  refine ⟨id, id, id, id, id, id, id, maps_of rfl rfl fun m => ?slot, fun hb => ?busy, id, id, rfl, id, id, id⟩
  case slot =>
    rw [hread]
    split
    · next hm => rw [hm.1]; exact hslot
    · rfl
  case busy =>
    obtain ⟨hgroups, hidles, hcount⟩ := hb
    refine ⟨fun m => ?_, fun m hm => ?_, fun j hj => (hcount j hj).trans (List.countP_congr fun m _ => ?_)⟩
    · rw [hread]
      split
      · exact hgroup (hgroups n)
      · exact hgroups m
    · rw [hread] at hm ⊢
      split at hm
      · next h => rw [if_pos h]; exact hidle (hidles n) hm
      · next h => rw [if_neg h]; exact hidles m hm
    · rw [hread]
      split
      · next h =>
        rw [h.1]
        simp only [Bool.and_eq_true, Bool.and_eq_false_iff] at *
        grind
      · rfl

theorem equip {s : State} {n g : Nat} {k : TrafficClass} (hg : g < 16) (he : (s.circuit n).equipped = false) :
    Keeps s (s.equip n g k) :=
  trans (uncounted (f := fun c => c.equip g k (s.group g).idle) rfl (fun _ => hg) (fun _ h => absurd h (by simp [Circuit.equip]))
    (by simp [he]) rfl) (recondition _ n)

theorem same_unequip (c : Circuit) (idle : Code) :
    (c.unequip idle).slot = c.slot ∧ (c.unequip idle).group = c.group ∧ (c.unequip idle).call = .idle
      ∧ (c.unequip idle).equipped = false := by
  unfold Circuit.unequip Circuit.dropForUnequip
  split
  · exact ⟨rfl, rfl, rfl, rfl⟩
  · cases hp : c.residualPath <;> exact ⟨rfl, rfl, rfl, rfl⟩

/-- UNEQUIP as a call that ends, with its count, and a circuit that then leaves. -/
theorem unequip_eq (s : State) (n : Nat) : s.unequip n =
    ((((s.modCircuit n (fun c => { c with call := .idle })).modGroup (s.circuit n).group
        (fun g => g.countChange (s.circuit n).call .idle)).modCircuit n
      (fun _ => (s.circuit n).unequip (s.group (s.circuit n).group).idle)).returnCells
        (if (s.circuit n).residual = 0 then 0 else (s.circuit n).cellsHeld)) := by
  simp only [State.unequip, State.modCircuit, State.modGroup, State.setCircuit, State.setGroup, Table.put_put]
  rfl

theorem unequip {s : State} {n : Nat} (he : (s.circuit n).equipped = true) : Keeps s (s.unequip n) := by
  obtain ⟨hslot, hgroup, hcall, hequipped⟩ := same_unequip (s.circuit n) (s.group (s.circuit n).group).idle
  have hread : (s.modCircuit n (fun c => { c with call := .idle })).circuit n = { s.circuit n with call := .idle } := by
    rw [State.circuit_modCircuit, if_pos ⟨rfl, Sound.equipped_lt he⟩]
  rw [unequip_eq]
  refine ((callCounted he).trans (uncounted ?_ ?_ ?_ ?_ ?_)).trans (returnCells _ _)
  · rw [State.circuit_modGroup, hread, hslot]
  · rw [State.circuit_modGroup, hread, hgroup]; exact id
  · exact fun _ _ => hcall
  · rw [State.circuit_modGroup, hread]; exact Bool.and_false _
  · rw [hequipped]; rfl

theorem same_regroup (c : Circuit) (g : Nat) (idle : Code) : (c.regroup g idle).slot = c.slot
    ∧ (c.regroup g idle).group = g ∧ (c.regroup g idle).equipped = c.equipped ∧ (c.regroup g idle).call = c.call := by
  unfold Circuit.regroup
  split <;> exact ⟨rfl, rfl, rfl, rfl⟩

theorem regroup {s : State} {n g : Nat} (hg : g < 16)
    (hi : ((s.circuit n).equipped && (s.circuit n).call != .idle) = false) :
    Keeps s (s.modCircuit n (fun c => c.regroup g (s.group g).idle)) := by
  obtain ⟨hslot, hgroup, hequipped, hcall⟩ := same_regroup (s.circuit n) g (s.group g).idle
  have hnot : ((s.circuit n).equipped && (s.circuit n).call.busy) = false := by
    cases he : (s.circuit n).equipped <;> cases hc : (s.circuit n).call <;> simp_all [CallState.busy]
  refine uncounted hslot (fun _ => ?_) (fun h => ?_) hnot ?_
  · rw [hgroup]; exact hg
  · rw [hequipped, hcall]; exact h
  · rw [hequipped, hcall]; exact hnot

/-! ### The other bodies that change more than a field -/

theorem foldl_mem {α : Type} {f : State → α → State} {l : List α} (h : ∀ t a, a ∈ l → Keeps t (f t a)) (s : State) :
    Keeps s (l.foldl f s) := by
  induction l generalizing s with
  | nil => exact refl s
  | cons a rest ih =>
    exact (h s a (List.mem_cons_self ..)).trans (ih (fun t b hb => h t b (List.mem_cons_of_mem _ hb)) _)

/-- New signalling values reach equipped circuits one by one. -/
theorem resignalAll {ns : List Nat} {m : SignallingSettings} {s : State}
    (he : ∀ n, n ∈ ns → (s.circuit n).equipped = true) :
    Keeps s (ns.foldl (fun t n => (t.modCircuit n (fun c => c.resignal m)).deriveCall n) s) := by
  induction ns generalizing s with
  | nil => exact refl s
  | cons n rest ih =>
    have hsame : ∀ k, ((s.modCircuit n (fun c => c.resignal m)).circuit k).equipped = (s.circuit k).equipped :=
      fun k => equipped_modCircuit rfl
    have hstep : Keeps s ((s.modCircuit n (fun c => c.resignal m)).deriveCall n) :=
      (modCircuit ⟨rfl, rfl, rfl, rfl⟩).trans (deriveCall ((hsame n).trans (he n (List.mem_cons_self ..))))
    refine hstep.trans (ih fun k hk => ?_)
    rw [(Rederived.deriveCall _ n).circuit k]
    exact (hsame k).trans (he k (List.mem_cons_of_mem _ hk))

theorem setSignalling (s : State) (gs : List Nat) (m : SignallingSettings) : Keeps s (s.setSignalling gs m) := by
  refine (modGroups (gs := gs) (f := fun g => g.withSignalling m) fun _ => rfl).trans (resignalAll fun n hn => ?_)
  have hmem := (List.mem_filter.mp hn).2
  exact (Bool.and_eq_true _ _ ▸ hmem).1

theorem takeSpan (s : State) (x : Nat) (new : SpanState) : Keeps s (s.takeSpan x new) := ite (refl s) (moveSpan s x new)

theorem stage (s : State) {e : Edit} (he : e.inRange) : Keeps s (s.stage e).state := by
  unfold State.stage
  split
  · next hroom =>
    refine ⟨id, fun _ => ?_, id, id, id, id, id, fun hm => ⟨hm.1, hm.2.1, hm.2.2.1, ?_⟩, id, id, id, rfl, id, id, id⟩
    · show (s.map.staging ++ [e]).length ≤ 32
      rw [List.length_append]
      exact hroom
    · intro x hx
      obtain hold | hnew := List.mem_append.mp hx
      · exact hm.2.2.2 x hold
      · rw [List.mem_singleton.mp hnew]
        cases e <;> exact he
  · exact refl s

theorem discardStaging (s : State) : Keeps s s.bodyDiscardStaging.state :=
  ⟨id, fun _ => Nat.zero_le _, id, id, id, id, id, fun hm => ⟨hm.1, hm.2.1, hm.2.2.1, fun _ h => nomatch h⟩, id, id, id, rfl,
    id, id, id⟩

theorem discardEntries (s : State) : Keeps s s.discardEntries := trivially rfl rfl rfl rfl rfl rfl rfl rfl rfl rfl rfl rfl

theorem resetMigration (s : State) : Keeps s s.resetMigration := by
  have h := (discardEntries s).trans (foldl (f := fun t c => State.abort t c .reset) (fun t c => abort t c _ _) s.running _)
  refine h.trans ?_
  unfold State.resetMigration
  generalize s.running.foldl (fun t c => State.abort t c .reset) s.discardEntries = u
  exact ⟨fun _ => Nat.zero_le _, id, fun ha => by simpa [PeerExchange.resetMigration] using ha, fun _ => Nat.zero_le _, id, id,
    id, id, id, id, id, rfl, id, id, id⟩

theorem readScope_lt {k : FaultKind} {scope : Nat} {spans : List Nat} (h : readScope k scope = some spans) :
    ∀ x, x ∈ spans → x < 16 := by
  unfold readScope at h
  split at h
  · split at h
    · cases h; simp
    · cases h
  · split at h
    · next hx => cases h; simpa using hx
    · split at h
      · cases h; exact fun x hx => List.mem_range.mp hx
      · cases h

theorem acknowledge (s : State) (k : FaultKind) (x : Nat) : Keeps s (s.acknowledge k x) :=
  ite (refl s) (setFault_less rfl id (fun h => absurd h (by simp)) rfl)

theorem clearLockout (s : State) (g : Nat) : Keeps s (s.clearLockout g) :=
  ((forget s _).trans (modGroup (f := fun g => { g with lockedOut := false, revertCount := 0, windowTimer := none })
    fun _ => rfl)).trans (restate _ _ _ _)

theorem clearCounters (s : State) : Keeps s s.clearCounters :=
  ⟨id, id, id, id, id, id, id, id, id, id, id, rfl, id, id, id⟩

theorem takeNotices (s : State) (l : Link) (n : Nat) : Keeps s (s.modLink l (fun k => k.take n)) :=
  modLink (fun h => Nat.le_trans (by simp [LinkRec.take, LinkRec.refresh]) h) (fun _ => refresh_right _)

theorem setLevels (s : State) (l : Link) (ns : List Nat) (n : Nat) : Keeps s (s.modLink l (fun k => k.withLevels ns n)) :=
  modLink id (fun _ => refresh_right _)

/-! ### The body of every command -/

theorem bodyEquip (s : State) (n g k : Nat) : Keeps s (s.bodyEquip n g k).state := by
  unfold State.bodyEquip
  split
  · next hr =>
    split
    · split
      · exact refl s
      · next he => exact equip hr.2 (Bool.not_eq_true _ ▸ he)
    · exact refl s
  · exact refl s

theorem bodyUnequip (s : State) (n : Nat) : Keeps s (s.bodyUnequip n).state := by
  unfold State.bodyUnequip
  split
  · split
    · exact refl s
    · next hr => exact unequip (by simp at hr; exact hr.1.1)
  · exact refl s

theorem bodySetClass (s : State) (n k : Nat) : Keeps s (s.bodySetClass n k).state := by
  unfold State.bodySetClass
  split
  · split
    · split
      · exact refl s
      · exact modCircuit (f := fun c => { c with cls := _ }) ⟨rfl, rfl, rfl, rfl⟩
    · exact refl s
  · exact refl s

theorem bodySetGroup (s : State) (n g : Nat) : Keeps s (s.bodySetGroup n g).state := by
  unfold State.bodySetGroup
  split
  · next hr =>
    dsimp only
    split
    · exact refl s
    · next hn =>
      split
      · exact refl s
      · simp only [Bool.or_eq_true, not_or, Bool.not_eq_true] at hn
        exact regroup hr.2 hn.2
  · exact refl s

theorem bodySetHeld (s : State) (n : Nat) (b : Bool) : Keeps s (s.bodySetHeld n b).state := by
  unfold State.bodySetHeld
  split
  · exact modCircuit (f := fun c => { c with held := b }) ⟨rfl, rfl, rfl, rfl⟩
  · exact refl s

theorem bodySetFrozen (s : State) (x : Nat) (b : Bool) : Keeps s (s.bodySetFrozen x b).state := by
  unfold State.bodySetFrozen
  split
  · exact modGroups fun _ => rfl
  · exact refl s

theorem bodySetMigration (s : State) (x p a h m w : Nat) : Keeps s (s.bodySetMigration x p a h m w).state := by
  unfold State.bodySetMigration
  split
  · exact modGroups fun _ => rfl
  · exact refl s

theorem bodySetSignalling (s : State) (x i z a b zi ci c q : Nat) :
    Keeps s (s.bodySetSignalling x i z a b zi ci c q).state := by
  unfold State.bodySetSignalling
  split
  · split
    · exact refl s
    · exact setSignalling s _ _
  · exact refl s

theorem bodyInsertSpan (s : State) (x m : Nat) : Keeps s (s.bodyInsertSpan x m).state := by
  unfold State.bodyInsertSpan
  split
  · split
    · split
      · exact takeSpan s x _
      · exact refl s
    · exact refl s
  · exact refl s

theorem bodyBypassSpan (s : State) (x m : Nat) : Keeps s (s.bodyBypassSpan x m).state := by
  unfold State.bodyBypassSpan
  split
  · split
    · split
      · exact refl s
      · split
        · exact takeSpan s x _
        · exact refl s
    · exact refl s
  · exact refl s

theorem bodyCancelSpan (s : State) (x : Nat) : Keeps s (s.bodyCancelSpan x).state := by
  unfold State.bodyCancelSpan
  split
  · split
    · exact moveSpan s x _
    · exact refl s
  · exact refl s

theorem bodyStageAssign (s : State) (x n : Nat) : Keeps s (s.bodyStageAssign x n).state := by
  rw [State.bodyStageAssign_eq]
  split
  · next hr => exact stage s (e := .assign x n) hr
  · exact refl s

theorem bodyStageRelease (s : State) (x : Nat) : Keeps s (s.bodyStageRelease x).state := by
  unfold State.bodyStageRelease
  split
  · next hr => exact stage s (e := .release x) hr
  · exact refl s

/-- SET_ALIGNMENT and SET_ADMISSION write settings that no law reads. -/
theorem bodySetAlignment (s : State) (n d w p : Nat) : Keeps s (s.bodySetAlignment n d w p).state :=
  trivially rfl rfl rfl rfl rfl rfl rfl rfl rfl rfl rfl rfl

theorem bodySetAdmission (s : State) (a b x y : Nat) : Keeps s (s.bodySetAdmission a b x y).state := by
  unfold State.bodySetAdmission
  split
  · exact trivially rfl rfl rfl rfl rfl rfl rfl rfl rfl rfl rfl rfl
  · exact refl s

theorem requestRefused_none {s : State} {n : Nat} {d : Direction} (h : s.requestRefused n d = none) :
    s.queue.length < 64 := by
  refine Nat.lt_of_not_le fun hfull => ?_
  have hge : Config.queueLimit ≤ s.queue.length := hfull
  simp only [State.requestRefused, if_pos hge] at h
  split_ifs at h

theorem bodyRequest (s : State) (n d : Nat) : Keeps s (s.bodyRequest n d).state := by
  unfold State.bodyRequest
  split
  · split
    · split
      · exact refl s
      · next hn =>
        refine queued (q := s.queue ++ [s.newEntry n _]) fun _ => ?_
        rw [List.length_append]
        exact requestRefused_none hn
    · exact refl s
  · exact refl s

theorem bodyCancelRequest (s : State) (n : Nat) : Keeps s (s.bodyCancelRequest n).state := by
  unfold State.bodyCancelRequest
  split
  · split
    · exact queued (q := s.queue.filter (fun x => x.circuit != n)) (Nat.le_trans (List.length_filter_le _ _))
    · split
      · exact modCtx s _ (fun x => { x with parked := none })
      · exact refl s
  · exact refl s

theorem bodyAbortContext (s : State) (c : Nat) : Keeps s (s.bodyAbortContext c).state := by
  unfold State.bodyAbortContext
  split
  · dsimp only
    split
    · exact refl s
    · split
      · exact refl s
      · exact abort s c _ _
  · exact refl s

theorem bodySetPeerSilentTime (s : State) (x : Nat) : Keeps s (s.bodySetPeerSilentTime x).state :=
  (peer (p := { s.peer with silentTime := clamp 10 1000 x }) id id).trans (declareSilentIfDue _)

theorem bodySetFaultPolicy (s : State) (k x e a : Nat) : Keeps s (s.bodySetFaultPolicy k x e a).state := by
  unfold State.bodySetFaultPolicy
  split
  · next k' e' a' _ _ _ =>
    split
    · next spans hs =>
      split
      · next hw => exact foldl_mem (f := fun t x => t.setPolicy k' e' a' x) (fun t x hx => setPolicy (readScope_lt hs x hx) hw) s
      · exact refl s
    · exact refl s
  · exact refl s

theorem bodyClearFault (s : State) (k x : Nat) : Keeps s (s.bodyClearFault k x).state := by
  unfold State.bodyClearFault
  split
  · next k' _ =>
    split
    · exact foldl (f := fun t x => t.acknowledge k' x) (fun t x => acknowledge t k' x) _ s
    · exact refl s
  · exact refl s

theorem bodyClearLockout (s : State) (x : Nat) : Keeps s (s.bodyClearLockout x).state := by
  unfold State.bodyClearLockout
  split
  · exact foldl clearLockout _ s
  · exact refl s

/-- A circuit takes a state of R5. -/
theorem enter (s : State) (n : Nat) (st : MigState) : Keeps s (s.modCircuit n (fun c => c.enter st)) :=
  modCircuit ⟨rfl, rfl, rfl, rfl⟩

theorem bodyCommit (s : State) (n : Nat) : Keeps s (s.bodyCommit n).state := by
  unfold State.bodyCommit
  split
  · split
    · exact refl s
    · exact (enter s n _).trans (recondition _ n)
  · exact refl s

theorem bodyUncommit (s : State) (n : Nat) : Keeps s (s.bodyUncommit n).state := by
  unfold State.bodyUncommit
  split
  · split
    · exact refl s
    · exact (enter s n _).trans (recondition _ n)
  · exact refl s

theorem bodyReadCounters (s : State) (x : Nat) : Keeps s (s.bodyReadCounters x).state := by
  unfold State.bodyReadCounters
  split
  · exact clearCounters s
  · exact refl s
  · exact refl s

theorem bodyTakeNotices (s : State) (l : Link) (n : Nat) : Keeps s (s.bodyTakeNotices l n).state := by
  unfold State.bodyTakeNotices
  split
  · exact refl s
  · exact takeNotices s l _

theorem bodySetNoticeLevels (s : State) (l : Link) (ns : List Nat) (n : Nat) :
    Keeps s (s.bodySetNoticeLevels l ns n).state := by
  unfold State.bodySetNoticeLevels
  split
  · exact setLevels s l _ _
  · exact refl s

/-- The body of every command that changes something. -/
theorem body : ∀ {i l role body}, commandBody i = some (l, role, body) → reads i = false → ∀ s, Keeps s (body s).state
  | .equip .., _, _, _, rfl, _, s => bodyEquip s _ _ _
  | .unequip .., _, _, _, rfl, _, s => bodyUnequip s _
  | .setClass .., _, _, _, rfl, _, s => bodySetClass s _ _
  | .setGroup .., _, _, _, rfl, _, s => bodySetGroup s _ _
  | .hold .., _, _, _, rfl, _, s => bodySetHeld s _ _
  | .unhold .., _, _, _, rfl, _, s => bodySetHeld s _ _
  | .freeze .., _, _, _, rfl, _, s => bodySetFrozen s _ _
  | .thaw .., _, _, _, rfl, _, s => bodySetFrozen s _ _
  | .setMigration .., _, _, _, rfl, _, s => bodySetMigration s _ _ _ _ _ _
  | .setSignalling .., _, _, _, rfl, _, s => bodySetSignalling s _ _ _ _ _ _ _ _ _
  | .insertSpan .., _, _, _, rfl, _, s => bodyInsertSpan s _ _
  | .bypassSpan .., _, _, _, rfl, _, s => bodyBypassSpan s _ _
  | .cancelSpan .., _, _, _, rfl, _, s => bodyCancelSpan s _
  | .setFibreThreshold .., _, _, _, rfl, _, s => port s _
  | .stageAssign .., _, _, _, rfl, _, s => bodyStageAssign s _ _
  | .stageRelease .., _, _, _, rfl, _, s => bodyStageRelease s _
  | .discardStaging .., _, _, _, rfl, _, s => discardStaging s
  | .setAlignment .., _, _, _, rfl, _, s => bodySetAlignment s _ _ _ _
  | .request .., _, _, _, rfl, _, s => bodyRequest s _ _
  | .cancelRequest .., _, _, _, rfl, _, s => bodyCancelRequest s _
  | .setAdmission .., _, _, _, rfl, _, s => bodySetAdmission s _ _ _ _
  | .abortContext .., _, _, _, rfl, _, s => bodyAbortContext s _
  | .resetMigration .., _, _, _, rfl, _, s => resetMigration s
  | .setPeerSilentTime .., _, _, _, rfl, _, s => bodySetPeerSilentTime s _
  | .setFaultPolicy .., _, _, _, rfl, _, s => bodySetFaultPolicy s _ _ _ _
  | .clearFault .., _, _, _, rfl, _, s => bodyClearFault s _ _
  | .clearLockout .., _, _, _, rfl, _, s => bodyClearLockout s _
  | .commit .., _, _, _, rfl, _, s => bodyCommit s _
  | .uncommit .., _, _, _, rfl, _, s => bodyUncommit s _
  | .readCounters .., _, _, _, rfl, _, s => bodyReadCounters s _
  | .takeNotices .., _, _, _, rfl, _, s => bodyTakeNotices s _ _
  | .setNoticeLevels .., _, _, _, rfl, _, s => bodySetNoticeLevels s _ _ _

end Keeps

end Sys2Proof.Machine
end

section
/-! The laws of the whole part at every step: `Keeps` is carried by every operation, so the four laws of the part, its
ranges and its capacities stand after each step as before it. -/

namespace Sys2Proof.Machine

namespace Keeps

theorem receiveCopper (s : State) (side : Side) (x : Nat) (p : BitVec 7) (b : Bool) (ss : List Byte)
    (cs : List CodeArrival) : Keeps s (s.receiveCopper side x p b ss cs) := by
  have hrec := recordCopper s side x (p == Config.framingPattern) b ss cs
  unfold State.receiveCopper
  cases side with
  | switch => exact hrec.trans (handLoss _ _ _ _ _)
  | line =>
    exact ite (((hrec.trans (handLoss _ _ _ _ _)).trans (markSpan _ _)).trans (formD _ _))
      ((hrec.trans (missMarker _ _)).trans (handLoss _ _ _ _ _))

theorem carried : Carried Keeps where
  refl := refl
  trans := trans
  settle := settle
  serviceAll := serviceAll
  completeIfDue := completeIfDue
  startIfDue := startIfDue
  measureIfDue := measureIfDue
  markerTimeoutIfDue := markerTimeoutIfDue
  ageOut := ageOut
  declareSilentIfDue := declareSilentIfDue
  declareMarkerLoss := declareMarkerLoss
  receiveCopper := receiveCopper
  receiveCarriage := receiveCarriage
  perform := perform
  change := body
  answer := answer
  onLink := onLink
  forget := forget
  raise := raise
  pendApply _ _ _ := marks rfl rfl rfl

/-- What is left of a frame, its sending and the beginning of the next one. -/
theorem frame (s : State) : Keeps s (s.event (fun t => t.closeFrame.sendFrames.nextFrame)) := by
  refine event fun t => ((?_ : Keeps t t.closeFrame).trans (sendFrames _)).trans (nextFrame _)
  have hlinks := ((carried.settleLink t .a).trans (carried.settleLink _ .b)).trans (settle _)
  have howed : ∀ u : State, Keeps u u.takeOwedEvents := fun u =>
    ((foldl perform _ _).trans (foldl perform _ _)).trans (owe _ [])
  exact (((hlinks.trans (boundary _ [])).trans (howed _)).trans (settle _)).trans (takeFrameEvents _)

/-- Every row but the cold reset and the loss of power. -/
theorem row {i : Instr} {s t : State} (ht : exec i s = .next t) (hr : ∀ c a b w, i ≠ .coldReset c a b w)
    (hp : i ≠ .powerOff) : Keeps s t := by
  by_cases hf : i = .frame
  · subst hf; cases ht; exact frame s
  · by_cases hb : ∃ es, i = .superframeBoundary es
    · obtain ⟨es, rfl⟩ := hb
      cases ht
      exact event (fun t => boundary t es)
    · exact carried.row ht hr hp hf (fun es he => hb ⟨es, he⟩)

end Keeps

/-! ### A step -/

/-- A step leaves the part as a cold reset does but for the straps, takes the power from it, or keeps every law. -/
theorem step_cases {s t : State} (h : step s = .next t) :
    (∃ c a b w r, t = State.coldReset { s with pending := r } c a b w) ∨ (∃ r, t = State.powerDown { s with pending := r })
    ∨ Keeps s t := by
  unfold step at h
  split at h
  · cases h; exact .inr (.inr (Keeps.refl s))
  · next i rest _ =>
    have hq : Keeps s { s with pending := rest } := Keeps.trivially rfl rfl rfl rfl rfl rfl rfl rfl rfl rfl rfl rfl
    by_cases hr : ∃ c a b w, i = .coldReset c a b w
    · obtain ⟨c, a, b, w, rfl⟩ := hr
      cases h
      exact .inl ⟨c, a, b, w, rest, rfl⟩
    · by_cases hp : i = .powerOff
      · subst hp; cases h; exact .inr (.inl ⟨rest, rfl⟩)
      · exact .inr (.inr (hq.trans (Keeps.row h (fun c a b w e => hr ⟨c, a, b, w, e⟩) hp)))

end Sys2Proof.Machine
end

section
/-! The part after a cold reset, and the laws that every step keeps (chapters 1 to 11). -/

namespace Sys2Proof.Machine

/-! ### The reset state, table by table -/

theorem State.reset_circuit (n : Nat) : State.reset.circuit n = Circuit.reset := Table.at_fill_same _ _
theorem State.reset_group (g : Nat) : State.reset.group g = Group.reset := Table.at_fill_same _ _
theorem State.reset_span (x : Nat) : State.reset.span x = Span.reset := Table.at_fill_same _ _
theorem State.reset_ctx (c : Nat) : State.reset.ctx c = Ctx.reset := Table.at_fill_same _ _
theorem State.reset_boundTo (k : Nat) : State.reset.boundTo k = none := Table.at_fill_same _ _
theorem State.reset_slotCode (k : Nat) : State.reset.slotCode k = Config.vacant := Table.at_fill_same _ _

theorem State.reset_queued (n : Nat) : State.reset.queued n = false := rfl

/-- The record of a kind after a reset, of the one port record or of any span. -/
theorem State.reset_fault (k : FaultKind) {x : Nat} (hx : x < 16) : State.reset.fault k x = FaultRecord.reset k := by
  have hall : ∀ x, x < 16 → State.reset.fault k x = FaultRecord.reset k := by
    cases k <;> decide +kernel
  exact hall x hx

/-- The own digest of a reset part is the CRC-16 of the empty map's mask (R82, R189). -/
theorem digestOf_empty : digestOf (Table.fill 512 none) = 0xD6DA := by decide +kernel

theorem crc16_zero_mask : crc16 (List.replicate 64 0) = 0xD6DA := by decide +kernel

/-! ### The laws after a reset -/

theorem State.reset_withinCapacity : State.reset.withinCapacity := by
  unfold State.withinCapacity
  decide

theorem State.reset_relaysFollow : State.reset.relaysFollow := fun x _ => by rw [State.reset_span]; rfl

theorem State.reset_mapAgrees : State.reset.mapAgrees := fun slot n _ _ => by
  rw [State.reset_boundTo, State.reset_circuit]
  exact ⟨nofun, nofun⟩

theorem State.reset_mapInRange : State.reset.mapInRange :=
  ⟨fun slot _ h => (nomatch (State.reset_boundTo slot).symm.trans h),
    fun n _ h => (nomatch (congrArg Circuit.slot (State.reset_circuit n)).symm.trans h), fun _ h => nomatch h⟩

theorem State.reset_busyCounted : State.reset.busyCounted := by
  refine ⟨fun n => ?_, fun n _ => ?_, fun g _ => ?_⟩
  · rw [State.reset_circuit]; decide
  · rw [State.reset_circuit]; rfl
  · simp only [State.busyMembers, State.reset_circuit, State.reset_group]
    exact (List.countP_eq_zero.mpr fun n _ => Bool.false_ne_true).symm

theorem State.reset_faultsLawful : State.reset.faultsLawful := fun k x hx => by
  rw [State.reset_fault k hx]
  cases k <;> exact ⟨fun _ => rfl, fun _ => rfl, rfl⟩

theorem State.reset_attentionRight : State.reset.attentionRight := fun _ => ⟨rfl, rfl⟩

theorem State.reset_timeInRange : State.reset.timeInRange := ⟨by decide, by decide⟩

theorem Ctx.reset_not_working : ¬ Ctx.reset.working := fun h => h.1 rfl

theorem State.reset_placed : State.reset.placed where
  carried n := by rw [State.reset_circuit]; exact ⟨rfl, rfl⟩
  migrating n := by rw [State.reset_circuit]; exact ⟨nofun, fun h => absurd rfl h⟩
  inContext n c h := by rw [State.reset_circuit] at h; cases h
  ofContext c h := by rw [State.reset_ctx] at h; exact absurd h Ctx.reset_not_working
  away n h := by
    rw [State.reset_circuit, State.reset_queued] at h
    obtain h | h := h
    · exact absurd rfl h
    · cases h
  once := List.nodup_nil
  apart n h := by rw [State.reset_queued] at h; cases h
  entries c := by rw [State.reset_ctx]; exact ⟨nofun, nofun⟩

theorem State.reset_backed : State.reset.backed where
  total := by decide +kernel
  residual n := by rw [State.reset_circuit]; rfl
  settled n _ := by
    rw [State.reset_circuit]
    exact ⟨fun p => by cases p <;> rfl, fun h => absurd rfl h⟩
  fits n c h := by rw [State.reset_circuit] at h; cases h
  idle c _ := by rw [State.reset_ctx]; rfl
  waiting c := by rw [State.reset_ctx]; exact ⟨nofun, nofun⟩
  waitsOnce := List.nodup_nil

/-- Settles O10: each law of the part at the reset values. -/
theorem lawsHoldAfterReset : Obligations.LawsHoldAfterReset :=
  ⟨State.reset_withinCapacity, State.reset_relaysFollow, State.reset_mapAgrees, State.reset_mapInRange, digestOf_empty.symm,
    State.reset_busyCounted, State.reset_faultsLawful, State.reset_attentionRight, State.reset_timeInRange,
    fun _ => ⟨State.reset_placed, State.reset_backed⟩⟩

/-- Settles O4: the reset values of every table, read off one by one. -/
theorem resetLeavesTheTablesValues : Obligations.ResetLeavesTheTablesValues := by
  refine ⟨fun n _ => ?circuits, fun g _ => State.reset_group g, fun x _ => ?spans, ?port, ?map, ⟨rfl, rfl⟩, ⟨rfl, rfl⟩,
    fun k _ => ?contexts, ?peer, fun x hx => ?faults, ⟨rfl, rfl⟩, fun l => ?links⟩
  case circuits => rw [State.reset_circuit]; decide
  case spans => rw [State.reset_span]; decide
  case port =>
    exact ⟨rfl, rfl, rfl, rfl, rfl, rfl, rfl, rfl, rfl, rfl, rfl, rfl, fun k _ => State.reset_slotCode k⟩
  case map => exact ⟨rfl, rfl, crc16_zero_mask.symm, rfl, rfl, rfl, fun k _ => State.reset_boundTo k⟩
  case contexts => rw [State.reset_ctx]; decide
  case peer => decide
  case faults =>
    simp only [State.reset_fault _ hx]
    decide
  case links =>
    cases l <;> exact ⟨rfl, rfl, rfl, rfl, rfl, rfl, rfl, rfl, rfl, rfl, rfl, fun c => by cases c <;> rfl⟩

/-! ### The laws at every step -/

/-- Settles O6: the capacities and ranges are among the laws that a step keeps. -/
theorem capacitiesAndRangesAreKept : Obligations.CapacitiesAndRangesAreKept := by
  refine ⟨fun s t hs h => ?_, fun s t hs h => ?_⟩
  · obtain ⟨c, a, b, w, r, rfl⟩ | ⟨r, rfl⟩ | hk := step_cases h
    · exact State.reset_withinCapacity
    · exact hs
    · obtain ⟨hq, hm, ha, hv, hA, hB⟩ := hs
      exact ⟨hk.queue hq, hk.staging hm, hk.adverts ha, hk.view hv, hk.fitsA hA, hk.fitsB hB⟩
  · obtain ⟨c, a, b, w, r, rfl⟩ | ⟨r, rfl⟩ | hk := step_cases h
    · exact State.reset_timeInRange
    · exact hs
    · exact hk.time hs

/-- Settles O7: a loss of power releases every drive and line, and any other step keeps both laws. -/
theorem outputsFollowTheState : Obligations.OutputsFollowTheState := by
  refine ⟨fun s t hs h => ?_, fun s t hs h => ?_⟩
  · obtain ⟨c, a, b, w, r, rfl⟩ | ⟨r, rfl⟩ | hk := step_cases h
    · exact State.reset_relaysFollow
    · exact State.reset_relaysFollow
    · exact hk.relays hs
  · obtain ⟨c, a, b, w, r, rfl⟩ | ⟨r, rfl⟩ | hk := step_cases h
    · exact State.reset_attentionRight
    · exact nofun
    · intro hp
      rw [hk.power] at hp
      exact ⟨hk.rightA (hs hp).1, hk.rightB (hs hp).2⟩

/-- Settles O8: the map, the slot fields and the digest are among the laws that a step keeps. -/
theorem mapSlotsAndDigestAgree : Obligations.MapSlotsAndDigestAgree := by
  refine ⟨fun s t ha hr h => ?_, fun s t hs h => ?_⟩
  · obtain ⟨c, a, b, w, r, rfl⟩ | ⟨r, rfl⟩ | hk := step_cases h
    · exact ⟨State.reset_mapAgrees, State.reset_mapInRange⟩
    · exact ⟨ha, hr⟩
    · exact hk.maps ⟨ha, hr⟩
  · obtain ⟨c, a, b, w, r, rfl⟩ | ⟨r, rfl⟩ | hk := step_cases h
    · exact digestOf_empty.symm
    · exact hs
    · exact hk.digest hs

/-- Settles O9: the busy counts and the fault records are among the laws that a step keeps. -/
theorem countsAndRecordsStayLawful : Obligations.CountsAndRecordsStayLawful := by
  refine ⟨fun s t hs h => ?_, fun s t hs h => ?_⟩
  · obtain ⟨c, a, b, w, r, rfl⟩ | ⟨r, rfl⟩ | hk := step_cases h
    · exact State.reset_busyCounted
    · exact hs
    · exact hk.busy hs
  · obtain ⟨c, a, b, w, r, rfl⟩ | ⟨r, rfl⟩ | hk := step_cases h
    · exact State.reset_faultsLawful
    · exact hs
    · exact hk.faults hs

/-! ### Steps, idle parts, power -/

/-- Settles O1: the model's step on a queue with a front command. -/
theorem stepRunsFrontCommand : Obligations.StepRunsFrontCommand := by
  intro c rest s h
  unfold step
  rw [h]

/-- A command at a part without power is not taken. -/
theorem State.runCommand_unpowered {s : State} (hp : s.powered = false) (i : Instr) : s.runCommand i = s := by
  cases hb : commandBody i with
  | some b => rw [State.runCommand_of_body hb]; exact State.event_unpowered hp _
  | none =>
    obtain ⟨l, -, e⟩ | ⟨l, -, e⟩ | e := s.runCommand_without_body hb
    · rw [e]; exact State.event_unpowered hp _
    · rw [e]; exact State.event_unpowered hp _
    · exact e

theorem State.perform_unpowered {s : State} (hp : s.powered = false) (e : BoundaryEvent) : s.perform e = s := by
  have howed : ∀ e f, s.owedEvent e f = s := fun _ _ => State.event_unpowered hp _
  cases e
  case drainComplete x => exact State.event_unpowered hp (fun t => t.takeDrains x)
  all_goals exact howed _ _

/-- Settles O2: every row but the cold reset and the loss of power is an event of a powered part. -/
theorem idleAndUnpoweredPartsStay : Obligations.IdleAndUnpoweredPartsStay := by
  refine ⟨fun s h => ?_, fun i s hp hr ho => ?_⟩
  · unfold step
    rw [h]
  · cases he : rowEvent i with
    | some e => rw [exec_of_rowEvent he, State.perform_unpowered hp]
    | none =>
      cases hs : (sentCommand i).isSome with
      | true => rw [exec_of_sent hs, State.runCommand_unpowered hp]
      | false =>
        have hevent := fun act => congrArg (Host.Outcome.next (φ := Fault) (ρ := Refusal)) (State.event_unpowered hp act)
        have hpower : ∀ t : State, Host.Outcome.next (φ := Fault) (ρ := Refusal) (if s.powered then t else s) = .next s :=
          fun t => by rw [hp]; rfl
        cases i <;> first | (cases he; done) | (cases hs; done) | skip
        case coldReset c a b w => exact absurd rfl (hr c a b w)
        case powerOff => exact absurd rfl ho
        case measurementComplete | attemptStart | contextCompletion | peerSilent | poolService => exact hpower _
        all_goals exact hevent _

/-- Settles O5: the two rows as the model gives them. -/
theorem coldResetAndPowerLossLeaveTheirStates : Obligations.ColdResetAndPowerLossLeaveTheirStates := by
  refine ⟨fun _ _ _ _ _ => rfl, fun s => ⟨s.powerDown, rfl, rfl, fun x _ => ?_, fun l => ?_, ⟨rfl, fun x _ => ?_⟩, rfl⟩⟩
  · have hx : s.powerDown.span x = Span.reset := Table.at_fill_same _ _
    rw [hx]
    exact ⟨rfl, rfl⟩
  · cases l <;> exact ⟨rfl, rfl⟩
  · exact ⟨Table.at_fill_same _ _, Table.at_fill_same _ _⟩

end Sys2Proof.Machine
end

section
/-! Controller commands on circuits and groups at a part that hears them (chapter 1): each command's row comes to its
block's body, answered. -/

namespace Sys2Proof.Machine

/-! ### A command's row by its body -/

/-- The row of a command with a body is that command of its link and role. -/
theorem exec_command {i : Instr} {l : Link} {role : CommandRole} {body : State → Reply}
    (hb : commandBody i = some (l, role, body)) (s : State) : exec i s = .next (s.command l role i body) := by
  cases i <;> first | cases hb; rfl | cases hb

/-- A command that is heard, from a link with its role: the body's outcome, answered. -/
theorem exec_heard {i : Instr} {l : Link} {role : CommandRole} {body : State → Reply} {s : State}
    (h : s.hears l i) (hb : commandBody i = some (l, role, body)) (hr : role.permits l = true) :
    exec i s = .next ((body s).state.replied l (body s).status (body s).data) := by
  rw [exec_command hb, State.command_heard h hr]

/-- A command whose body comes to a known outcome. -/
theorem exec_answers {i : Instr} {l : Link} {role : CommandRole} {body : State → Reply} {s t : State} {st : Status}
    {d : List Byte} (h : s.hears l i) (hb : commandBody i = some (l, role, body)) (hr : role.permits l = true)
    (ho : body s = t.done st d) : exec i s = .next (t.replied l st d) := by
  rw [exec_heard h hb hr, ho]; rfl

/-- A command whose body refuses it changes nothing but its link. -/
theorem exec_refuses {i : Instr} {l : Link} {role : CommandRole} {body : State → Reply} {s : State} {st : Status}
    (h : s.hears l i) (hb : commandBody i = some (l, role, body)) (hr : role.permits l = true)
    (ho : body s = s.refuse st) : exec i s = .next (s.replied l st []) := exec_answers h hb hr ho

/-! ### Parameters within their ranges -/

/-- Clamped values differ from the given ones exactly where a value was clamped. -/
theorem clampStatus_one (a b : Nat) : clampStatus [a] [b] = if b = a then Status.ok else .clamped := by
  simp [clampStatus, eq_comm]

/-- The targets of a command on groups: the one named, or all sixteen. -/
def targetsOf (target : Nat) : List Nat := if target = 0xFF then List.range 16 else [target]

theorem readTarget_of {target : Nat} (h : target < 16 ∨ target = 0xFF) : readTarget target = some (targetsOf target) := by
  obtain h | rfl := h
  · have : target ≠ 255 := by omega
    simp [readTarget, targetsOf, h, this]
  · rfl

theorem readTarget_none {target : Nat} (h : ¬ (target < 16 ∨ target = 0xFF)) : readTarget target = none := by
  rw [not_or] at h
  simp [readTarget, h.1, h.2]

theorem mem_targetsOf {target g : Nat} (h : target < 16 ∨ target = 0xFF) :
    g ∈ targetsOf target ↔ g < 16 ∧ (target = 0xFF ∨ g = target) := by
  unfold targetsOf
  split <;> simp <;> omega

/-! ### Circuits (R12 to R16) -/

theorem exec_equip {n g cls : Nat} {k : TrafficClass} {s : State} (h : s.hears .a (.equip .a n g cls)) (hn : n < 480)
    (hg : g < 16) (hk : readClass cls = some k) :
    exec (.equip .a n g cls) s = .next (
      if (s.circuit n).equipped then s.replied .a .refusedState [] else (s.equip n g k).replied .a .ok []) := by
  have hb : s.bodyEquip n g cls
      = if (s.circuit n).equipped then s.refuse .refusedState else (s.equip n g k).done .ok [] := by
    simp [State.bodyEquip, circuitOk_iff, hn, hg, hk]
  split
  case isTrue he => exact exec_refuses h rfl rfl (hb.trans (if_pos he))
  case isFalse he => exact exec_answers h rfl rfl (hb.trans (if_neg he))

theorem exec_unequip {n : Nat} {s : State} (h : s.hears .a (.unequip .a n)) (hn : n < 480) :
    exec (.unequip .a n) s = .next (
      if (s.circuit n).equipped = false ∨ (s.circuit n).state ≠ .copper ∨ s.queued n = true then
        s.replied .a .refusedState [] else (s.unequip n).replied .a .ok []) := by
  have hb : s.bodyUnequip n
      = if (s.circuit n).equipped = false ∨ (s.circuit n).state ≠ .copper ∨ s.queued n = true then
        s.refuse .refusedState else (s.unequip n).done .ok [] := by
    simp [State.bodyUnequip, circuitOk_iff, hn, or_assoc]
  split
  case isTrue he => exact exec_refuses h rfl rfl (hb.trans (if_pos he))
  case isFalse he => exact exec_answers h rfl rfl (hb.trans (if_neg he))

/-- What UNEQUIP leaves, with its record and its group's written out. -/
theorem State.unequip_written (s : State) (n : Nat) :
    let c := s.circuit n
    let d : Circuit := if c.residual = 0 then c
      else { c.dropOn c.residualPath with residual := 0, residualPath := .copper, cellsHeld := 0 }
    let g := s.group c.group
    s.unequip n = ((s.setCircuit n { d with
        equipped := false
        forward := ⟨g.idle, none, 0⟩
        backward := ⟨g.idle, none, 0⟩
        call := .idle
        conditioned := false }).setGroup c.group
          { g with busyCount := if c.call.busy then g.busyCount - 1 else g.busyCount }).returnCells
        (if c.residual = 0 then 0 else c.cellsHeld) := by
  have hg : ∀ g : Group, (if (s.circuit n).call.busy then { g with busyCount := g.busyCount - 1 } else g)
      = { g with busyCount := if (s.circuit n).call.busy then g.busyCount - 1 else g.busyCount } := by
    intro g; split <;> rfl
  simp only [State.unequip, hg]
  rfl

theorem exec_setClass {n cls : Nat} {k : TrafficClass} {s : State} (h : s.hears .a (.setClass .a n cls)) (hn : n < 480)
    (hk : readClass cls = some k) :
    exec (.setClass .a n cls) s = .next (
      if (s.circuit n).state ≠ .copper ∨ s.queued n = true ∨ (s.circuit n).residual ≠ 0 then
        s.replied .a .refusedState []
      else (s.setCircuit n { s.circuit n with cls := k }).replied .a .ok []) := by
  have hb : s.bodySetClass n cls
      = if (s.circuit n).state ≠ .copper ∨ s.queued n = true ∨ (s.circuit n).residual ≠ 0 then s.refuse .refusedState
        else (s.setCircuit n { s.circuit n with cls := k }).done .ok [] := by
    simp [State.bodySetClass, circuitOk_iff, hn, hk, or_assoc, State.modCircuit]
  split
  case isTrue he => exact exec_refuses h rfl rfl (hb.trans (if_pos he))
  case isFalse he => exact exec_answers h rfl rfl (hb.trans (if_neg he))

theorem exec_setGroup {n g : Nat} {s : State} (h : s.hears .a (.setGroup .a n g)) (hn : n < 480) (hg : g < 16) :
    let c := s.circuit n
    let idle : Filter := ⟨(s.group g).idle, none, 0⟩
    exec (.setGroup .a n g) s = .next (
      if c.state ≠ .copper ∨ s.queued n = true ∨ c.residual ≠ 0 ∨ (c.equipped = true ∧ c.call ≠ .idle) then
        s.replied .a .refusedState []
      else if g = c.group then s.replied .a .ok []
      else if c.equipped then
        (s.setCircuit n { c with group := g, forward := idle, backward := idle }).replied .a .ok []
      else (s.setCircuit n { c with group := g }).replied .a .ok []) := by
  intro c idle
  have hb : s.bodySetGroup n g
      = if c.state ≠ .copper ∨ s.queued n = true ∨ c.residual ≠ 0 ∨ (c.equipped = true ∧ c.call ≠ .idle) then
          s.refuse .refusedState
        else if g = c.group then s.done .ok [] else (s.setCircuit n (c.regroup g (s.group g).idle)).done .ok [] := by
    simp [State.bodySetGroup, circuitOk_iff, hn, hg, or_assoc, State.modCircuit, c]
  split
  case isTrue h1 => exact exec_refuses h rfl rfl (hb.trans (if_pos h1))
  case isFalse h1 =>
  replace hb := hb.trans (if_neg h1)
  split
  case isTrue h2 => exact exec_answers h rfl rfl (hb.trans (if_pos h2))
  case isFalse h2 =>
  replace hb := hb.trans (if_neg h2)
  split
  case isTrue h3 => exact exec_answers h rfl rfl (by rw [hb, Circuit.regroup, if_pos h3]; rfl)
  case isFalse h3 => exact exec_answers h rfl rfl (by rw [hb, Circuit.regroup, if_neg h3])

/-- HOLD and UNHOLD. -/
theorem State.bodySetHeld_eq {n : Nat} (s : State) (hn : n < 480) (held : Bool) :
    s.bodySetHeld n held = (s.setCircuit n { s.circuit n with held := held }).done .ok [] := by
  simp [State.bodySetHeld, circuitOk_iff, hn, State.modCircuit]

/-- Settles O13, command by command, each at a part that hears it. -/
theorem circuitCommandsChangeTheirRecord : Obligations.CircuitCommandsChangeTheirRecord := by
  refine ⟨fun n g cls k s h hn hg hk => exec_equip h hn hg hk, fun n s h hn => ?_,
    ⟨fun n cls k s h hn hk => exec_setClass h hn hk, fun n g s h hn hg => exec_setGroup h hn hg⟩,
    fun n s hn => ⟨fun h => exec_answers h rfl rfl (s.bodySetHeld_eq hn true),
      fun h => exec_answers h rfl rfl (s.bodySetHeld_eq hn false)⟩⟩
  have hw := s.unequip_written n
  dsimp only at hw ⊢
  rw [exec_unequip h hn, hw]

/-! ### Groups (R17, R18) -/

theorem State.group_modGroups (s : State) (targets : List Nat) (f : Group → Group) {g : Nat} (hg : g < 16) :
    (s.modGroups targets f).group g = if g ∈ targets then f (s.group g) else s.group g := by
  simp [State.group, State.modGroups, Table.at_mapIdx _ _ Group.reset Group.reset hg]

/-- What a command writes to the groups it names, and to nothing else. -/
theorem State.modGroups_written (s : State) {target : Nat} (ht : target < 16 ∨ target = 0xFF) (f : Group → Group) :
    let t := s.modGroups (targetsOf target) f
    t = { s with groups := t.groups }
      ∧ ∀ g, g < 16 → t.group g = if target = 0xFF ∨ g = target then f (s.group g) else s.group g := by
  refine ⟨rfl, fun g hg => ?_⟩
  rw [State.group_modGroups s _ f hg]
  simp [mem_targetsOf ht, hg]

theorem State.bodySetFrozen_eq (s : State) {target : Nat} (ht : target < 16 ∨ target = 0xFF) (frozen : Bool) :
    s.bodySetFrozen target frozen = (s.modGroups (targetsOf target) (fun g => { g with frozen := frozen })).done .ok [] := by
  simp [State.bodySetFrozen, readTarget_of ht]

theorem State.bodySetMigration_eq (s : State) {target policy auto : Nat} {p : Policy} {a : Bool} (hold limit window : Nat)
    (ht : target < 16 ∨ target = 0xFF) (hp : readPolicy policy = some p) (ha : readBool auto = some a) :
    let h := max 1 (min 255 hold)
    let m := min 15 limit
    let w := max 1 (min 255 window)
    s.bodySetMigration target policy auto hold limit window
      = (s.modGroups (targetsOf target) (fun g => { g with
          policy := p, autoReturn := a, recoveryHold := h, lockoutLimit := m, lockoutWindow := w })).done
        (if h = hold ∧ m = limit ∧ w = window then .ok else .clamped)
        [BitVec.ofNat 8 p.code, if a then 1 else 0, BitVec.ofNat 8 h, BitVec.ofNat 8 m, BitVec.ofNat 8 w] := by
  intro h m w
  have hm : clamp 0 15 limit = m := by simp [clamp, m]
  have hs : clampStatus [hold, limit, window] [h, m, w]
      = if h = hold ∧ m = limit ∧ w = window then Status.ok else .clamped := by
    simp [clampStatus, eq_comm]
  have hd : (u8 p.code ++ flag a ++ u8 h ++ u8 m ++ u8 w)
      = [BitVec.ofNat 8 p.code, if a then 1 else 0, BitVec.ofNat 8 h, BitVec.ofNat 8 m, BitVec.ofNat 8 w] := by
    cases a <;> rfl
  rw [← hs, ← hd]
  simp only [State.bodySetMigration, readTarget_of ht, hp, ha, hm]
  rfl

/-- Settles O14: the groups named are written, and nothing else of the part but the link. -/
theorem groupSettingsReachTheirTargets : Obligations.GroupSettingsReachTheirTargets := by
  intro target s ht
  exact ⟨fun h => ⟨_, exec_answers h rfl rfl (s.bodySetFrozen_eq ht true), s.modGroups_written ht _⟩,
    fun h => ⟨_, exec_answers h rfl rfl (s.bodySetFrozen_eq ht false), s.modGroups_written ht _⟩,
    fun policy auto hold limit window p a h hp ha =>
      ⟨_, exec_answers h rfl rfl (s.bodySetMigration_eq hold limit window ht hp ha), s.modGroups_written ht _⟩⟩

end Sys2Proof.Machine
end

section
/-! The span commands and the drain at a boundary (section 3.5): their tables, and the test of a drain that is owed. -/

namespace Sys2Proof.Machine

theorem mem_circuitsOf {x n : Nat} : n ∈ circuitsOf x ↔ n / 30 = x := by
  simp only [circuitsOf, List.mem_map, List.mem_range]
  constructor
  · rintro ⟨c, hc, rfl⟩; omega
  · rintro rfl; exact ⟨n % 30, by omega, by omega⟩

/-- A circuit of the span holds it against BYPASS_SPAN. -/
theorem State.any_holdsSpan (s : State) (x : Nat) (now : Bool) :
    (circuitsOf x).any (s.holdsSpan now) = true ↔
      ∃ n, n / 30 = x ∧ ((s.circuit n).state ≠ .copper ∨ s.queued n = true ∨ (s.circuit n).context ≠ none
        ∨ (now = true ∧ (s.circuit n).residual ≠ 0)) := by
  simp [State.holdsSpan, mem_circuitsOf, or_assoc, Option.isSome_iff_ne_none]

/-- No circuit of the span has a call. -/
theorem State.notIdle_eq_zero (s : State) (x : Nat) :
    s.notIdle x = 0 ↔ ∀ n, n / 30 = x → (s.circuit n).equipped = true → (s.circuit n).call = .idle := by
  simp [State.notIdle, mem_circuitsOf]

/-! ### The tables of R49 to R51 -/

theorem State.takeSpan_same {s : State} {x : Nat} {st : SpanState} (h : (s.span x).state = st) :
    s.takeSpan x st = s := if_pos h

theorem State.takeSpan_move {s : State} {x : Nat} {st : SpanState} (h : (s.span x).state ≠ st) :
    s.takeSpan x st = s.moveSpan x st := if_neg h

theorem exec_insertSpan {x mode : Nat} {now : Bool} {s : State} (h : s.hears .a (.insertSpan .a x mode)) (hx : x < 16)
    (hm : readImmediate mode = some now) :
    exec (.insertSpan .a x mode) s = .next (match (generalizing := false) (s.span x).state, now with
      | .bypass, false => (s.moveSpan x .drainIn).replied .a .ok [1]
      | .bypass, true => (s.moveSpan x .inserted).replied .a .ok [2]
      | .drainIn, false => s.replied .a .ok [1]
      | .drainIn, true => (s.moveSpan x .inserted).replied .a .ok [2]
      | .inserted, _ => s.replied .a .ok [2]
      | .drainOut, _ => s.replied .a .refusedState [3]) := by
  have stays {st : SpanState} (hs : (s.span x).state = st) (hi : st.insert now = some st) :
      s.bodyInsertSpan x mode = s.done .ok (u8 st.code) := by
    simp [State.bodyInsertSpan, hx, hm, hs, hi, State.takeSpan_same hs]
  have moves {old new : SpanState} (hs : (s.span x).state = old) (hi : old.insert now = some new) (hne : old ≠ new) :
      s.bodyInsertSpan x mode = (s.moveSpan x new).done .ok (u8 new.code) := by
    simp [State.bodyInsertSpan, hx, hm, hs, hi, State.takeSpan_move (hs ▸ hne : (s.span x).state ≠ new)]
  cases hs : (s.span x).state <;> cases now
  case bypass.false => exact exec_answers h rfl rfl (moves hs rfl (by decide))
  case bypass.true => exact exec_answers h rfl rfl (moves hs rfl (by decide))
  case drainIn.false => exact exec_answers h rfl rfl (stays hs rfl)
  case drainIn.true => exact exec_answers h rfl rfl (moves hs rfl (by decide))
  case inserted.false => exact exec_answers h rfl rfl (stays hs rfl)
  case inserted.true => exact exec_answers h rfl rfl (stays hs rfl)
  all_goals exact exec_answers h rfl rfl (by simp only [State.bodyInsertSpan, hx, hm, hs, if_true]; rfl)

theorem exec_bypassSpan {x mode : Nat} {now : Bool} {s : State} (h : s.hears .a (.bypassSpan .a x mode)) (hx : x < 16)
    (hm : readImmediate mode = some now) :
    ((circuitsOf x).any (s.holdsSpan now) = true →
      exec (.bypassSpan .a x mode) s = .next (s.replied .a .refusedState []))
    ∧ ((circuitsOf x).any (s.holdsSpan now) = false →
      exec (.bypassSpan .a x mode) s = .next (match (generalizing := false) (s.span x).state, now with
        | .bypass, _ => s.replied .a .ok []
        | .drainIn, _ => s.replied .a .refusedState []
        | .inserted, false => (s.moveSpan x .drainOut).replied .a .ok []
        | .inserted, true => (s.moveSpan x .bypass).replied .a .ok []
        | .drainOut, false => s.replied .a .ok []
        | .drainOut, true => (s.moveSpan x .bypass).replied .a .ok [])) := by
  refine ⟨fun hh => exec_refuses h rfl rfl (by simp only [State.bodyBypassSpan, hx, hm, hh, if_true]), fun hh => ?_⟩
  have stays {st : SpanState} (hs : (s.span x).state = st) (hi : st.toBypass now = some st) :
      s.bodyBypassSpan x mode = s.done .ok [] := by
    simp [State.bodyBypassSpan, hx, hm, hh, hs, hi, State.takeSpan_same hs]
  have moves {old new : SpanState} (hs : (s.span x).state = old) (hi : old.toBypass now = some new) (hne : old ≠ new) :
      s.bodyBypassSpan x mode = (s.moveSpan x new).done .ok [] := by
    simp [State.bodyBypassSpan, hx, hm, hh, hs, hi, State.takeSpan_move (hs ▸ hne : (s.span x).state ≠ new)]
  cases hs : (s.span x).state <;> cases now
  case inserted.false => exact exec_answers h rfl rfl (moves hs rfl (by decide))
  case inserted.true => exact exec_answers h rfl rfl (moves hs rfl (by decide))
  case drainOut.true => exact exec_answers h rfl rfl (moves hs rfl (by decide))
  case drainIn.false => exact exec_refuses h rfl rfl (by simp [State.bodyBypassSpan, hx, hm, hh, hs, SpanState.toBypass])
  case drainIn.true => exact exec_refuses h rfl rfl (by simp [State.bodyBypassSpan, hx, hm, hh, hs, SpanState.toBypass])
  all_goals exact exec_answers h rfl rfl (stays hs rfl)

theorem exec_cancelSpan {x : Nat} {s : State} (h : s.hears .a (.cancelSpan .a x)) (hx : x < 16) :
    exec (.cancelSpan .a x) s = .next (match (s.span x).state with
      | .bypass => s.replied .a .refusedState [0]
      | .drainIn => (s.moveSpan x .bypass).replied .a .ok []
      | .inserted => s.replied .a .refusedState [2]
      | .drainOut => (s.moveSpan x .inserted).replied .a .ok []) := by
  cases hs : (s.span x).state <;>
    exact exec_answers h rfl rfl (by simp only [State.bodyCancelSpan, hx, hs, if_true]; rfl)

/-! ### The drain at a boundary (R52) -/

/-- Drains that are not owed are not taken. -/
theorem State.foldl_drains_not_owed {s : State} {ks : List Nat} (h : ∀ k, k ∈ ks → BoundaryEvent.drainComplete k ∉ s.owed) :
    ks.foldl (fun t k => t.takeOwed (.drainComplete k) (fun u => u.drainTest k)) s = s := by
  induction ks with
  | nil => rfl
  | cons k rest ih =>
    have hk : ¬ s.owed.contains (.drainComplete k) = true := by simpa using h k List.mem_cons_self
    rw [List.foldl_cons, State.takeOwed, if_neg hk]
    exact ih fun j hj => h j (List.mem_cons_of_mem k hj)

/-- The lowest drain that is owed is tested once it is owed no longer. -/
theorem State.takeDrains_lowest {s : State} {x : Nat} (ho : BoundaryEvent.drainComplete x ∈ s.owed)
    (hl : ∀ y, y < x → BoundaryEvent.drainComplete y ∉ s.owed) :
    s.takeDrains x = (s.forget (.drainComplete x)).drainTest x := by
  have hc : s.owed.contains (.drainComplete x) = true := by simpa using ho
  rw [State.takeDrains, if_pos hc, List.range_succ, List.foldl_append,
    State.foldl_drains_not_owed fun k hk => hl k (List.mem_range.mp hk)]
  simp only [List.foldl_cons, List.foldl_nil, State.takeOwed, if_pos hc]

/-- A drain completes exactly when the span drains and has no call. -/
theorem State.drainTest_eq (s : State) (x : Nat) :
    (∀ new, (s.span x).state.drained = some new → s.notIdle x = 0 → s.drainTest x = s.moveSpan x new)
    ∧ (s.notIdle x ≠ 0 ∨ (s.span x).state.drained = none → s.drainTest x = s) := by
  refine ⟨fun new hd hi => by simp only [State.drainTest, hd, hi, if_true], ?_⟩
  rintro (hi | hd)
  · cases hd : (s.span x).state.drained <;> simp [State.drainTest, hd, hi]
  · simp [State.drainTest, hd]

theorem exec_drainComplete {x : Nat} {s : State} (hs : s.rests) (ho : BoundaryEvent.drainComplete x ∈ s.owed)
    (hl : ∀ y, y < x → BoundaryEvent.drainComplete y ∉ s.owed) :
    exec (.drainComplete x) s = .next ((s.forget (.drainComplete x)).drainTest x) := by
  show Host.Outcome.next (s.event _) = _
  rw [State.event_rests hs, State.takeDrains_lowest ho hl]

/-- Settles O19, table by table. -/
theorem spanCommandsFollowTheirTables : Obligations.SpanCommandsFollowTheirTables := by
  refine ⟨fun x mode now s hx hm => ⟨fun h => exec_insertSpan h hx hm, fun h => ?_, fun h => exec_cancelSpan h hx⟩,
    fun x s hs hx ho hl => ?_⟩
  · obtain ⟨held, free⟩ := exec_bypassSpan h hx hm
    exact ⟨fun hh => held ((s.any_holdsSpan x now).2 hh),
      fun hh => free (Bool.eq_false_iff.2 (mt (s.any_holdsSpan x now).1 hh))⟩
  · have hidle := (s.forget (.drainComplete x)).notIdle_eq_zero x
    obtain ⟨done, stays⟩ := (s.forget (.drainComplete x)).drainTest_eq x
    rw [exec_drainComplete hs ho hl]
    refine ⟨fun hd hi => congrArg _ (done _ (congrArg SpanState.drained hd) (hidle.2 hi)),
      fun hd hi => congrArg _ (done _ (congrArg SpanState.drained hd) (hidle.2 hi)), ?_⟩
    rintro (hi | hd | hd)
    · exact congrArg _ (stays (.inl (mt hidle.1 hi)))
    · exact congrArg _ (stays (.inr (congrArg SpanState.drained hd)))
    · exact congrArg _ (stays (.inr (congrArg SpanState.drained hd)))

end Sys2Proof.Machine
end

section
/-! Settings, edits, digest words, delays (chapters 4 to 6): the clamped settings, the judgement of an edit, the run of
DIGEST words and the arithmetic of the delay. -/

namespace Sys2Proof.Machine

/-! ### Clamped settings (R67, R107, R130, R148) -/

theorem State.bodySetAlignment_eq (s : State) (n spread walk wait : Nat) :
    let n' := max 4 (min 32 n)
    let p' := min 15 spread
    let w' := max 4 (min 255 walk)
    let t' := max 1 (min 60000 wait)
    s.bodySetAlignment n spread walk wait = State.done { s with align := {
        n := n', spreadLimit := p', walkInterval := w', poolTimeout := t'
        walkCounter := if w' = s.align.walkInterval then s.align.walkCounter else 0 } }
      (if n' = n ∧ p' = spread ∧ w' = walk ∧ t' = wait then .ok else .clamped)
      (u8 n' ++ u8 p' ++ u16 w' ++ u16 t') := by
  intro n' p' w' t'
  have hp : clamp 0 15 spread = p' := by simp [clamp, p']
  have hs : clampStatus [n, spread, walk, wait] [n', p', w', t']
      = if n' = n ∧ p' = spread ∧ w' = walk ∧ t' = wait then Status.ok else .clamped := by
    simp [clampStatus, eq_comm]
  rw [← hs]
  simp only [State.bodySetAlignment, hp]
  rfl

theorem State.bodySetAdmission_eq (s : State) {ra rb : Nat} {a b : Bool} (bridge step : Nat) (ha : readBool ra = some a)
    (hb : readBool rb = some b) :
    let t' := max 10 (min 2000 bridge)
    let u' := max 50 (min 2000 step)
    s.bodySetAdmission ra rb bridge step = State.done { s with
        admitting := { requireA := a, requireB := b, bridgeTimeout := t', stepTimeout := u' } }
      (if t' = bridge ∧ u' = step then .ok else .clamped)
      ([if a then 1 else 0, if b then 1 else 0] ++ u16 t' ++ u16 u') := by
  intro t' u'
  have hs : clampStatus [bridge, step] [t', u'] = if t' = bridge ∧ u' = step then Status.ok else .clamped := by
    simp [clampStatus, eq_comm]
  have hd : flag a ++ flag b = [if a then 1 else 0, if b then 1 else 0] := by cases a <;> cases b <;> rfl
  rw [← hs, ← hd]
  simp only [State.bodySetAdmission, ha, hb]
  rfl

/-- PEER_SILENT is due where no condition stands and the word age has reached the peer-silent time. -/
theorem State.silentDue_iff (s : State) :
    s.silentDue = true ↔ s.peer.silent = false ∧ ∃ a, s.port.wordAge = some a ∧ s.peer.silentTime ≤ a := by
  cases h : s.port.wordAge <;> simp [State.silentDue, h]

/-- Settles O24: one setting after the other, with what each of them does beside its write. -/
theorem settingsAreClamped : Obligations.SettingsAreClamped := by
  refine ⟨fun v s h => ?_, fun n spread walk wait s h => exec_answers h rfl rfl (s.bodySetAlignment_eq n spread walk wait),
    fun ra rb bridge step a b s h ha hb => exec_answers h rfl rfl (s.bodySetAdmission_eq bridge step ha hb),
    fun v s h => ?_⟩
  · have := exec_heard h rfl rfl
    dsimp only
    rw [this, ← clampStatus_one]
    rfl
  · dsimp only
    have hx := exec_heard h rfl rfl
    have hdue := State.silentDue_iff { s with peer := { s.peer with silentTime := max 10 (min 1000 v) } }
    rw [hx, ← clampStatus_one]
    refine ⟨fun hn => ?_, fun hd => ?_⟩
    · have hq : State.declareSilentIfDue { s with peer := { s.peer with silentTime := clamp 10 1000 v } }
          = { s with peer := { s.peer with silentTime := clamp 10 1000 v } } := if_neg (mt hdue.1 hn)
      simp only [State.bodySetPeerSilentTime, State.done, hq]
      rfl
    · have hq : State.declareSilentIfDue { s with peer := { s.peer with silentTime := clamp 10 1000 v } }
          = State.declare { s with peer := { s.peer with silentTime := clamp 10 1000 v, silent := true } } .peerSilent 0 :=
        if_pos (hdue.2 hd)
      simp only [State.bodySetPeerSilentTime, State.done, hq]
      rfl

/-! ### Edits (R79) -/

/-- A circuit may be released from its slot. -/
theorem State.releasable_iff (w : State) (slot n : Nat) :
    w.releasable slot n = true ↔ (w.circuit n).state = .copper ∧ (∀ e, e ∈ w.queue → e.circuit ≠ n)
      ∧ (w.circuit n).context = none ∧ ∀ c, c < 8 → ¬ ((w.ctx c).state = .aborting ∧ (w.ctx c).slot = slot) := by
  simp [State.releasable, State.queued, State.abortingHolds, contextNumbers, and_assoc]

theorem State.boundTo_put {w : State} {slot : Nat} (hs : slot < 512) (v : Option Nat) {u : State}
    (hu : u.map.entries = Table.put w.map.entries slot v) :
    u.boundTo slot = v ∧ ∀ k, k ≠ slot → u.boundTo k = w.boundTo k := by
  simp only [State.boundTo, hu]
  exact ⟨Table.at_put_eq _ _ _ hs, fun k hk => Table.at_put_ne _ _ _ hk⟩

theorem State.circuit_put {w : State} {n : Nat} (hn : n < 480) (c : Circuit) {u : State}
    (hu : u.circuits = Table.put w.circuits n c) : u.circuit n = c ∧ ∀ m, m ≠ n → u.circuit m = w.circuit m := by
  simp only [State.circuit, hu]
  exact ⟨Table.at_put_eq _ _ _ hn, fun m hm => Table.at_put_ne _ _ _ hm⟩

/-- What one bound or released pair changes. -/
theorem State.rebound {w u : State} {slot n : Nat} (v : Option Nat) (c : Circuit) (hs : slot < 512) (hn : n < 480)
    (hu : u = { w with
      circuits := Table.put w.circuits n c, map := { w.map with entries := Table.put w.map.entries slot v } }) :
    u.boundTo slot = v ∧ u.circuit n = c
      ∧ (∀ k, k ≠ slot → u.boundTo k = w.boundTo k) ∧ (∀ m, m ≠ n → u.circuit m = w.circuit m)
      ∧ u = { w with circuits := u.circuits, map := { w.map with entries := u.map.entries } } := by
  obtain ⟨hb, hbs⟩ := State.boundTo_put hs v (u := u) (w := w) (by rw [hu])
  obtain ⟨hc, hcs⟩ := State.circuit_put hn c (u := u) (w := w) (by rw [hu])
  exact ⟨hb, hc, hbs, hcs, by rw [hu]⟩

/-- Settles O26: the two tests of each form, in order, and the working copy that a passing edit leaves. -/
theorem editsAreJudgedInOrder : Obligations.EditsAreJudgedInOrder := by
  intro w slot n hs hn
  refine ⟨fun p rest e => ⟨fun c h => by simp [State.judge, h], fun h => by simp [State.judge, h]⟩,
    fun h => ?_, fun h hc => ?_, fun h hc => ⟨?_, ?_⟩, fun h => ?_, fun h => ?_⟩
  · simp [State.editFails, Option.isSome_iff_ne_none, h]
  · simp [State.editFails, Option.isSome_iff_ne_none, h, hc]
  · simp [State.editFails, h, hc]
  · exact State.rebound (some n) { w.circuit n with slot := some slot } hs hn rfl
  · simp [State.editFails, h]
  · have hr := w.releasable_iff slot n
    refine ⟨fun hf => ?_, fun hf => ⟨?_, ?_⟩⟩
    · simp [State.editFails, h, mt hr.1 hf]
    · simp [State.editFails, h, hr.2 hf]
    · have hm : w.makeEdit (.release slot) = w.unbind slot n := by simp [State.makeEdit, h]
      rw [hm]
      exact State.rebound none { w.circuit n with slot := none } hs hn rfl

/-! ### DIGEST words (R83) -/

/-- Settles O28: the run of equal or different words, and the third of them. -/
theorem digestWordsAreCompared : Obligations.DigestWordsAreCompared := by
  intro d s m set
  have third (h : 2 ≤ m.run) : 3 ≤ s.map.run + 1 := Nat.succ_le_succ h
  have early (h : m.run < 2) : ¬ 3 ≤ s.map.run + 1 := by change s.map.run < 2 at h; omega
  have unchanged {b : Bool} (hb : s.map.mismatch = b) (run : Nat) :
      ({ s with map := { s.map with peerDigest := some d, run := run } } : State) = set b run := by
    simp only [set, m, ← hb]
  refine ⟨fun hm hd => ?_, fun hm hd hr => ?_, fun hm hd hr => ?_, fun hm hd => ?_, fun hm hd hr => ?_, fun hm hd hr => ?_⟩ <;>
    change s.map.mismatch = _ at hm <;> simp only [m] at hd
  · simp only [State.takeDigest, hm, if_pos hd, Bool.false_eq_true, if_false, ← unchanged hm]
  · simp only [State.takeDigest, hm, if_neg hd, if_neg (early hr), Bool.false_eq_true, if_false, ← unchanged hm]; rfl
  · simp only [State.takeDigest, hm, if_neg hd, if_pos (third hr), Bool.false_eq_true, if_false]; rfl
  · simp only [State.takeDigest, hm, if_neg hd, if_true, ← unchanged hm]
  · simp only [State.takeDigest, hm, if_pos hd, if_neg (early hr), if_true, ← unchanged hm]; rfl
  · simp only [State.takeDigest, hm, if_pos hd, if_pos (third hr), if_true]; rfl

/-! ### Delays (R88, R91, R94) -/

/-- D lies within half a turn of 512 frames and differs from tc - tf by whole turns. -/
theorem differentialDelay_folds (tc tf : Nat) :
    (-256 ≤ differentialDelay tc tf ∧ differentialDelay tc tf ≤ 255)
      ∧ (512 : Int) ∣ ((tc : Int) - tf - differentialDelay tc tf) := by
  unfold differentialDelay
  dsimp only
  split <;> omega

/-- The mean leaves a remainder of at most half the count, and a remainder of exactly half is rounded away from zero. -/
theorem meanOf_rounds (sum : Int) {n : Nat} (hn : 0 < n) :
    2 * (sum - meanOf sum n * n).natAbs ≤ n
      ∧ (2 * (sum - meanOf sum n * n).natAbs = n → sum.natAbs ≤ (meanOf sum n * n).natAbs) := by
  -- the size of the mean, q, is the nearest multiple: n * q ≤ |S| + n/2 < n * (q + 1)
  obtain ⟨q, hq⟩ : ∃ q, (2 * sum.natAbs + n) / (2 * n) = q := ⟨_, rfl⟩
  have hdiv := Nat.div_add_mod (2 * sum.natAbs + n) (2 * n)
  have hlt := Nat.mod_lt (2 * sum.natAbs + n) (show 0 < 2 * n by omega)
  rw [hq] at hdiv
  obtain ⟨r, hr⟩ : ∃ r, n * q = r := ⟨_, rfl⟩
  have hr2 : 2 * n * q = 2 * r := by rw [← hr]; ring
  rw [hr2] at hdiv
  obtain ⟨a, ha⟩ : ∃ a, sum.natAbs = a := ⟨_, rfl⟩
  have hm : meanOf sum n * n = sum.sign * (r : Int) := by
    rw [meanOf, hq, ← hr]; push_cast; ring
  rw [hm]
  rcases lt_trichotomy sum 0 with h | h | h
  · rw [Int.sign_eq_neg_one_of_neg h]; omega
  · subst h
    have : r = 0 := by
      have hq0 : q = 0 := by
        rw [← hq]; simp only [Int.natAbs_zero]; exact Nat.div_eq_of_lt (by omega)
      rw [← hr, hq0, Nat.mul_zero]
    subst this; simp
  · rw [Int.sign_eq_one_of_pos h]; omega

theorem takeD_min (x : Ctx) (d m : Int) :
    (x.takeD d).min = some m ↔ (x.min = none ∧ m = d) ∨ ∃ k, x.min = some k ∧ m = min k d := by
  cases h : x.min with
  | none => simp [Ctx.takeD, h, eq_comm]
  | some k =>
    simp only [Ctx.takeD, h, Option.some.injEq, reduceCtorEq, false_and, false_or, exists_eq_left', min_def]
    split <;> split <;> omega

theorem takeD_max (x : Ctx) (d m : Int) :
    (x.takeD d).max = some m ↔ (x.max = none ∧ m = d) ∨ ∃ k, x.max = some k ∧ m = max k d := by
  cases h : x.max with
  | none => simp [Ctx.takeD, h, eq_comm]
  | some k =>
    simp only [Ctx.takeD, h, Option.some.injEq, reduceCtorEq, false_and, false_or, exists_eq_left', max_def]
    split <;> split <;> omega

/-- Settles O29: the fold, the running bounds and the rounded mean. -/
theorem delaysAreMeasured : Obligations.DelaysAreMeasured :=
  ⟨differentialDelay_folds,
    fun x d => ⟨rfl, rfl, takeD_min x d, takeD_max x d, rfl⟩,
    fun sum _ hn => ⟨(meanOf_rounds sum hn).1, (meanOf_rounds sum hn).2, rfl, rfl⟩⟩

end Sys2Proof.Machine
end

section
/-! Requests and their places in the queue (R109, R111), ABORT_CONTEXT (R128), CLEAR_LOCKOUT, COMMIT and UNCOMMIT (R161,
R166, R167). -/

namespace Sys2Proof.Machine

/-! ### REQUEST (R109) -/

theorem State.bodyRequest_eq (s : State) {n code : Nat} {d : Direction} (hn : n < 480)
    (hd : readDirection code = some d) :
    s.bodyRequest n code =
      if (s.circuit n).equipped = false ∨ (s.span (n / 30)).state ≠ .inserted then s.refuse .refusedState
      else if s.queued n = true ∨ (s.circuit n).context ≠ none then s.refuse .busy
      else if d.admits (s.circuit n).state = false then s.refuse .refusedState
      else if d = .toFibre ∧ (s.circuit n).slot = none then s.refuse .notFound
      else if 64 ≤ s.queue.length then s.refuse .full
      else State.done { s with queue := s.queue ++ [s.newEntry n d] } .ok
        [BitVec.ofNat 8 s.queue.length, BitVec.ofNat 8 (s.queue.length + 1)] := by
  have hr : s.requestRefused n d =
      if (s.circuit n).equipped = false ∨ (s.span (n / 30)).state ≠ .inserted then some .refusedState
      else if s.queued n = true ∨ (s.circuit n).context ≠ none then some .busy
      else if d.admits (s.circuit n).state = false then some .refusedState
      else if d = .toFibre ∧ (s.circuit n).slot = none then some .notFound
      else if 64 ≤ s.queue.length then some .full else none := by
    simp [State.requestRefused, State.spanInserted, spanOf, Option.isSome_iff_ne_none]
  simp only [State.bodyRequest, circuitOk_iff.2 hn, if_true, hd, hr]
  split_ifs <;> rfl

/-- The states from which a circuit migrates in a direction. -/
theorem Direction.admits_eq_false (d : Direction) (st : MigState) :
    d.admits st = false ↔ (d = .toFibre ∧ st ≠ .copper ∧ st ≠ .reverted) ∨ (d = .toCopper ∧ st ≠ .fibreProtected) := by
  cases d <;> cases st <;> decide

theorem State.queued_iff_entry (s : State) (n : Nat) : s.queued n = true ↔ ∃ e, e ∈ s.queue ∧ e.circuit = n := by
  simp [State.queued]

theorem exec_request {n code : Nat} {d : Direction} {s : State} (h : s.hears .b (.request .b n code)) (hn : n < 480)
    (hd : readDirection code = some d) :
    exec (.request .b n code) s = .next (
      if (s.circuit n).equipped = false ∨ (s.span (n / 30)).state ≠ .inserted then s.replied .b .refusedState []
      else if s.queued n = true ∨ (s.circuit n).context ≠ none then s.replied .b .busy []
      else if d.admits (s.circuit n).state = false then s.replied .b .refusedState []
      else if d = .toFibre ∧ (s.circuit n).slot = none then s.replied .b .notFound []
      else if 64 ≤ s.queue.length then s.replied .b .full []
      else State.replied { s with queue := s.queue ++ [s.newEntry n d] } .b .ok
        [BitVec.ofNat 8 s.queue.length, BitVec.ofNat 8 (s.queue.length + 1)]) := by
  rw [exec_heard h rfl rfl, s.bodyRequest_eq hn hd]
  split_ifs <;> rfl

/-! ### Re-entry by age (R111) -/

/-- A re-entering entry stands behind all that are at least as old, directly in front of the first that is younger. -/
theorem placeByAge_splits (now : Nat) (e : Entry) (l : List Entry) (i : Nat) :
    ∃ before after, l = before ++ after ∧ placeByAge now e i l = (before ++ e :: after, i + before.length)
      ∧ (∀ x, x ∈ before → entryAge now e.stamp ≤ entryAge now x.stamp)
      ∧ ∀ x rest, after = x :: rest → entryAge now x.stamp < entryAge now e.stamp := by
  induction l generalizing i with
  | nil => exact ⟨[], [], rfl, rfl, nofun, nofun⟩
  | cons y rest ih =>
    by_cases hy : entryAge now y.stamp < entryAge now e.stamp
    · refine ⟨[], y :: rest, rfl, by simp [placeByAge, hy], nofun, ?_⟩
      rintro x r ⟨rfl, rfl⟩
      exact hy
    · obtain ⟨before, after, hl, hp, hb, ha⟩ := ih (i + 1)
      refine ⟨y :: before, after, by rw [hl]; rfl, ?_, ?_, ha⟩
      · simp only [placeByAge, if_neg hy, hp, List.cons_append, List.length_cons, Prod.mk.injEq, true_and]
        omega
      · intro x hx
        obtain rfl | hx := List.mem_cons.1 hx
        · exact Nat.le_of_not_lt hy
        · exact hb x hx

theorem State.reenter_full {s : State} (h : 64 ≤ s.queue.length) (e : Entry) : s.reenter e = (s, none) :=
  if_neg (Nat.not_lt.2 h)

theorem State.reenter_eq {s : State} (h : s.queue.length < 64) (e : Entry) :
    s.reenter e = ({ s with queue := (placeByAge s.stamp e 0 s.queue).1 }, some (placeByAge s.stamp e 0 s.queue).2) :=
  if_pos h

/-- Settles O33: the tests of REQUEST in their order, and the place a re-entering entry takes. -/
theorem requestsJoinTheQueueByAge : Obligations.RequestsJoinTheQueueByAge := by
  refine ⟨fun n code d s h hn hd => ⟨?_, s.queued_iff_entry n⟩, fun e s => ⟨fun h => State.reenter_full h e, fun h => ?_⟩⟩
  · rw [exec_request h hn hd]
    simp only [Direction.admits_eq_false]
    rfl
  · obtain ⟨before, after, hl, hp, hb, ha⟩ := placeByAge_splits s.stamp e s.queue 0
    exact ⟨before, after, hl, by rw [State.reenter_eq h, hp, Nat.zero_add], hb, ha⟩

/-! ### ABORT_CONTEXT (R128) -/

/-- Settles O39, by the state of the context. -/
theorem abortContextAnswers : Obligations.AbortContextAnswers := by
  intro c s h
  refine ⟨fun hc => exec_refuses h rfl rfl (if_neg (Nat.not_lt.2 hc)), fun hc hx => exec_refuses h rfl rfl ?_,
    fun cause hc hx ha => exec_answers h rfl rfl ?_, fun hc hf ha => exec_answers h rfl rfl ?_⟩
  · simp [State.bodyAbortContext, hc, hx]
  · simp [State.bodyAbortContext, hc, hx, ha, u8]
  · simp [State.bodyAbortContext, hc, hf, ha, u8]

/-! ### CLEAR_LOCKOUT (R161) -/

theorem State.lockedCircuits_length (s : State) (gs : List Nat) :
    (s.lockedCircuits gs).length = (List.range 480).countP (fun n =>
      (s.circuit n).state == .locked && gs.contains (s.circuit n).group) := by
  simp only [State.lockedCircuits, allCircuits, List.countP_eq_length_filter]

/-- The record of a circuit whose group's lockout is cleared. -/
def Circuit.unlocked (c : Circuit) : Circuit := if c.state = .locked then { c with state := .reverted } else c

/-- The settings of a group whose lockout is cleared: it counts afresh. -/
def Group.unlocked (g : Group) : Group := { g with lockedOut := false, revertCount := 0, windowTimer := none }

theorem State.circuit_restate {s : State} {n : Nat} {c : Circuit} (hc : s.circuit n = c) (g : Nat) (old new : MigState)
    (hn : n < 480) :
    (s.restate g old new).circuit n = if c.group = g ∧ c.state = old then { c with state := new } else c := by
  subst hc
  exact Table.at_mapIdx _ _ Circuit.reset Circuit.reset hn

theorem State.circuit_clearLockout (s : State) (g : Nat) {n : Nat} (hn : n < 480) :
    (s.clearLockout g).circuit n = if (s.circuit n).group = g then (s.circuit n).unlocked else s.circuit n := by
  refine (State.circuit_restate (c := s.circuit n) (by rfl) _ _ _ hn).trans ?_
  by_cases hg : (s.circuit n).group = g <;> simp [hg, Circuit.unlocked]

theorem State.group_clearLockout (s : State) (g : Nat) {m : Nat} (hm : m < 16) :
    (s.clearLockout g).group m = if m = g then (s.group m).unlocked else s.group m := by
  show ((s.forget (.windowExpiry g)).modGroup g Group.unlocked).group m = _
  rw [State.group_modGroup]
  by_cases h : m = g
  · subst h; simp only [hm, and_self, if_true]; rfl
  · simp only [h, false_and, if_false]; rfl

/-- Clearing the lockouts of several groups, group by group. -/
theorem State.foldl_clearLockout (gs : List Nat) (s : State) :
    let t := gs.foldl State.clearLockout s
    (∀ g, g < 16 → t.group g = if g ∈ gs then (s.group g).unlocked else s.group g)
    ∧ (∀ n, n < 480 → t.circuit n = if (s.circuit n).group ∈ gs then (s.circuit n).unlocked else s.circuit n)
    ∧ t = { s with groups := t.groups, circuits := t.circuits, owed := t.owed } := by
  induction gs generalizing s with
  | nil => exact ⟨fun _ _ => rfl, fun _ _ => rfl, rfl⟩
  | cons k rest ih =>
    obtain ⟨hg, hc, he⟩ := ih (s.clearLockout k)
    refine ⟨fun g h => ?_, fun n h => ?_, ?_⟩
    · rw [List.foldl_cons, hg g h, State.group_clearLockout s k h]
      by_cases hk : g = k <;> by_cases hr : g ∈ rest <;> simp [hk, hr, Group.unlocked]
    · rw [List.foldl_cons, hc n h, State.circuit_clearLockout s k h]
      have twice : (s.circuit n).unlocked.unlocked = (s.circuit n).unlocked := by
        unfold Circuit.unlocked
        by_cases h1 : (s.circuit n).state = .locked <;> simp only [h1, if_true, if_false, reduceCtorEq]
      have same : (s.circuit n).unlocked.group = (s.circuit n).group := by
        unfold Circuit.unlocked; split <;> rfl
      by_cases hk : (s.circuit n).group = k
      · simp only [if_pos hk, same, twice, List.mem_cons, hk, true_or, if_true, ite_self]
      · simp only [List.mem_cons, hk, false_or, if_false]
    · rw [List.foldl_cons]
      generalize rest.foldl State.clearLockout (s.clearLockout k) = t at he
      rw [he]
      rfl

/-- A transport command takes a circuit from `old` to `new` where nothing forbids it. -/
theorem State.bodyCommit_eq (s : State) {n : Nat} (hn : n < 480) :
    s.bodyCommit n = if (s.circuit n).state ≠ .fibreProtected ∨ s.queued n = true then s.refuse .refusedState
      else ((s.setCircuit n { s.circuit n with
          state := .fibreOnly, receive := .fibre, transmit := .fibre }).recondition n).done .ok [] := by
  simp [State.bodyCommit, circuitOk_iff.2 hn, State.modCircuit, Circuit.enter, MigState.receiveFor, MigState.transmitFor]

theorem State.bodyUncommit_eq (s : State) {n : Nat} (hn : n < 480) :
    s.bodyUncommit n = if (s.circuit n).state ≠ .fibreOnly then s.refuse .refusedState
      else ((s.setCircuit n { s.circuit n with
          state := .fibreProtected, receive := .fibre, transmit := .both }).recondition n).done .ok [] := by
  simp [State.bodyUncommit, circuitOk_iff.2 hn, State.modCircuit, Circuit.enter, MigState.receiveFor, MigState.transmitFor]

/-- Settles O52: the groups of the target taken one by one, and the two moves of a circuit's copper standby. -/
theorem lockoutAndStandbyAreReleased : Obligations.LockoutAndStandbyAreReleased := by
  refine ⟨fun target s h ht => ?_, fun n s h hn => ?_, fun n s h hn => ?_⟩
  · intro aims
    have haims (g : Nat) : aims g = true ↔ g ∈ targetsOf target := by simp [aims, mem_targetsOf ht]
    obtain ⟨hg, hc, he⟩ := State.foldl_clearLockout (targetsOf target) s
    refine ⟨_, exec_answers h rfl rfl (?_ : _ = ((targetsOf target).foldl State.clearLockout s).done _ _), ?_, ?_, he⟩
    · have hl : (s.lockedCircuits (targetsOf target)).length = (List.range 480).countP (fun n =>
          (s.circuit n).state == .locked && aims (s.circuit n).group) := by
        have hfun : ∀ g, (targetsOf target).contains g = aims g := fun g => by
          rw [Bool.eq_iff_iff, haims]; simp
        simp only [State.lockedCircuits_length, hfun]
      simp only [State.bodyClearLockout, readTarget_of ht, hl]
    · intro g hlt
      rw [hg g hlt]
      simp only [haims]
      rfl
    · intro n hlt
      rw [hc n hlt]
      simp only [haims, Circuit.unlocked]
      by_cases h1 : (s.circuit n).group ∈ targetsOf target <;> simp [h1]
  · rw [exec_heard h rfl rfl, s.bodyCommit_eq hn]
    split <;> rfl
  · rw [exec_heard h rfl rfl, s.bodyUncommit_eq hn]
    split <;> rfl

end Sys2Proof.Machine
end

section
/-! What a command comes to that is refused, lost, or out of range (R173 to R175, R178; section 10.6). -/

namespace Sys2Proof.Machine

/-! ### Commands as the catalogue sends them -/

/-- A command of the catalogue has a body, or is KEEPALIVE or APPLY_MAP. -/
theorem commandBody_of_sent {i : Instr} {l : Link} {role : CommandRole} {code : Nat} {p : List Byte}
    (h : sentCommand i = some (l, role, code, p)) :
    (∃ body, commandBody i = some (l, role, body)) ∨ (i = .keepalive l ∧ role = .either)
      ∨ (i = .applyMap l ∧ role = .transport) := by
  cases i
  case keepalive => cases h; exact .inr (.inl ⟨rfl, rfl⟩)
  case applyMap => cases h; exact .inr (.inr ⟨rfl, rfl⟩)
  all_goals cases h <;> exact .inl ⟨_, rfl⟩

/-- A command of the catalogue from a link without its role. -/
theorem exec_wrong_role {i : Instr} {l : Link} {role : CommandRole} {code : Nat} {p : List Byte} {s : State}
    (hi : sentCommand i = some (l, role, code, p)) (h : s.hears l i) (hr : role.permits l = false) :
    exec i s = .next (s.replied l .notPermitted []) := by
  rcases commandBody_of_sent hi with ⟨body, hb⟩ | ⟨rfl, rfl⟩ | ⟨rfl, rfl⟩
  · rw [exec_command hb, State.command_refused h hr]
  · exact absurd hr (by simp [CommandRole.permits])
  · obtain ⟨hp, hq, ht⟩ := h
    show Host.Outcome.next (s.event _) = _
    rw [State.event_of_quiet hp hq, if_pos ht, if_neg (by simp [hr]), State.respond_eq]

/-- A command of the catalogue that its link does not take is lost. -/
theorem exec_lost {i : Instr} {l : Link} {role : CommandRole} {code : Nat} {p : List Byte} {s : State}
    (hi : sentCommand i = some (l, role, code, p)) (hs : s.rests) (ht : s.takes l i = false) : exec i s = .next s := by
  have hn : ¬ s.takes l i = true := by simp [ht]
  rcases commandBody_of_sent hi with ⟨body, hb⟩ | ⟨rfl, rfl⟩ | ⟨rfl, rfl⟩
  · rw [exec_command hb, State.command, State.event_rests hs, if_neg hn]
  all_goals
    show Host.Outcome.next (s.event _) = _
    rw [State.event_rests hs, if_neg hn]

/-- A link that is not listening, that waits on another command or that is closed takes no command. -/
theorem State.takes_eq_false {s : State} {l : Link} {i : Instr} (hh : (s.link l).handed ≠ some i)
    (hc : (s.link l).handed ≠ none ∨ (s.link l).rx = .answering ∨ (s.link l).rx = .unsynced ∨ (s.link l).rx = .syncWait
      ∨ (l = .b ∧ s.map.applyPending = true)) : s.takes l i = false := by
  have h1 : ((s.link l).handed == some i) = false := by simpa using hh
  have h2 : ((s.link l).handed.isNone && (s.link l).rx.listens && !s.closed l) = false := by
    rcases hc with h | h | h | h | ⟨rfl, h⟩
    · simp [h]
    · simp [h, RxState.listens]
    · simp [h, RxState.listens]
    · simp [h, RxState.listens]
    · simp [State.closed, h]
  simp [State.takes, h1, h2]

/-! ### Parameters that name nothing -/

theorem readBool_none {n : Nat} (h : 2 ≤ n) : readBool n = none := by
  obtain ⟨m, rfl⟩ := Nat.exists_eq_add_of_le' h; rfl

theorem readClass_none {n : Nat} (h : 2 ≤ n) : readClass n = none := by
  obtain ⟨m, rfl⟩ := Nat.exists_eq_add_of_le' h; rfl

theorem readDirection_none {n : Nat} (h : 2 ≤ n) : readDirection n = none := by
  obtain ⟨m, rfl⟩ := Nat.exists_eq_add_of_le' h; rfl

theorem readPolicy_none {n : Nat} (h : 3 ≤ n) : readPolicy n = none := by
  obtain ⟨m, rfl⟩ := Nat.exists_eq_add_of_le' h; rfl

theorem readActions_none {n : Nat} (h : 16 ≤ n) : readActions n = none := if_neg (Nat.not_lt.2 h)

/-- A kind and a scope that name fault records are of a port kind with scope 0x40, or of a span kind with a span or all. -/
theorem readScope_some {kind scope : Nat} {k : FaultKind} {spans : List Nat} (hk : readKind kind = some k)
    (hs : readScope k scope = some spans) :
    (kind < 5 ∧ scope = 0x40) ∨ (5 ≤ kind ∧ kind < 8 ∧ (scope < 16 ∨ scope = 0xFF)) := by
  have hkind : kind = k.code := by
    unfold readKind at hk
    split at hk <;> first | (cases hk; done) | (cases hk; rfl)
  have hspan : k.isPort = false → scope < 16 ∨ scope = 0xFF := by
    intro hp
    simp only [readScope, hp, Bool.false_eq_true, if_false] at hs
    split at hs; · exact .inl ‹_›
    split at hs; · exact .inr ‹_›
    cases hs
  have hport : k.isPort = true → scope = 0x40 := by
    intro hp
    simp only [readScope, hp, if_true] at hs
    split at hs; · assumption
    cases hs
  subst hkind
  cases k
  case copperLos => exact .inr ⟨by decide, by decide, hspan rfl⟩
  case switchLos => exact .inr ⟨by decide, by decide, hspan rfl⟩
  case markerLoss => exact .inr ⟨by decide, by decide, hspan rfl⟩
  all_goals exact .inl ⟨by decide, hport rfl⟩

theorem readGroupCode_some {n : Nat} {c : Code} (h : readGroupCode n = some c) : n < 15 ∧ c = BitVec.ofNat 4 n := by
  unfold readGroupCode at h
  split at h
  · cases h; exact ⟨‹_›, rfl⟩
  · cases h

/-- The signalling settings of a command are in their ranges and its four codes differ. -/
theorem readSignalling_some {i z a b x y c q : Nat} {m : SignallingSettings}
    (h : readSignalling i z a b x y c q = some m) :
    (i < 15 ∧ z < 15 ∧ a < 15 ∧ b < 15 ∧ c < 15) ∧ x < 8 ∧ y < 8 ∧ [i, z, a, b].Nodup := by
  unfold readSignalling at h
  split at h
  case h_2 => cases h
  case h_1 hi hz ha hb hc =>
  obtain ⟨li, rfl⟩ := readGroupCode_some hi
  obtain ⟨lz, rfl⟩ := readGroupCode_some hz
  obtain ⟨la, rfl⟩ := readGroupCode_some ha
  obtain ⟨lb, rfl⟩ := readGroupCode_some hb
  obtain ⟨lc, rfl⟩ := readGroupCode_some hc
  dsimp only at h
  split at h
  case isFalse => cases h
  case isTrue hv =>
  obtain ⟨hx, hy, hd, -⟩ := hv
  simp only [SignallingSettings.distinct, Bool.and_eq_true, bne_iff_ne] at hd
  refine ⟨⟨li, lz, la, lb, lc⟩, hx, hy, ?_⟩
  simp only [List.nodup_cons, List.mem_cons, List.not_mem_nil, or_false, not_or, not_false_eq_true, List.nodup_nil,
    and_true]
  refine ⟨⟨?_, ?_, ?_⟩, ⟨?_, ?_⟩, ?_⟩ <;> rintro rfl <;> simp at hd

/-! ### BAD_PARAM, command by command -/

theorem State.bodyEquip_bad {n g c : Nat} (s : State) (h : 480 ≤ n ∨ 16 ≤ g ∨ 2 ≤ c) :
    s.bodyEquip n g c = s.refuse .badParam := by
  unfold State.bodyEquip
  split
  case isFalse => rfl
  case isTrue hr =>
  rw [readClass_none (by rw [circuitOk_iff] at hr; omega)]

theorem State.bodySetClass_bad {n c : Nat} (s : State) (h : 480 ≤ n ∨ 2 ≤ c) :
    s.bodySetClass n c = s.refuse .badParam := by
  unfold State.bodySetClass
  split
  case isFalse => rfl
  case isTrue hr => rw [readClass_none (by rw [circuitOk_iff] at hr; omega)]

theorem State.bodySetGroup_bad {n g : Nat} (s : State) (h : 480 ≤ n ∨ 16 ≤ g) :
    s.bodySetGroup n g = s.refuse .badParam := if_neg (by rw [circuitOk_iff]; omega)

theorem State.bodyRequest_bad {n c : Nat} (s : State) (h : 480 ≤ n ∨ 2 ≤ c) :
    s.bodyRequest n c = s.refuse .badParam := by
  unfold State.bodyRequest
  split
  case isFalse => rfl
  case isTrue hr => rw [readDirection_none (by rw [circuitOk_iff] at hr; omega)]

theorem State.bodySetMigration_bad {g p a : Nat} (s : State) (h m w : Nat)
    (hb : ¬ (g < 16 ∨ g = 0xFF) ∨ 3 ≤ p ∨ 2 ≤ a) : s.bodySetMigration g p a h m w = s.refuse .badParam := by
  unfold State.bodySetMigration
  split
  case h_2 => rfl
  case h_1 ht hp ha =>
  rcases hb with hb | hb | hb
  · cases (readTarget_none hb).symm.trans ht
  · cases (readPolicy_none hb).symm.trans hp
  · cases (readBool_none hb).symm.trans ha

theorem State.bodySetSignalling_bad {g i z a b x y c : Nat} (s : State) (q : Nat)
    (h : ¬ (g < 16 ∨ g = 0xFF) ∨ 15 ≤ i ∨ 15 ≤ z ∨ 15 ≤ a ∨ 15 ≤ b ∨ 15 ≤ c ∨ 8 ≤ x ∨ 8 ≤ y ∨ ¬ [i, z, a, b].Nodup) :
    s.bodySetSignalling g i z a b x y c q = s.refuse .badParam := by
  unfold State.bodySetSignalling
  split
  case h_2 => rfl
  case h_1 ht hm =>
  obtain ⟨⟨hi, hz, ha, hb, hc⟩, hx, hy, hn⟩ := readSignalling_some hm
  rcases h with h | h | h | h | h | h | h | h | h
  · cases (readTarget_none h).symm.trans ht
  · omega
  · omega
  · omega
  · omega
  · omega
  · omega
  · omega
  · exact absurd hn h

theorem State.bodyInsertSpan_bad {x m : Nat} (s : State) (h : 16 ≤ x ∨ 2 ≤ m) :
    s.bodyInsertSpan x m = s.refuse .badParam := by
  unfold State.bodyInsertSpan
  split
  case isFalse => rfl
  case isTrue hx => rw [readImmediate, readBool_none (by omega)]

theorem State.bodyBypassSpan_bad {x m : Nat} (s : State) (h : 16 ≤ x ∨ 2 ≤ m) :
    s.bodyBypassSpan x m = s.refuse .badParam := by
  unfold State.bodyBypassSpan
  split
  case isFalse => rfl
  case isTrue hx => rw [readImmediate, readBool_none (by omega)]

theorem State.bodySetAdmission_bad {a b : Nat} (s : State) (t u : Nat) (h : 2 ≤ a ∨ 2 ≤ b) :
    s.bodySetAdmission a b t u = s.refuse .badParam := by
  unfold State.bodySetAdmission
  split
  case h_2 => rfl
  case h_1 ha hb =>
  rcases h with h | h
  · cases (readBool_none h).symm.trans ha
  · cases (readBool_none h).symm.trans hb

theorem State.bodySetFaultPolicy_bad {k x e a : Nat} (s : State)
    (h : ¬ ((k < 5 ∧ x = 0x40) ∨ (5 ≤ k ∧ k < 8 ∧ (x < 16 ∨ x = 0xFF))) ∨ 2 ≤ e ∨ 16 ≤ a) :
    s.bodySetFaultPolicy k x e a = s.refuse .badParam := by
  unfold State.bodySetFaultPolicy
  split
  case h_2 => rfl
  case h_1 hk he ha =>
  split
  case h_2 => rfl
  case h_1 hs =>
  rcases h with h | h | h
  · exact absurd (readScope_some hk hs) h
  · cases (readBool_none h).symm.trans he
  · cases (readActions_none h).symm.trans ha

theorem State.bodyClearFault_bad {k x : Nat} (s : State)
    (h : ¬ ((k < 5 ∧ x = 0x40) ∨ (5 ≤ k ∧ k < 8 ∧ (x < 16 ∨ x = 0xFF)))) :
    s.bodyClearFault k x = s.refuse .badParam := by
  unfold State.bodyClearFault
  split
  case h_2 => rfl
  case h_1 hk =>
  split
  case h_2 => rfl
  case h_1 hs => exact absurd (readScope_some hk hs) h

theorem State.bodyReadPeer_bad {n : Nat} (s : State) (h : 2 ≤ n) : s.bodyReadPeer n = s.refuse .badParam :=
  (if_neg (by omega)).trans (if_neg (by omega))

/-- Settles O56: the commands refused by their link's role, those lost at their link, and those with a parameter out of
range, in the order of the catalogue. -/
theorem refusedCommandsChangeNothing : Obligations.RefusedCommandsChangeNothing := by
  refine ⟨fun i l role code p s hi => ⟨fun h hr => exec_wrong_role hi h hr,
    fun hp hq hh hc => exec_lost hi ⟨hp, hq⟩ (State.takes_eq_false hh hc),
    fun hp hq ha => exec_lost hi ⟨hp, hq⟩ (by simp [State.takes, ha])⟩, fun s => ?_⟩
  have beyond {n k : Nat} (h : k ≤ n) : ¬ n < k := Nat.not_lt.2 h
  have noCircuit {n : Nat} (h : 480 ≤ n) : ¬ circuitOk n = true := by rw [circuitOk_iff]; omega
  have noGroups {g : Nat} (frozen : Bool) (h : ¬ (g < 16 ∨ g = 0xFF)) :
      s.bodySetFrozen g frozen = s.refuse .badParam := by simp only [State.bodySetFrozen, readTarget_none h]
  refine ⟨fun n g c h hb => exec_refuses h rfl rfl (s.bodyEquip_bad hb),
    fun n => ⟨fun h hb => exec_refuses h rfl rfl (if_neg (noCircuit hb)),
      fun h hb => exec_refuses h rfl rfl (if_neg (noCircuit hb)),
      fun h hb => exec_refuses h rfl rfl (if_neg (noCircuit hb)),
      fun h hb => exec_refuses h rfl rfl (if_neg (noCircuit hb)),
      fun h hb => exec_refuses h rfl rfl (if_neg (noCircuit hb))⟩,
    fun n c => ⟨fun h hb => exec_refuses h rfl rfl (s.bodySetClass_bad hb),
      fun h hb => exec_refuses h rfl rfl (s.bodySetGroup_bad hb),
      fun h hb => exec_refuses h rfl rfl (s.bodyRequest_bad hb)⟩,
    fun g => ⟨fun h hb => exec_refuses h rfl rfl (noGroups true hb),
      fun h hb => exec_refuses h rfl rfl (noGroups false hb),
      fun h hb => exec_refuses h rfl rfl (by simp only [State.bodyClearLockout, readTarget_none hb])⟩,
    fun g p a x m w h hb => exec_refuses h rfl rfl (s.bodySetMigration_bad x m w hb),
    fun g i z a b x y c q h hb => exec_refuses h rfl rfl (s.bodySetSignalling_bad q hb),
    fun x m => ⟨fun h hb => exec_refuses h rfl rfl (s.bodyInsertSpan_bad hb),
      fun h hb => exec_refuses h rfl rfl (s.bodyBypassSpan_bad hb),
      fun h hb => exec_refuses h rfl rfl (if_neg (beyond hb))⟩,
    fun a b t u h hb => exec_refuses h rfl rfl (s.bodySetAdmission_bad t u hb),
    fun k x e a h hb => exec_refuses h rfl rfl (s.bodySetFaultPolicy_bad hb),
    fun l => ⟨fun k x h hb => exec_refuses h rfl rfl (s.bodyClearFault_bad hb), fun f n => ⟨?_, ?_, ?_⟩,
      fun n => ⟨fun h hb => exec_refuses h rfl rfl (if_neg (beyond hb)),
        fun h hb => exec_refuses h rfl rfl (if_neg (beyond hb)),
        fun h hb => exec_refuses h rfl rfl (if_neg (beyond hb)),
        fun h hb => exec_refuses h rfl rfl (s.bodyReadPeer_bad hb),
        fun h hb => exec_refuses h rfl rfl (by simp only [State.bodyReadCounters, readBool_none hb]),
        fun h hb => exec_refuses h rfl rfl (if_pos hb)⟩, fun v t h hb => exec_refuses h rfl rfl (if_neg ?_)⟩⟩
  · exact fun h hb => exec_refuses h rfl rfl (if_neg (by rw [circuitOk_iff]; omega))
  · exact fun h hb => exec_refuses h rfl rfl (if_neg (by omega))
  · exact fun h hb => exec_refuses h rfl rfl (if_neg (by omega))
  · rintro ⟨hl, hv⟩
    rcases hb with hb | ⟨n, hn, h4⟩
    · exact hb hl
    · have : n < 4 := by simpa using List.all_eq_true.1 hv n hn
      omega

end Sys2Proof.Machine
end

section
/-! KEEPALIVE and the watchdogs (R176, R177), the notices of a link (R182 to R187), and what the reads answer. -/

namespace Sys2Proof.Machine

/-! ### The watchdog (R176, R177) -/

/-- The timeout of a watchdog strap. -/
theorem watchdogTimeout_eq (n : Nat) : Config.watchdogTimeout n
    = if n = 1 then some 1000 else if n = 2 then some 4000 else if n = 3 then some 16000 else none := by
  match n with
  | 0 => rfl
  | 1 => rfl
  | 2 => rfl
  | 3 => rfl
  | n + 4 => simp [Config.watchdogTimeout]

/-- A link falls silent where it is alive and its count has reached its strap's timeout. -/
theorem State.linkSilentDue_iff (s : State) (l : Link) :
    s.linkSilentDue l = true ↔ (s.link l).alive = true
      ∧ ∃ t c, Config.watchdogTimeout s.watchdogStrap = some t ∧ (s.link l).watchdog = some c ∧ t ≤ c := by
  cases ht : Config.watchdogTimeout s.watchdogStrap <;> cases hc : (s.link l).watchdog <;>
    simp [State.linkSilentDue, ht, hc]

/-- The same, over the three straps that have a timeout. -/
theorem State.linkSilentDue_by_strap (s : State) (l : Link) :
    s.linkSilentDue l = ((s.link l).alive && (match (s.link l).watchdog with
      | some c => decide ((s.watchdogStrap = 1 ∧ 1000 ≤ c) ∨ (s.watchdogStrap = 2 ∧ 4000 ≤ c)
          ∨ (s.watchdogStrap = 3 ∧ 16000 ≤ c))
      | none => false)) := by
  rw [Bool.eq_iff_iff, State.linkSilentDue_iff, watchdogTimeout_eq]
  cases hc : (s.link l).watchdog with
  | none => simp
  | some c =>
    by_cases h1 : s.watchdogStrap = 1
    · simp [h1]
    by_cases h2 : s.watchdogStrap = 2
    · simp [h2]
    by_cases h3 : s.watchdogStrap = 3
    · simp [h3]
    · simp [h1, h2, h3]

theorem linkEvent_eq (cls : NoticeClass) (l : Link) : linkEvent cls l
    = { cls := cls, subject := none, cause := none, value := some (match l with | .a => 0 | .b => 1) } := by
  cases l <;> rfl

theorem State.setLink_same (s : State) (l : Link) : s.setLink l (s.link l) = s := by cases l <;> rfl

/-- An event that is not owed has nothing to take. -/
theorem State.forget_not_owed {s : State} {e : BoundaryEvent} (h : e ∉ s.owed) : s.forget e = s := by
  have : s.owed.filter (fun x => x != e) = s.owed := List.filter_eq_self.2 fun x hx => by
    simpa using fun he : x = e => h (he ▸ hx)
  simp only [State.forget, this]

/-- What a good frame makes of its link's watchdog, and of a silence that was still owed. -/
theorem State.refreshWatchdog_eq (s : State) (l : Link) : s.refreshWatchdog l = s.refreshed l (s.link l) := by
  obtain ⟨silent, hsilent⟩ : ∃ b, (s.owed.contains (.linkSilent l) && s.linkSilentDue l) = b := ⟨_, rfl⟩
  have hu : s.takeOwed (.linkSilent l) (fun t => t.silenceIfDue l)
      = if silent then ((s.forget (.linkSilent l)).setLink l { s.link l with alive := false }).raise
          (linkEvent .linkSilent l) else s.forget (.linkSilent l) := by
    have hdue : (s.forget (.linkSilent l)).linkSilentDue l = s.linkSilentDue l := rfl
    cases ho : s.owed.contains (.linkSilent l)
    · have hn : BoundaryEvent.linkSilent l ∉ s.owed := by simpa using ho
      rw [ho, Bool.false_and] at hsilent
      simp only [State.takeOwed, ho, ← hsilent, Bool.false_eq_true, if_false, State.forget_not_owed hn]
    · rw [ho, Bool.true_and] at hsilent
      simp only [State.takeOwed, ho, if_true, State.silenceIfDue, hdue, hsilent]
      rfl
  have halive : ((s.takeOwed (.linkSilent l) (fun t => t.silenceIfDue l)).link l).alive
      = ((s.link l).alive && !silent) := by
    rw [hu]
    cases silent
    · cases l <;> simp [State.link, State.forget]
    · have offered (k : LinkRec) (n : Nat) (e : Event) : (k.offer n e).alive = k.alive := by
        unfold LinkRec.offer LinkRec.refresh; split; · rfl
        split <;> rfl
      cases l <;> simp [State.raise, State.setLink, State.link, offered]
  have hr : s.refreshed l (s.link l)
      = (let u := if silent then ((s.forget (.linkSilent l)).setLink l { s.link l with alive := false }).raise
          (linkEvent .linkSilent l) else s.forget (.linkSilent l)
        let v := u.modLink l (fun k => { k with watchdog := some 0, alive := true })
        if (s.link l).alive && !silent then v else v.raise (linkEvent .linkAlive l)) := by
    rw [← hsilent, State.linkSilentDue_by_strap, ← Bool.and_assoc]
    cases l <;> rfl
  rw [State.refreshWatchdog, hr]
  simp only [halive]
  rw [hu]

theorem exec_keepalive {l : Link} {s : State} (h : s.hears l (.keepalive l)) :
    exec (.keepalive l) s = .next (State.replied (
      if (s.link l).handed ≠ none then s else s.refreshed l (s.link l)) l .ok []) := by
  obtain ⟨hp, hq, ht⟩ := h
  show Host.Outcome.next (s.event _) = _
  rw [State.event_of_quiet hp hq, if_pos ht, State.respond_eq, State.refreshWatchdog_eq]
  simp only [Option.isSome_iff_ne_none]

/-- Settles O57: KEEPALIVE with and without a frame of its own, and the silence of a link at the boundary. -/
theorem watchdogsHearTheirControllers : Obligations.WatchdogsHearTheirControllers := by
  intro l s
  refine ⟨exec_keepalive, fun hs ho => ?_⟩
  have hdue := (s.forget (.linkSilent l)).linkSilentDue_iff l
  have hexec : exec (.linkSilent l) s = .next ((s.forget (.linkSilent l)).silenceIfDue l) :=
    congrArg _ (State.owedEvent_rests hs ho _)
  rw [watchdogTimeout_eq] at hdue
  refine ⟨fun hd => ?_, fun hd => ?_⟩
  · rw [hexec, State.silenceIfDue, if_pos (hdue.2 hd), linkEvent_eq]; rfl
  · rw [hexec, State.silenceIfDue, if_neg (mt hdue.1 hd)]; rfl

/-! ### Notices (R182 to R187) -/

/-- An event whose class has level 0 at a link is not offered to it. -/
theorem offer_level_zero {k : LinkRec} {e : Event} (stamp : Nat) (h : Table.at k.levels 0 e.cls.code = 0) :
    k.offer stamp e = k := if_pos h

/-- A link with room queues the notice. -/
theorem offer_with_room {k : LinkRec} {e : Event} (stamp : Nat) (h : Table.at k.levels 0 e.cls.code ≠ 0)
    (hr : k.notices.length < 32) :
    let new : Notice := { sequence := k.nextSequence, cls := e.cls, level := Table.at k.levels 0 e.cls.code
                          stamp := stamp, subject := e.subject, cause := e.cause, value := e.value }
    k.offer stamp e = { k with
      notices := k.notices ++ [new], nextSequence := (k.nextSequence + 1) % 256
      attention := k.overflow || (k.notices ++ [new]).any (fun n => decide (k.threshold ≤ n.level)) } :=
  (if_neg h).trans (if_pos hr)

/-- A full queue loses it. -/
theorem offer_full {k : LinkRec} {e : Event} (stamp : Nat) (h : Table.at k.levels 0 e.cls.code ≠ 0)
    (hr : 32 ≤ k.notices.length) :
    k.offer stamp e = { k with nextSequence := (k.nextSequence + 1) % 256, overflow := true, attention := true } :=
  (if_neg h).trans (if_neg (Nat.not_lt.2 hr))

theorem State.link_raise (s : State) (e : Event) (l : Link) : (s.raise e).link l = (s.link l).offer s.stamp e := by
  cases l <;> rfl

theorem clampStatus_min (count : Nat) : clampStatus [count] [min count 8] = if count ≤ 8 then Status.ok else .clamped := by
  rw [clampStatus_one]
  by_cases h : count ≤ 8
  · simp [h]
  · simp [h]

theorem flag_eq (b : Bool) : flag b = [if b then 1 else 0] := by cases b <;> rfl

theorem State.bodyTakeNotices_eq (s : State) (l : Link) {count : Nat} (h : 0 < count) :
    let k := s.link l
    let n := min count 8
    let rest := k.notices.drop n
    s.bodyTakeNotices l count = (s.setLink l { k with
        notices := rest, overflow := false, attention := rest.any (fun x => decide (k.threshold ≤ x.level)) }).done
      (if count ≤ 8 then .ok else .clamped)
      ([if k.overflow then 1 else 0, BitVec.ofNat 8 (min n k.notices.length), BitVec.ofNat 8 rest.length]
        ++ (k.notices.take n).flatMap Notice.bytes) := by
  intro k n rest
  rw [State.bodyTakeNotices, if_neg (Nat.pos_iff_ne_zero.1 h), clampStatus_min, LinkRec.takenBytes, flag_eq,
    List.length_take]
  rfl

theorem State.bodySetNoticeLevels_eq (s : State) (l : Link) {levels : List Nat} (threshold : Nat)
    (hl : levels.length = 18) (hv : ∀ n, n ∈ levels → n < 4) :
    s.bodySetNoticeLevels l levels threshold
      = (s.modLink l (fun k => k.withLevels levels (max 1 (min 3 threshold)))).done
        (if max 1 (min 3 threshold) = threshold then .ok else .clamped)
        (levels.map (BitVec.ofNat 8) ++ [BitVec.ofNat 8 (max 1 (min 3 threshold))]) := by
  have hall : levels.all (fun n => decide (n < 4)) = true := by simpa using hv
  have hmap : levels.flatMap u8 = levels.map (BitVec.ofNat 8) := by
    rw [List.map_eq_flatMap]; rfl
  rw [State.bodySetNoticeLevels, if_pos ⟨hl, hall⟩, clampStatus_one, hmap]
  rfl

/-- A table made of a list of its own length reads as the list. -/
theorem at_ofList {n : Nat} {xs : List Nat} (h : xs.length = n) (i : Nat) (hi : i < n) :
    Table.at (Table.ofList n 0 xs) 0 i = xs.getD i 0 := by
  subst h
  simp [Table.at, Table.ofList, List.getD_eq_getElem?_getD, hi]

/-- Settles O58: the three outcomes of an offer, and the two commands on a link's notices. -/
theorem noticesAreQueuedAndTaken : Obligations.NoticesAreQueuedAndTaken := by
  refine ⟨fun e s => ⟨rfl, fun l => ?_⟩, fun l s => ⟨fun count h hc => exec_answers h rfl rfl (s.bodyTakeNotices_eq l hc),
    fun levels threshold h hl hv => ?_⟩⟩
  · intro k level new
    rw [State.link_raise]
    exact ⟨fun h => offer_level_zero s.stamp h, fun h hr => offer_with_room s.stamp h hr,
      fun h hr => offer_full s.stamp h hr⟩
  · refine ⟨_, exec_answers h rfl rfl (s.bodySetNoticeLevels_eq l threshold hl hv), fun i hi => ?_, ?_⟩
    · rw [State.link_modLink_same]
      exact at_ofList hl i hi
    · rw [State.link_modLink_same]; rfl

end Sys2Proof.Machine
end

section
/-! What the reads answer (sections 1.5, 3.7, 5.5, 7.7, 8.8, 9.2 and 10.7). -/

namespace Sys2Proof.Machine

/-- A read whose answer is known. -/
theorem exec_reads {i : Instr} {l : Link} {body : State → Reply} {s : State} {d e : List Byte} (h : s.hears l i)
    (hb : commandBody i = some (l, .either, body)) (ho : body s = s.done .ok d) (hd : d = e) :
    exec i s = .next (s.replied l .ok e) :=
  hd ▸ exec_answers h hb rfl ho

/-- The numbers below a limit of a range are a shorter range. -/
theorem filter_lt_range (m k : Nat) : (List.range m).filter (fun i => decide (i < k)) = List.range (min m k) := by
  induction m with
  | zero => simp
  | succ m ih =>
    rw [List.range_succ, List.filter_append, ih]
    by_cases h : m < k
    · rw [show min (m + 1) k = min m k + 1 by omega, List.range_succ, show min m k = m by omega]
      simp [h]
    · rw [show min (m + 1) k = min m k by omega]
      simp [h]

/-- The records a read covers: from `first`, at most `most` of them, as far as there are any. -/
theorem recordsFrom_eq (first count most limit : Nat) : recordsFrom first count most limit
    = (List.range (min (min count most) (limit - first))).map (fun i => first + i) := by
  rw [recordsFrom, List.filter_map, ← filter_lt_range (min count most)]
  congr 2
  funext i
  simp only [Function.comp, decide_eq_decide]
  omega

theorem State.circuitBytes_eq (s : State) (n : Nat) :
    let c := s.circuit n
    let one (f : Filter) : List Byte :=
      u8 f.accepted.toNat ++ optField 1 (fun (c : Code) => u8 c.toNat) f.candidate ++ u8 f.count
    s.circuitBytes n = u16 n ++ flag c.equipped ++ flag c.held ++ u8 c.cls.code ++ u8 c.group ++ u8 c.state.code
      ++ optField 1 u8 c.context ++ u8 c.receive.code ++ u8 c.transmit.code ++ optField 2 u16 c.slot
      ++ optField 1 (fun e => u8 e.direction.code) (s.queue.find? (fun e => e.circuit == n))
      ++ one c.forward ++ one c.backward ++ u8 c.call.code ++ flag c.conditioned ++ u16 c.residual
      ++ u8 c.residualPath.code ++ u16 c.cellsHeld ++ optField 1 (fun x => u8 x.code) c.lastAbort := by
  simp only [State.circuitBytes, Filter.bytes, List.append_assoc]

theorem Group.bytes_eq (g : Group) : g.bytes
    = u8 g.idle.toNat ++ u8 g.seize.toNat ++ u8 g.answer.toNat ++ u8 g.block.toNat ++ u8 g.seizeIndex
      ++ u8 g.clearIndex ++ u8 g.conditioning.toNat ++ [g.quiet] ++ u8 g.policy.code ++ flag g.autoReturn
      ++ u8 g.recoveryHold ++ u8 g.lockoutLimit ++ u8 g.lockoutWindow ++ flag g.frozen ++ flag g.lockedOut
      ++ u8 g.revertCount ++ optField 1 u8 g.windowTimer ++ u16 g.seizureCount ++ u16 g.busyCount := by
  simp only [Group.bytes, List.append_assoc]

/-- The calls that a span's drain waits for. -/
theorem State.notIdle_count (s : State) (x : Nat) : s.notIdle x = (List.range 30).countP (fun c =>
    (s.circuit (30 * x + c)).equipped && (s.circuit (30 * x + c)).call != .idle) := by
  rw [State.notIdle, circuitsOf, ← List.countP_eq_length_filter, List.countP_map]
  rfl

theorem State.spanBytes_eq (s : State) (x : Nat) :
    let p := s.span x
    s.spanBytes x = u8 p.state.code ++ flag p.relay ++ flag p.line.los ++ u8 p.line.run ++ flag p.switch.los
      ++ u8 p.switch.run ++ flag p.markerLoss ++ u16 p.lossCount ++ optField 2 u16 p.tc
      ++ u8 ((List.range 30).countP (fun c =>
          (s.circuit (30 * x + c)).equipped && (s.circuit (30 * x + c)).call != .idle)) := by
  simp only [State.spanBytes, Framing.bytes, State.notIdle_count, List.append_assoc]

/-- Settles O59, read by read. -/
theorem recordsAreRead : Obligations.RecordsAreRead := by
  intro l s
  refine ⟨fun first count h hf hc => ?_, fun n h hn => exec_reads h rfl (if_pos hn) (Group.bytes_eq _),
    fun x h hx => exec_reads h rfl (if_pos hx) (s.spanBytes_eq x), fun first count h hf hc => ?_, fun h => ?_,
    fun first count h hf hc => ⟨?_, fun i e he => ?_⟩⟩
  · refine exec_reads h rfl (if_pos ⟨circuitOk_iff.2 hf, Nat.pos_iff_ne_zero.1 hc⟩) ?_
    rw [recordsFrom_eq]
    exact congrArg (fun f => List.flatMap f _) (funext fun n => s.circuitBytes_eq n)
  · refine exec_reads h rfl (if_pos ⟨hf, Nat.pos_iff_ne_zero.1 hc⟩) ?_
    have hentry : s.mapEntryBytes = fun k =>
        u16 k ++ optField 2 u16 (s.boundTo k) ++ u8 (s.slotCode k).toNat ++ flag (s.slotCode k != 15) := rfl
    simp only [recordsFrom_eq, hentry, List.append_assoc]
  · refine exec_reads h rfl rfl ?_
    rw [show Edit.bytes = fun e => match e with
      | .assign slot n => u8 0 ++ u16 slot ++ u16 n
      | .release slot => u8 1 ++ u16 slot from funext fun e => by cases e <;> rfl] <;> rfl
  · refine exec_reads h rfl (if_pos ⟨hf, Nat.pos_iff_ne_zero.1 hc⟩) ?_
    rw [recordsFrom_eq]
  · simp only [State.entryBytes, he]

/-! ### Contexts, peer, faults, status, counters -/

theorem State.contextBytes_eq (s : State) (n : Nat) :
    let x := s.ctx n
    let place := s.pool.waitList.findIdx? (fun c => c == n)
    s.contextBytes n = u8 x.state.code ++ u8 x.role.code ++ u8 x.direction.code ++ u16 x.circuit ++ u16 x.slot
      ++ u8 x.origin.code ++ u8 x.policy.code ++ u8 x.attempt ++ u8 x.attemptN ++ u8 x.attemptLimit ++ u16 x.start
      ++ u16 x.elapsed ++ u8 x.n ++ s16 x.sum ++ optField 2 s16 x.min ++ optField 2 s16 x.max ++ optField 2 s16 x.lead
      ++ u16 x.cells ++ flag x.switched ++ u16 x.stepTimer ++ u16 x.bridgeTimer ++ u8 x.abortCount
      ++ optField 2 (fun p => u8 p.1.code ++ [p.2]) x.lastStep ++ flag x.peerEntry
      ++ optField 4 (fun e => u8 e.origin.code ++ u16 e.stamp ++ flag e.idleOnly) x.served
      ++ optField 5 (fun e => u8 e.direction.code ++ u8 e.origin.code ++ u16 e.stamp ++ flag e.idleOnly) x.parked
      ++ optField 1 (fun c => u8 c.code) x.abortCause ++ optField 1 u8 place
      ++ optField 2 u16 (place.map (fun i => if i = 0 then s.pool.waitCount else 0))
      ++ u16 ((s.circuit x.circuit).delay .copper) ++ u16 ((s.circuit x.circuit).delay .fibre)
      ++ optField 1 (fun a => u8 a.step.code) (s.peer.adverts.find? (fun a => a.kind == .context n)) := by
  have hof : (fun a : Advert => a.isOf n) = fun a => a.kind == .context n := by
    funext a
    cases hk : a.kind <;> simp [Advert.isOf, hk, Bool.beq_eq_decide_eq]
  have hadv : optField 1 (fun (t : Step) => u8 t.code) (s.advertised n)
      = optField 1 (fun a => u8 a.step.code) (s.peer.adverts.find? (fun a => a.kind == .context n)) := by
    rw [State.advertised, hof]
    cases s.peer.adverts.find? (fun a => a.kind == .context n) <;> rfl
  intro x place
  rw [State.contextBytes, hadv]
  simp only [Ctx.bytes, Ctx.attemptBytes, List.append_assoc]
  rfl

theorem State.busyContexts_eq (s : State) :
    s.busyContexts = (List.range 8).countP (fun c => decide ((s.ctx c).state ≠ .free)) := by
  rw [State.busyContexts, contextNumbers, ← List.countP_eq_length_filter]
  congr 1
  funext c
  by_cases h : (s.ctx c).state = .free <;> simp [Ctx.busy, h]

/-- No context is free where all eight are busy. -/
theorem State.noContext_eq (s : State) :
    s.noContext = decide ((List.range 8).countP (fun c => decide ((s.ctx c).state ≠ .free)) = 8) := by
  have hb : ∀ c, (s.ctx c).busy = decide ((s.ctx c).state ≠ .free) := fun c => by
    by_cases h : (s.ctx c).state = .free <;> simp [Ctx.busy, h]
  have := List.countP_eq_length (p := fun c => decide ((s.ctx c).state ≠ .free)) (l := List.range 8)
  rw [List.length_range] at this
  rw [Bool.eq_iff_iff, decide_eq_true_iff, this]
  simp [State.noContext, contextNumbers, hb]

/-- The bytes of the link that carries the answer, and of the other. -/
theorem State.linkBytes_eq (s : State) (l m : Link) : s.linkBytes l m
    = flag (!(s.link m).alive) ++ optField 2 u16 (s.link m).watchdog
      ++ u8 (if m = l then 4 else (s.link m).rx.code) ++ optField 3 u24 (s.link m).rate := rfl

theorem State.bodyReadPeer_eq (s : State) {part : Nat} (h : part < 2) :
    s.bodyReadPeer part = s.done .ok (if part = 0 then s.peerHead ++ s.peer.adverts.flatMap Advert.bytes
      else s.peerHead ++ u8 s.peer.view.length ++ s.peer.view.flatMap ViewEntry.bytes ++ u16 s.peer.viewFull) := by
  match part, h with
  | 0, _ => rfl
  | 1, _ => rfl

theorem State.bodyReadCounters_eq (s : State) {clear : Nat} {c : Bool} (h : readBool clear = some c) :
    s.bodyReadCounters clear = (if c then s.clearCounters else s).done .ok s.counterBytes := by
  cases c <;> simp [State.bodyReadCounters, h]

/-- Settles O60, view by view. -/
theorem viewsOfThePartAreRead : Obligations.ViewsOfThePartAreRead := by
  intro l s
  refine ⟨fun n h hn => exec_reads h rfl (if_pos hn) (s.contextBytes_eq n),
    fun part h hp => exec_reads h rfl (s.bodyReadPeer_eq hp) ?_, fun h => exec_reads h rfl rfl ?_,
    fun h => exec_reads h rfl rfl ?_, fun clear c h hc => ?_⟩
  · have hadv : Advert.bytes = fun a => match a.kind with
        | .context c => u8 0 ++ u8 c ++ u16 a.slot ++ u8 a.step.code ++ [a.argument]
        | .linger n _ => u8 1 ++ u16 a.slot ++ u8 a.step.code ++ [a.argument] ++ u8 n := by
      funext a; cases ha : a.kind <;> simp [Advert.bytes, ha]
    rw [hadv]
    simp only [State.peerHead, List.append_assoc] <;> rfl
  · rw [List.map_eq_flatMap]
    rfl
  · have hspans : (Table.toList s.spans).flatMap (fun x => u8 x.state.code)
        = (List.range 16).flatMap (fun x => u8 (s.span x).state.code) := by
      rw [toList_eq s.spans Span.reset, List.flatMap_map]; rfl
    have hwait : s.pool.waitList.flatMap u8 = s.pool.waitList.map (BitVec.ofNat 8) := by
      rw [List.map_eq_flatMap]; rfl
    have hcause : resetCauseCode s.resetCause = match s.resetCause with | .powerOn => 0 | .pin => 1 := by
      cases s.resetCause <;> rfl
    simp only [hspans, State.statusIdentity, State.statusAdmission, State.statusPool, State.statusAlignment,
      State.linkBytes_eq, State.noContext_eq, State.busyContexts_eq, hwait, hcause, List.append_assoc] <;> rfl
  · rw [exec_answers h rfl rfl (s.bodyReadCounters_eq hc)]
    have hbytes : s.counterBytes = u16 s.linkA.crcErrors ++ u16 s.linkA.framingErrors ++ u16 s.linkB.crcErrors
        ++ u16 s.linkB.framingErrors ++ u32 s.port.erroredFrames ++ u16 s.port.wordChecks ++ u16 s.port.windowPosition
        ++ u16 s.port.windowCount ++ u16 s.peer.viewFull := by
      simp only [State.counterBytes, LinkRec.counterBytes, List.append_assoc]
    rw [hbytes]
    rfl

end Sys2Proof.Machine
end

section
/-! The derivation of a call state written out, and with it supervision (R22 to R31), conditioning (R164) and
SET_SIGNALLING (R37, R38). -/

namespace Sys2Proof.Machine

/-! ### Records written back unchanged -/

theorem Table.put_at_same {α : Type} {n : Nat} (t : Vector α n) (d : α) (i : Nat) : Table.put t i (Table.at t d i) = t :=
  Table.ext_at _ _ d fun j hj => by
    rw [Table.at_put_at]
    split
    · next h => rw [h.1]
    · rfl

theorem State.modCircuit_same {s : State} {n : Nat} {f : Circuit → Circuit} (h : f (s.circuit n) = s.circuit n) :
    s.modCircuit n f = s := by
  simp only [State.modCircuit, State.setCircuit, h]
  rw [State.circuit, Table.put_at_same]

theorem State.modGroup_same {s : State} {n : Nat} {f : Group → Group} (h : f (s.group n) = s.group n) :
    s.modGroup n f = s := by
  simp only [State.modGroup, State.setGroup, h]
  rw [State.group, Table.put_at_same]

/-! ### The derivation of the call state (R29 to R31, R105) -/

theorem Group.countChange_same (g : Group) (c : CallState) : g.countChange c c = g := by
  unfold Group.countChange
  cases c.busy <;> simp

theorem callNotice_same (n : Nat) (c : CallState) : callNotice n c c = none := by cases c <;> rfl

/-- The counts of a group at a change of a call state. -/
theorem Group.countChange_eq (g : Group) (old new : CallState) : g.countChange old new = { g with
    busyCount := if old.busy = new.busy then g.busyCount else if new.busy then g.busyCount + 1 else g.busyCount - 1
    seizureCount := if old = .idle ∧ new.busy = true then (g.seizureCount + 1) % 65536 else g.seizureCount } := by
  cases old <;> cases new <;> rfl

/-- The call state of a circuit with its counts and its notice, before a residual is dropped. -/
def State.withCall (s : State) (n : Nat) (new : CallState) : State :=
  ((s.modCircuit n (fun c => { c with call := new })).modGroup (s.circuit n).group
    (fun g => g.countChange (s.circuit n).call new)).raiseIf (callNotice n (s.circuit n).call new)

/-- The call of a circuit ends with a residual. -/
def State.endsCall (s : State) (n : Nat) (new : CallState) : Prop :=
  new = .idle ∧ (s.circuit n).call ≠ .idle ∧ (s.circuit n).residual ≠ 0

theorem State.withCall_same {s : State} {n : Nat} {new : CallState} (h : new = (s.circuit n).call) :
    s.withCall n new = s := by
  subst h
  rw [State.withCall, callNotice_same, State.modCircuit_same rfl, State.modGroup_same (Group.countChange_same _ _)]
  rfl

theorem State.circuit_withCall (s : State) {n : Nat} (new : CallState) (hn : n < 480) :
    (s.withCall n new).circuit n = { s.circuit n with call := new } := by
  rw [State.withCall, State.circuit_raiseIf, State.circuit_modGroup, State.circuit_modCircuit, if_pos ⟨rfl, hn⟩]

/-- Nothing but the call state changes where no residual ends with the call. -/
theorem State.deriveCall_stays {s : State} {n : Nat} (hn : n < 480) (h : ¬ s.endsCall n (s.derivedCall n)) :
    s.deriveCall n = s.withCall n (s.derivedCall n) := by
  unfold State.deriveCall
  split
  case isTrue hc => exact (State.withCall_same hc).symm
  case isFalse hc =>
  show (if s.derivedCall n = .idle then (s.withCall n (s.derivedCall n)).dropAtIdle n else s.withCall n (s.derivedCall n)) = _
  split
  case isFalse => rfl
  case isTrue hi =>
  have hr : (s.circuit n).residual = 0 := by
    by_contra hne
    exact h ⟨hi, fun he => hc (hi.trans he.symm), hne⟩
  exact if_pos (by rw [State.circuit_withCall s _ hn]; exact hr)

/-- A residual ends with the call. -/
theorem State.deriveCall_drops {s : State} {n : Nat} (hn : n < 480) (h : s.endsCall n (s.derivedCall n)) :
    s.deriveCall n = ((s.withCall n .idle).dropResidual n).raise
      { cls := .walkDone, subject := some (.circuit n), cause := none, value := valueOf (s.circuit n).cellsHeld } := by
  obtain ⟨hi, hc, hr⟩ := h
  have hne : s.derivedCall n ≠ (s.circuit n).call := by rw [hi]; exact hc.symm
  unfold State.deriveCall
  rw [if_neg hne, hi]
  show (s.withCall n .idle).dropAtIdle n = _
  rw [State.dropAtIdle, State.circuit_withCall s _ hn, if_neg hr]

theorem State.circuit_dropResidual (s : State) {n : Nat} (hn : n < 480) :
    (s.dropResidual n).circuit n = { (s.circuit n).setLine (s.circuit n).residualPath [] with
      residual := 0, cellsHeld := 0 } := by
  show (s.modCircuit n (fun c => { c.dropOn c.residualPath with residual := 0, cellsHeld := 0 })).circuit n = _
  rw [State.circuit_modCircuit, if_pos ⟨rfl, hn⟩]
  rfl

/-- What the derivation leaves of a circuit's record. -/
theorem State.circuit_deriveCall_drops {s : State} {n : Nat} (hn : n < 480) (h : s.endsCall n (s.derivedCall n)) :
    (s.deriveCall n).circuit n = { (s.circuit n).setLine (s.circuit n).residualPath [] with
      call := .idle, residual := 0, cellsHeld := 0 } := by
  rw [State.deriveCall_drops hn h]
  show ((s.withCall n .idle).dropResidual n).circuit n = _
  rw [State.circuit_dropResidual _ hn, State.circuit_withCall s _ hn]
  cases (s.circuit n).residualPath <;> rfl

theorem State.circuit_deriveCall_stays {s : State} {n : Nat} (hn : n < 480) (h : ¬ s.endsCall n (s.derivedCall n)) :
    (s.deriveCall n).circuit n = { s.circuit n with call := s.derivedCall n } := by
  rw [State.deriveCall_stays hn h, State.circuit_withCall s _ hn]

/-- The call state is that of the two accepted codes, and the filters and the conditioned mark stay. -/
theorem State.circuit_deriveCall (s : State) {n : Nat} (hn : n < 480) :
    ((s.deriveCall n).circuit n).call = s.derivedCall n
      ∧ ((s.deriveCall n).circuit n).backward = (s.circuit n).backward
      ∧ ((s.deriveCall n).circuit n).forward = (s.circuit n).forward := by
  by_cases h : s.endsCall n (s.derivedCall n)
  · rw [State.circuit_deriveCall_drops hn h, h.1]
    cases (s.circuit n).residualPath <;> exact ⟨rfl, rfl, rfl⟩
  · rw [State.circuit_deriveCall_stays hn h]; exact ⟨rfl, rfl, rfl⟩

/-- The group of the circuit counts the change; no other group does. -/
theorem State.group_deriveCall (s : State) (n k : Nat) (hn : n < 480) (hg : (s.circuit n).group < 16) :
    (s.deriveCall n).group k = if k = (s.circuit n).group then
      (s.group k).countChange (s.circuit n).call (s.derivedCall n) else s.group k := by
  have hw (new : CallState) : (s.withCall n new).group k = if k = (s.circuit n).group then
      (s.group k).countChange (s.circuit n).call new else s.group k := by
    have hraise (t : State) (e : Option Event) : (t.raiseIf e).group k = t.group k := by cases e <;> rfl
    rw [State.withCall, hraise, State.group_modGroup]
    by_cases hk : k = (s.circuit n).group
    · rw [hk, if_pos ⟨rfl, hg⟩, if_pos rfl]; rfl
    · rw [if_neg (fun h => hk h.1), if_neg hk]; rfl
  by_cases h : s.endsCall n (s.derivedCall n)
  · rw [State.deriveCall_drops hn h, ← hw (s.derivedCall n), h.1]; rfl
  · rw [State.deriveCall_stays hn h, hw]

/-! ### Conditioning (R33, R34, R164) -/

theorem State.liveWith_condition (s : State) (k : FaultKind) (x : Nat) :
    s.liveWith k x Actions.condition = true ↔
      (s.fault k x).enabled = true ∧ (s.fault k x).live = true ∧ (s.fault k x).actions.condition = true := by
  simp [State.liveWith, and_assoc]

theorem SpanState.cut_iff (st : SpanState) : st.cut = true ↔ st = .inserted ∨ st = .drainOut := by
  cases st <;> decide

/-- The circuit's own slot delivers codes. -/
theorem State.ownSlotLive_iff (s : State) (n : Nat) :
    s.ownSlotLive n = true ↔ ∃ k, (s.circuit n).slot = some k ∧ s.slotCode k ≠ 15 := by
  cases h : (s.circuit n).slot <;> simp [State.ownSlotLive, h, State.slotLive]

/-- Settles O17: the table of R164, and the evaluation by whether a circuit is conditioned already. -/
theorem conditioningForcesTheBackwardCode : Obligations.ConditioningForcesTheBackwardCode := by
  intro n s hn c g down copperDown fibreDown pathless wants t
  have hcopper : s.copperDown (spanOf n) = true ↔ copperDown := s.liveWith_condition _ _
  have hfibre : s.fibreDown = true ↔ fibreDown := s.liveWith_condition _ _
  have hpath : s.pathless n = true ↔ pathless := by
    cases hst : (s.circuit n).state
    case migrating =>
      cases hrx : (s.circuit n).receive <;> simp [State.pathless, hst, hrx, hcopper, hfibre, pathless, c]
    case fibreProtected => simp [State.pathless, hst, hcopper, hfibre, pathless, c]
    case fibreOnly =>
      have hlive := s.ownSlotLive_iff n
      simp only [State.pathless, hst, Bool.or_eq_true, hfibre, pathless, c, Bool.not_eq_true', ← Bool.not_eq_true, hlive]
    all_goals simp [State.pathless, hst, hcopper, pathless, c]
  have hwants : s.wantsConditioning n = true ↔ wants := by
    simp only [State.wantsConditioning, Bool.and_eq_true, SpanState.cut_iff, hpath, and_assoc]
    rfl
  have hmark : (t.circuit n).conditioned = s.wantsConditioning n := State.conditioned_recondition hn
  refine ⟨hwants, by rw [hmark, hwants], fun h => State.recondition_of_right ?_, fun h hc => ?_, fun h hc => ?_⟩
  · rw [Bool.eq_iff_iff, hwants]; exact h.symm
  · have hf : ¬ s.wantsConditioning n = (s.circuit n).conditioned := fun he =>
      h (hwants.1 (he.trans hc))
    simp only [t, State.recondition, if_neg hf]
    exact if_pos hc
  · have hf : ¬ s.wantsConditioning n = (s.circuit n).conditioned := fun he =>
      Bool.false_ne_true (hc.symm.trans (he.symm.trans (hwants.2 h)))
    have hr := Rederived.recondition s n
    have ht : t = (s.modCircuit n (fun c => { c with
        conditioned := true, backward := Filter.holding (s.groupOf n).conditioning })).deriveCall n := by
      simp only [t, State.recondition, if_neg hf]
      exact if_neg (by simpa using hc)
    have hcirc : (s.modCircuit n (fun c => { c with
        conditioned := true, backward := Filter.holding (s.groupOf n).conditioning })).circuit n
          = { c with conditioned := true, backward := ⟨g.conditioning, none, 0⟩ } := by
      rw [State.circuit_modCircuit, if_pos ⟨rfl, hn⟩]; rfl
    obtain ⟨hcall, hback, hfwd⟩ := State.circuit_deriveCall (s.modCircuit n (fun c => { c with
        conditioned := true, backward := Filter.holding (s.groupOf n).conditioning })) hn
    refine ⟨by rw [ht, hback, hcirc], by rw [ht, hfwd, hcirc], ?_, fun m hm => hr.others m (by simp [hm]), hr.same⟩
    rw [ht, hcall, State.derivedCall, State.groupOf, hcirc]
    rfl

/-! ### Supervision (R22 to R28) -/

theorem persistence_eq (i : Nat) : persistence i = [0, 1, 2, 4, 8, 16, 32, 64].getD i 64 := by
  match i with
  | 0 | 1 | 2 | 3 | 4 | 5 | 6 | 7 => rfl
  | i + 8 => rfl

theorem Group.persistenceFor_eq (g : Group) (m : Meaning) : g.persistenceFor m
    = [0, 1, 2, 4, 8, 16, 32, 64].getD (if m = .idle then g.clearIndex else g.seizeIndex) 64 := by
  rw [← persistence_eq]; cases m <;> rfl

/-- A candidate's run as a code arrives. -/
def Filter.runWith (f : Filter) (c : Code) : Nat := if f.candidate = some c then min 65 (f.count + 1) else 1

theorem Filter.take_accepted {f : Filter} {c : Code} (h : c = f.accepted) : f.take c = ⟨f.accepted, none, 0⟩ := if_pos h

theorem Filter.take_other {f : Filter} {c : Code} (h : c ≠ f.accepted) : f.take c = ⟨f.accepted, some c, f.runWith c⟩ := by
  unfold Filter.take Filter.runWith
  rw [if_neg h]
  split
  case isTrue hc => rw [← hc]
  case isFalse => rfl

/-- What a filter makes of a code other than its accepted one. -/
theorem Filter.supervise_other {f : Filter} {c : Code} (g : Group) (h : c ≠ f.accepted) :
    (g.meaning c = none → f.supervise g (some c) = ⟨f.accepted, some c, f.runWith c⟩)
    ∧ ∀ m, g.meaning c = some m → f.supervise g (some c) =
      if g.persistenceFor m < f.runWith c then ⟨c, none, 0⟩ else ⟨f.accepted, some c, f.runWith c⟩ := by
  refine ⟨fun hm => ?_, fun m hm => ?_⟩ <;> simp only [Filter.supervise, Filter.take_other h, Filter.accept, hm]
  rfl

/-- A code is reported where its run passes the clear persistence. -/
theorem Filter.reports_iff (f : Filter) (g : Group) (c : Code) :
    f.reports g c = true ↔ c ≠ f.accepted ∧ g.meaning c = none ∧ f.runWith c = persistence g.clearIndex + 1
      ∧ ¬ (f.candidate = some c ∧ f.count = persistence g.clearIndex + 1) := by
  by_cases h : c = f.accepted
  · have hn : (f.take c).candidate ≠ some c := by rw [Filter.take_accepted h]; simp
    have hr : f.reports g c = false := by simp [Filter.reports, hn]
    rw [hr]
    exact ⟨nofun, fun hc => absurd h hc.1⟩
  · simp only [Filter.reports, Filter.take_other h, beq_self_eq_true, Bool.true_and, Bool.and_eq_true, Bool.not_eq_true',
      Bool.and_eq_false_iff, Option.isNone_iff_eq_none, beq_iff_eq, beq_eq_false_iff_ne, ne_eq, not_and_or]
    constructor
    · rintro ⟨⟨hm, hr⟩, hn⟩; exact ⟨h, hm, hr, hr ▸ hn⟩
    · rintro ⟨-, hm, hr, hn⟩; exact ⟨⟨hm, hr⟩, hr ▸ hn⟩

/-- A link's record after a notice that may be raised. -/
def LinkRec.offerIf (k : LinkRec) (stamp : Nat) : Option Event → LinkRec
  | some e => k.offer stamp e
  | none => k

theorem State.link_raiseIf (s : State) (e : Option Event) (l : Link) :
    (s.raiseIf e).link l = (s.link l).offerIf s.stamp e := by
  cases e with
  | none => rfl
  | some e => exact s.link_raise e l

theorem State.link_withCall (s : State) (n : Nat) (new : CallState) (l : Link) :
    (s.withCall n new).link l = (s.link l).offerIf s.stamp (callNotice n (s.circuit n).call new) := by
  rw [State.withCall, State.link_raiseIf]
  cases l <;> rfl

theorem State.link_deriveCall_stays {s : State} {n : Nat} (hn : n < 480) (h : ¬ s.endsCall n (s.derivedCall n)) (l : Link) :
    (s.deriveCall n).link l = (s.link l).offerIf s.stamp (callNotice n (s.circuit n).call (s.derivedCall n)) := by
  rw [State.deriveCall_stays hn h, State.link_withCall]

theorem State.link_deriveCall_drops {s : State} {n : Nat} (hn : n < 480) (h : s.endsCall n (s.derivedCall n)) (l : Link) :
    (s.deriveCall n).link l
      = ((s.link l).offerIf s.stamp (callNotice n (s.circuit n).call (s.derivedCall n))).offer s.stamp
        { cls := .walkDone, subject := some (.circuit n), cause := none, value := valueOf (s.circuit n).cellsHeld } := by
  rw [State.deriveCall_drops hn h, State.link_raise, h.1, ← State.link_withCall]
  have hstamp : ((s.withCall n .idle).dropResidual n).stamp = s.stamp := by
    unfold State.withCall
    cases callNotice n (s.circuit n).call .idle <;> rfl
  rw [hstamp]
  cases l <;> rfl

/-- The notice of a call's change, in the words of R31. -/
theorem LinkRec.offerIf_callNotice (k : LinkRec) (stamp n : Nat) (old new : CallState) :
    k.offerIf stamp (callNotice n old new)
      = if new.busy = true ∧ old = .idle then k.offer stamp {
          cls := .seize, subject := some (.circuit n), cause := none, value := some (BitVec.ofNat 16 new.code) }
        else if new = .idle ∧ old.busy = true then k.offer stamp {
          cls := .clear, subject := some (.circuit n), cause := none, value := some (BitVec.ofNat 16 old.code) }
        else k := by
  cases old <;> cases new <;> rfl

/-- The notice of a filter, in the words of R27. -/
theorem LinkRec.offerIf_filterNotice (k : LinkRec) (stamp n : Nat) (f : Filter) (g : Group) (backward : Bool)
    (code : Option Code) :
    k.offerIf stamp (f.notice g n backward code) = match code with
      | some x => if x ≠ f.accepted ∧ g.meaning x = none ∧ f.runWith x = persistence g.clearIndex + 1
            ∧ ¬ (f.candidate = some x ∧ f.count = persistence g.clearIndex + 1) then
          k.offer stamp {
            cls := .unrecognised, subject := some (.circuit n), cause := none
            value := some (BitVec.ofNat 16 (x.toNat + if backward then 16 else 0)) }
        else k
      | none => k := by
  cases code with
  | none => rfl
  | some x =>
    simp only [Filter.notice, Filter.reports_iff]
    split <;> rfl

/-- A circuit with its filters supervised, before its call state is derived. -/
def State.filtered (s : State) (n : Nat) : State :=
  let c := s.circuit n
  let g := s.groupOf n
  let bwd := if c.conditioned then none else s.backwardCode n
  ((s.modCircuit n (fun c => { c with
    forward := c.forward.supervise g (s.forwardCode n)
    backward := if c.conditioned then Filter.holding g.conditioning else c.backward.supervise g bwd })).raiseIf
      (c.forward.notice g n false (s.forwardCode n))).raiseIf (c.backward.notice g n true bwd)

theorem State.superviseCircuit_equipped {s : State} {n : Nat} (h : (s.circuit n).equipped = true) :
    s.superviseCircuit n = (s.filtered n).deriveCall n := if_pos h

theorem State.circuit_filtered (s : State) (n : Nat) (hn : n < 480) :
    (s.filtered n).circuit n = { s.circuit n with
      forward := (s.circuit n).forward.supervise (s.groupOf n) (s.forwardCode n)
      backward := if (s.circuit n).conditioned then Filter.holding (s.groupOf n).conditioning
        else (s.circuit n).backward.supervise (s.groupOf n) (s.backwardCode n) } := by
  rw [State.filtered, State.circuit_raiseIf, State.circuit_raiseIf, State.circuit_modCircuit, if_pos ⟨rfl, hn⟩]
  by_cases hc : (s.circuit n).conditioned = true <;> simp only [hc, if_true, if_false, Bool.false_eq_true]

/-- What filtering leaves of the part. -/
theorem State.filtered_same (s : State) (n : Nat) :
    s.filtered n = { s with
      circuits := (s.filtered n).circuits, linkA := (s.filtered n).linkA, linkB := (s.filtered n).linkB } := by
  have hf : ∃ (u : State) (a b : Option Event), s.filtered n = (u.raiseIf a).raiseIf b
      ∧ u = { s with circuits := u.circuits } := ⟨_, _, _, rfl, rfl⟩
  obtain ⟨u, a, b, hf, hu⟩ := hf
  rw [hf]
  cases a <;> cases b <;> rw [hu] <;> rfl

theorem State.link_filtered (s : State) (n : Nat) (l : Link) :
    (s.filtered n).link l = ((s.link l).offerIf s.stamp
        ((s.circuit n).forward.notice (s.groupOf n) n false (s.forwardCode n))).offerIf s.stamp
      ((s.circuit n).backward.notice (s.groupOf n) n true
        (if (s.circuit n).conditioned then none else s.backwardCode n)) := by
  have hstamp (t : State) (e : Option Event) : (t.raiseIf e).stamp = t.stamp := by cases e <;> rfl
  simp only [State.filtered, State.link_raiseIf, hstamp]
  cases l <;> rfl

end Sys2Proof.Machine
end

section
/-! Supervision at a boundary (R22 to R31, R105) and SET_SIGNALLING (R37, R38), from the derivation of a call state. -/

namespace Sys2Proof.Machine

/-! ### Supervision -/

/-- The call state that supervision derives for an equipped circuit. -/
theorem State.derivedCall_filtered (s : State) (n : Nat) (hn : n < 480) :
    (s.filtered n).derivedCall n = callTable
      ((s.groupOf n).acceptedMeaning ((s.circuit n).forward.supervise (s.groupOf n) (s.forwardCode n)).accepted)
      ((s.groupOf n).acceptedMeaning (if (s.circuit n).conditioned then Filter.holding (s.groupOf n).conditioning
        else (s.circuit n).backward.supervise (s.groupOf n) (s.backwardCode n)).accepted) := by
  have hg : (s.filtered n).groupOf n = s.groupOf n := by
    rw [State.groupOf, State.groupOf, s.circuit_filtered n hn]
    exact State.group_congr (congrArg State.groups (s.filtered_same n)) _
  rw [State.derivedCall, hg, s.circuit_filtered n hn]

theorem State.same_deriveCall (s : State) (n : Nat) : s.deriveCall n = { s with
    circuits := (s.deriveCall n).circuits, groups := (s.deriveCall n).groups, pool := (s.deriveCall n).pool
    linkA := (s.deriveCall n).linkA, linkB := (s.deriveCall n).linkB } := (Rederived.deriveCall s n).same

/-- Where no residual ends with the call, the pool keeps what it holds. -/
theorem State.pool_deriveCall_stays {s : State} {n : Nat} (hn : n < 480) (h : ¬ s.endsCall n (s.derivedCall n)) :
    (s.deriveCall n).pool = s.pool := by
  rw [State.deriveCall_stays hn h]
  unfold State.withCall
  cases callNotice n (s.circuit n).call (s.derivedCall n) <;> rfl

theorem State.pool_deriveCall_drops {s : State} {n : Nat} (hn : n < 480) (h : s.endsCall n (s.derivedCall n)) :
    (s.deriveCall n).pool = { s.pool with free := s.pool.free + (s.circuit n).cellsHeld } := by
  have hp : (s.withCall n .idle).pool = s.pool := by
    unfold State.withCall
    cases callNotice n (s.circuit n).call .idle <;> rfl
  rw [State.deriveCall_drops hn h]
  show { (s.withCall n .idle).pool with
    free := (s.withCall n .idle).pool.free + ((s.withCall n .idle).circuit n).cellsHeld } = _
  rw [hp, State.circuit_withCall s _ hn]

/-- The filters and the delay lines of a record are apart. -/
theorem Circuit.setLine_filtered (c : Circuit) (p : Path) (l : List (Option Byte)) (f b : Filter) :
    ({ c with forward := f, backward := b } : Circuit).setLine p l = { c.setLine p l with forward := f, backward := b } := by
  cases p <;> rfl

/-- Settles O16: first what one filter does with one code, then the circuit's record, its group, its cells and its
notices. -/
theorem supervisionFollowsTheCodes : Obligations.SupervisionFollowsTheCodes := by
  refine ⟨fun f g c => ⟨rfl, fun h => ?_, fun h => ?_⟩, ?_⟩
  · simp only [Filter.supervise, Filter.take_accepted h, Filter.accept]
  · obtain ⟨unknown, known⟩ := Filter.supervise_other g h
    exact ⟨unknown, fun m hm => by rw [known m hm, Group.persistenceFor_eq]; rfl⟩
  intro n s hn hg c g heard selected fwd bwd call ends t
  refine ⟨fun he => if_neg (by simp only [c] at he; simp [he]), fun he => ?_⟩
  have ht : t = (s.filtered n).deriveCall n := State.superviseCircuit_equipped he
  have hselected : s.backwardCode n = selected := by
    simp only [State.backwardCode, selected, c]
    cases (s.circuit n).receive <;> rfl
  have hcirc := s.circuit_filtered n hn
  have hcall : (s.filtered n).derivedCall n = call := by
    rw [s.derivedCall_filtered n hn, hselected]; rfl
  have hends : (s.filtered n).endsCall n call ↔ ends := by rw [State.endsCall, hcirc]
  have hgroups (k : Nat) : (s.filtered n).group k = s.group k :=
    State.group_congr (congrArg State.groups (s.filtered_same n)) k
  have hpool : (s.filtered n).pool = s.pool := by rw [s.filtered_same n]
  have hstamp : (s.filtered n).stamp = s.stamp := by rw [s.filtered_same n]
  have hgroup (k : Nat) : t.group k = if k = c.group then (s.group k).countChange c.call call else s.group k := by
    have hgr : ((s.filtered n).circuit n).group = c.group := by rw [hcirc]
    rw [ht, State.group_deriveCall _ n k hn (hgr ▸ hg), hgr, hgroups, hcall, hcirc]
  have hother (m : Nat) (hm : m ≠ n) : t.circuit m = s.circuit m := by
    rw [ht, (Rederived.deriveCall (s.filtered n) n).others m (by simp [hm]), State.filtered, State.circuit_raiseIf,
      State.circuit_raiseIf, State.circuit_modCircuit, if_neg (fun h => hm h.1)]
  refine ⟨fun h => ?_, fun h => ?_, ?_, hother, fun k hk => by rw [hgroup, if_neg hk], ?_, fun l => ?_⟩
  · rw [← hends, ← hcall] at h
    rw [ht, State.circuit_deriveCall_stays hn h, State.pool_deriveCall_stays hn h, hcirc, hcall, hselected, hpool]
    exact ⟨rfl, rfl⟩
  · have hidle : call = .idle := h.1
    rw [← hends, ← hcall] at h
    rw [ht, State.circuit_deriveCall_drops hn h, State.pool_deriveCall_drops hn h, hcirc, hidle, hselected, hpool]
    rw [Circuit.setLine_filtered]
    exact ⟨rfl, rfl⟩
  · rw [hgroup, if_pos rfl, Group.countChange_eq]
  · rw [ht, State.same_deriveCall, s.filtered_same n]
  · have hlink : t.link l = if ends then
          (((s.filtered n).link l).offerIf s.stamp (callNotice n c.call call)).offer s.stamp
            { cls := .walkDone, subject := some (.circuit n), cause := none, value := some (BitVec.ofNat 16 c.cellsHeld) }
        else ((s.filtered n).link l).offerIf s.stamp (callNotice n c.call call) := by
      by_cases h : ends
      · rw [if_pos h]
        rw [← hends, ← hcall] at h
        rw [ht, State.link_deriveCall_drops hn h, hcall, hstamp, hcirc]
        rfl
      · rw [if_neg h]
        rw [← hends, ← hcall] at h
        rw [ht, State.link_deriveCall_stays hn h, hcall, hstamp, hcirc]
    rw [hlink, LinkRec.offerIf_callNotice, s.link_filtered, hselected, LinkRec.offerIf_filterNotice,
      LinkRec.offerIf_filterNotice, persistence_eq]
    rfl

/-! ### SET_SIGNALLING (R37, R38) -/

/-- The settings that a command's values are read as, each in its range and the four codes different. -/
theorem readSignalling_of {i z a b x y c q : Nat} (hi : i < 15) (hz : z < 15) (ha : a < 15) (hb : b < 15) (hc : c < 15)
    (hn : [i, z, a, b].Nodup) (hx : x < 8) (hy : y < 8) (hq : q < 256) :
    readSignalling i z a b x y c q = some {
      idle := BitVec.ofNat 4 i, seize := BitVec.ofNat 4 z, answer := BitVec.ofNat 4 a, block := BitVec.ofNat 4 b
      seizeIndex := x, clearIndex := y, conditioning := BitVec.ofNat 4 c, quiet := BitVec.ofNat 8 q } := by
  have differ {m k : Nat} (hm : m < 15) (hk : k < 15) (h : m ≠ k) : BitVec.ofNat 4 m ≠ BitVec.ofNat 4 k := by
    intro he
    have := congrArg BitVec.toNat he
    simp only [BitVec.toNat_ofNat] at this
    omega
  simp only [List.nodup_cons, List.mem_cons, List.not_mem_nil, or_false, not_or, not_false_eq_true, List.nodup_nil,
    and_true] at hn
  obtain ⟨⟨h1, h2, h3⟩, ⟨h4, h5⟩, h6⟩ := hn
  simp [readSignalling, readGroupCode, hi, hz, ha, hb, hc, hx, hy, hq, SignallingSettings.distinct,
    differ hi hz h1, differ hi ha h2, differ hi hb h3, differ hz ha h4, differ hz hb h5, differ ha hb h6]

/-- SET_SIGNALLING is refused for an equipped circuit of a target group with a call. -/
theorem State.signallingBusy_iff (s : State) (gs : List Nat) : s.signallingBusy gs = true ↔
    ∃ n, n < 480 ∧ (s.circuit n).equipped = true ∧ (s.circuit n).call ≠ .idle ∧ (s.circuit n).group ∈ gs := by
  rw [State.signallingBusy, toList_eq s.circuits Circuit.reset]
  simp only [List.any_map, List.any_eq_true, List.mem_range, Function.comp, Bool.and_eq_true, bne_iff_ne,
    List.contains_iff_mem, and_assoc]
  rfl

/-- One circuit's filters take the new codes and its call state is derived. -/
def State.resignal (s : State) (m : SignallingSettings) (n : Nat) : State :=
  (s.modCircuit n (fun c => c.resignal m)).deriveCall n

/-- From `s` to `t` the circuits of `ns`, all without a call, have taken new signalling codes. -/
structure Resignalled (m : SignallingSettings) (ns : List Nat) (s t : State) : Prop where
  free : ∀ n, n ∈ ns → (s.circuit n).conditioned = false → t.circuit n = { s.circuit n with
    forward := ⟨m.idle, none, 0⟩, backward := ⟨m.idle, none, 0⟩ }
  forced : ∀ n, n ∈ ns → (s.circuit n).conditioned = true →
    (t.circuit n).forward = ⟨m.idle, none, 0⟩ ∧ (t.circuit n).backward = ⟨m.conditioning, none, 0⟩
  others : ∀ n, n ∉ ns → t.circuit n = s.circuit n
  groups : ∀ g, t.group g = { s.group g with
    busyCount := (t.group g).busyCount, seizureCount := (t.group g).seizureCount }
  apart : ∀ g, (∀ n, n ∈ ns → (s.circuit n).group ≠ g) → t.group g = s.group g
  same : t = { s with circuits := t.circuits, groups := t.groups, linkA := t.linkA, linkB := t.linkB }

/-- A circuit without a call, in a group whose IDLE code is the new one already. -/
structure State.readyFor (s : State) (m : SignallingSettings) (n : Nat) : Prop where
  bound : n < 480
  grouped : (s.circuit n).group < 16
  quiet : (s.circuit n).call = .idle
  code : (s.groupOf n).idle = m.idle

/-- One circuit: with the new IDLE code on both filters its call stays IDLE, and no residual ends with a call. -/
theorem State.resignal_one {s : State} {m : SignallingSettings} {n : Nat} (h : s.readyFor m n) :
    Resignalled m [n] s (s.resignal m n) := by
  have hcirc : (s.modCircuit n (fun c => c.resignal m)).circuit n = (s.circuit n).resignal m := by
    rw [State.circuit_modCircuit, if_pos ⟨rfl, h.bound⟩]
  have hr := Rederived.deriveCall (s.modCircuit n (fun c => c.resignal m)) n
  have hgroup : ((s.modCircuit n (fun c => c.resignal m)).circuit n).group = (s.circuit n).group := by rw [hcirc]; rfl
  have hcall : ((s.modCircuit n (fun c => c.resignal m)).circuit n).call = .idle := by rw [hcirc]; exact h.quiet
  have hends (new : CallState) : ¬ (s.modCircuit n (fun c => c.resignal m)).endsCall n new := fun he => he.2.1 hcall
  obtain ⟨-, hback, hfwd⟩ := State.circuit_deriveCall (s.modCircuit n (fun c => c.resignal m)) h.bound
  refine ⟨?_, ?_, fun k hk => ?_, fun g => hr.group g, fun g hg => ?_, ?_⟩
  · intro k hk hc
    obtain rfl := List.mem_singleton.1 hk
    have hidle : (s.modCircuit k (fun c => c.resignal m)).derivedCall k = .idle := by
      have hm : (s.group (s.circuit k).group).acceptedMeaning m.idle = .idle := by
        have : m.idle = (s.group (s.circuit k).group).idle := h.code.symm
        simp [Group.acceptedMeaning, Group.meaning, this]
      rw [State.derivedCall, State.groupOf, hcirc]
      simp only [Circuit.resignal, hc, Bool.false_eq_true, if_false, Filter.holding]
      show callTable ((s.group (s.circuit k).group).acceptedMeaning m.idle)
        ((s.group (s.circuit k).group).acceptedMeaning m.idle) = _
      rw [hm]; rfl
    rw [State.resignal, State.circuit_deriveCall_stays h.bound (hends _), hidle, hcirc, ← h.quiet]
    simp only [Circuit.resignal, hc, Bool.false_eq_true, if_false]
    rfl
  · intro k hk hc
    obtain rfl := List.mem_singleton.1 hk
    rw [State.resignal, hback, hfwd, hcirc]
    simp only [Circuit.resignal, hc, if_true]
    exact ⟨rfl, rfl⟩
  · rw [State.resignal, hr.others k hk, State.circuit_modCircuit, if_neg (fun he => hk (by simp [he.1]))]
  · rw [State.resignal, State.group_deriveCall _ n g h.bound (hgroup ▸ h.grouped), hgroup,
      if_neg (hg n List.mem_cons_self).symm]
    rfl
  · have hp := State.pool_deriveCall_stays h.bound (hends _)
    rw [State.resignal, hr.same, hp]
    rfl

/-- The circuits of a list, one after the other. -/
theorem State.resignal_each {m : SignallingSettings} {ns : List Nat} {s : State} (hn : ns.Nodup)
    (h : ∀ n, n ∈ ns → s.readyFor m n) : Resignalled m ns s (ns.foldl (fun t n => t.resignal m n) s) := by
  induction ns generalizing s with
  | nil => exact ⟨nofun, nofun, fun _ _ => rfl, fun _ => rfl, fun _ _ => rfl, rfl⟩
  | cons k rest ih =>
    obtain ⟨hk, hn⟩ := List.nodup_cons.1 hn
    have one := State.resignal_one (h k List.mem_cons_self)
    have stays (n : Nat) (hr : n ∈ rest) : (s.resignal m k).circuit n = s.circuit n :=
      one.others n (by rw [List.mem_singleton]; rintro rfl; exact hk hr)
    have more := ih hn (s := s.resignal m k) fun n hr => by
      obtain ⟨hb, hg, hq, hc⟩ := h n (List.mem_cons_of_mem k hr)
      refine ⟨hb, by rw [stays n hr]; exact hg, by rw [stays n hr]; exact hq, ?_⟩
      rw [State.groupOf, stays n hr, one.groups]; exact hc
    refine ⟨fun n hx hc => ?_, fun n hx hc => ?_, fun n hx => ?_, fun g => ?_, fun g hg => ?_, ?_⟩
    · obtain rfl | hr := List.mem_cons.1 hx
      · rw [List.foldl_cons, more.others n hk]; exact one.free n List.mem_cons_self hc
      · rw [List.foldl_cons, more.free n hr (by rw [stays n hr]; exact hc), stays n hr]
    · obtain rfl | hr := List.mem_cons.1 hx
      · rw [List.foldl_cons, more.others n hk]; exact one.forced n List.mem_cons_self hc
      · exact more.forced n hr (by rw [stays n hr]; exact hc)
    · obtain ⟨h1, h2⟩ := not_or.1 (mt List.mem_cons.2 hx)
      rw [List.foldl_cons, more.others n h2, one.others n (by simpa using h1)]
    · rw [List.foldl_cons, more.groups g, one.groups g]
    · rw [List.foldl_cons, more.apart g (fun n hr => by rw [stays n hr]; exact hg n (List.mem_cons_of_mem k hr)),
        one.apart g (fun n hr => hg n (by simp [List.mem_singleton.1 hr]))]
    · rw [List.foldl_cons, more.same, one.same]

theorem State.bodySetSignalling_eq (s : State) {target i z a b x y c q : Nat} {m : SignallingSettings}
    (ht : target < 16 ∨ target = 0xFF) (hm : readSignalling i z a b x y c q = some m) :
    s.bodySetSignalling target i z a b x y c q = if s.signallingBusy (targetsOf target) then s.refuse .refusedState
      else (s.setSignalling (targetsOf target) m).done .ok m.bytes := by
  simp only [State.bodySetSignalling, readTarget_of ht, hm]

/-- Settles O15: refused while a call stands; else group by group and circuit by circuit. -/
theorem signallingIsRewrittenWhileIdle : Obligations.SignallingIsRewrittenWhileIdle := by
  intro target idle seize answer block si ci cond quiet s h ht hi hz ha hb hc hn hs hcl hq aims busy
  have hm := readSignalling_of hi hz ha hb hc hn hs hcl hq
  have hbody := s.bodySetSignalling_eq ht hm
  have hbusy : s.signallingBusy (targetsOf target) = true ↔ busy := by
    rw [s.signallingBusy_iff]
    simp only [mem_targetsOf ht]
    rfl
  refine ⟨fun hB => exec_refuses h rfl rfl (hbody.trans (if_pos (hbusy.2 hB))), fun hB => ?_⟩
  have hb' := hbody.trans (if_neg (mt hbusy.1 hB))
  obtain ⟨m, hmdef⟩ : ∃ m : SignallingSettings, m = {
    idle := BitVec.ofNat 4 idle, seize := BitVec.ofNat 4 seize, answer := BitVec.ofNat 4 answer
    block := BitVec.ofNat 4 block, seizeIndex := si, clearIndex := ci, conditioning := BitVec.ofNat 4 cond
    quiet := BitVec.ofNat 8 quiet } := ⟨_, rfl⟩
  rw [← hmdef] at hb'
  obtain ⟨u, hu⟩ : ∃ u, u = s.modGroups (targetsOf target) (fun g => g.withSignalling m) := ⟨_, rfl⟩
  have hucirc (n : Nat) : u.circuit n = s.circuit n := by rw [hu]; rfl
  have hugroup {g : Nat} (hg : g < 16) : u.group g = if target = 0xFF ∨ g = target then (s.group g).withSignalling m
      else s.group g := by
    rw [hu]; exact (s.modGroups_written ht _).2 g hg
  have hmember (n : Nat) : n ∈ s.membersOf (targetsOf target) ↔
      n < 480 ∧ (s.circuit n).equipped = true ∧ aims (s.circuit n).group := by
    simp only [State.membersOf, allCircuits, List.mem_filter, List.mem_range, Bool.and_eq_true, List.contains_iff_mem,
      mem_targetsOf ht]
    rfl
  have hr : Resignalled m (s.membersOf (targetsOf target)) u (s.setSignalling (targetsOf target) m) := by
    rw [State.setSignalling, ← hu]
    refine State.resignal_each (List.Nodup.filter _ List.nodup_range) fun n hx => ?_
    obtain ⟨h1, h2, h3, h4⟩ := (hmember n).1 hx
    refine ⟨h1, by rw [hucirc]; exact h3, ?_, ?_⟩
    · rw [hucirc]
      by_contra hcall
      exact hB ⟨n, h1, h2, hcall, h3, h4⟩
    · rw [State.groupOf, hucirc, hugroup h3, if_pos h4]; rfl
  have hbytes : m.bytes = [idle, seize, answer, block, si, ci, cond, quiet].map (BitVec.ofNat 8) := by
    have code {k : Nat} (hk : k < 15) : u8 (BitVec.ofNat 4 k).toNat = [BitVec.ofNat 8 k] := by
      rw [BitVec.toNat_ofNat, Nat.mod_eq_of_lt (show k < 2 ^ 4 by omega)]; rfl
    rw [hmdef]
    simp only [SignallingSettings.bytes, code hi, code hz, code ha, code hb, code hc]
    rfl
  rw [hbytes] at hb'
  refine ⟨_, exec_answers h rfl rfl hb', fun g hg => ?_, fun n hn he hcd haim => ?_, fun n hn he hcd haim => ?_,
    fun n hn hx => ?_, ?_⟩
  · split
    case isTrue hg2 =>
      have hgr := hr.groups g
      generalize s.setSignalling (targetsOf target) m = t at hgr
      rw [hugroup hg, if_pos hg2, hmdef] at hgr
      exact hgr
    case isFalse hg2 =>
      rw [hr.apart g fun n hx he => hg2 ?_, hugroup hg, if_neg hg2]
      rw [hucirc] at he
      exact he ▸ ((hmember n).1 hx).2.2.2
  · rw [hr.free n ((hmember n).2 ⟨hn, he, haim⟩) (by rw [hucirc]; exact hcd), hucirc, hmdef]
  · have := hr.forced n ((hmember n).2 ⟨hn, he, haim⟩) (by rw [hucirc]; exact hcd)
    rwa [hmdef] at this ⊢
  · rw [hr.others n fun hm => ?_, hucirc]
    obtain ⟨-, h2, h3⟩ := (hmember n).1 hm
    rcases hx with hx | hx
    · rw [h2] at hx; cases hx
    · exact hx h3
  · have hs := hr.same
    generalize s.setSignalling (targetsOf target) m = t at hs
    rw [hs, hu]
    rfl

end Sys2Proof.Machine
end

section
/-! The change of a span's state (R46, R52, R53), the end of an errored-frame window (R66), the apply of the staging list
(R78, R80) and the timeouts (R48, R93, R101, R119, R123). -/

namespace Sys2Proof.Machine

/-! ### The change of a span's state -/

/-- A circuit that is not to be conditioned is not conditioned after its evaluation, and nothing else changes. -/
theorem State.recondition_unwanted {s : State} {n : Nat} (h : s.wantsConditioning n = false) :
    s.recondition n = s.modCircuit n (fun c => { c with conditioned := false }) := by
  by_cases hc : (s.circuit n).conditioned = true
  · simp only [State.recondition, h, hc, Bool.false_eq_true, if_false, if_true]
  · rw [Bool.not_eq_true] at hc
    rw [State.recondition_of_right (by rw [h, hc]), State.modCircuit_same]
    rw [← hc]

theorem State.reconditionAll_unwanted {ns : List Nat} {s : State} (h : ∀ n, n ∈ ns → s.wantsConditioning n = false)
    (hb : ∀ n, n ∈ ns → n < 480) :
    let t := s.reconditionAll ns
    (∀ n, n ∈ ns → t.circuit n = { s.circuit n with conditioned := false }) ∧ (∀ n, n ∉ ns → t.circuit n = s.circuit n)
      ∧ t = { s with circuits := t.circuits } := by
  induction ns generalizing s with
  | nil => exact ⟨nofun, fun _ _ => rfl, rfl⟩
  | cons k rest ih =>
    have hr := Rederived.recondition s k
    obtain ⟨hin, hout, hs⟩ := ih (s := s.recondition k)
      (fun n hn => (hr.wants n).trans (h n (List.mem_cons_of_mem k hn))) (fun n hn => hb n (List.mem_cons_of_mem k hn))
    have hone (n : Nat) : (s.recondition k).circuit n = if n = k then { s.circuit n with conditioned := false }
        else s.circuit n := by
      rw [State.recondition_unwanted (h k List.mem_cons_self), State.circuit_modCircuit]
      by_cases hn : n = k
      · rw [if_pos ⟨hn, hb k List.mem_cons_self⟩, if_pos hn, hn]
      · rw [if_neg (fun he => hn he.1), if_neg hn]
    refine ⟨fun n hn => ?_, fun n hn => ?_, ?_⟩
    · show ((s.recondition k).reconditionAll rest).circuit n = _
      by_cases hmem : n ∈ rest
      · rw [hin n hmem, hone]; split <;> rfl
      · obtain rfl := (List.mem_cons.1 hn).resolve_right hmem
        rw [hout n hmem, hone, if_pos rfl]
    · obtain ⟨hk, hrest⟩ := not_or.1 (mt List.mem_cons.2 hn)
      show ((s.recondition k).reconditionAll rest).circuit n = _
      rw [hout n hrest, hone, if_neg hk]
    · show (s.recondition k).reconditionAll rest = { s with circuits := ((s.recondition k).reconditionAll rest).circuits }
      rw [hs, State.recondition_unwanted (h k List.mem_cons_self)]
      rfl

/-- Clearing MARKER_LOSS, of which no circuit's conditioning hears. -/
theorem State.clearFault_markerLoss (s : State) (x : Nat) : s.clearFault .markerLoss x =
    if (s.fault .markerLoss x).enabled then
      (s.setFault .markerLoss x { s.fault .markerLoss x with declared := false, live := false }).raise
        { cls := .faultClear, subject := some (.fault .markerLoss x), cause := none, value := none }
    else s.setFault .markerLoss x { s.fault .markerLoss x with declared := false } := rfl

/-- The Fault Unit does not read the spans' records to clear MARKER_LOSS. -/
theorem State.clearFault_markerLoss_spans (s : State) (x : Nat) (sp : Vector Span 16) :
    State.clearFault { s with spans := sp } .markerLoss x = { s.clearFault .markerLoss x with spans := sp } := by
  rw [State.clearFault_markerLoss, State.clearFault_markerLoss]
  show (if (s.fault .markerLoss x).enabled then _ else _) = _
  split <;> rfl

theorem State.moveSpan_between {s : State} {x : Nat} {new : SpanState} (h : (s.span x).state.cut = new.cut) :
    s.moveSpan x new = ((s.forget (.drainComplete x)).modSpan x (fun y => { y with state := new })).raise
      (spanEvent x new) := by
  rw [State.moveSpan, if_pos h]

theorem State.moveSpan_cut {s : State} {x : Nat} {new : SpanState} (h : (s.span x).state.cut = false)
    (hn : new.cut = true) :
    s.moveSpan x new = ((s.forget (.drainComplete x)).becomeCut x).raise (spanEvent x new) := by
  rw [State.moveSpan, if_neg (by rw [h, hn]; decide), if_pos hn]

theorem State.moveSpan_through {s : State} {x : Nat} {new : SpanState} (h : (s.span x).state.cut = true)
    (hn : new.cut = false) :
    s.moveSpan x new = ((s.forget (.drainComplete x)).becomeThrough x).raise (spanEvent x new) := by
  rw [State.moveSpan, if_neg (by rw [h, hn]; decide), if_neg (by simp [hn])]

/-- A span that is not cut conditions none of its circuits. -/
theorem State.wantsConditioning_through {s : State} {n : Nat} (h : (s.span (n / 30)).state.cut = false) :
    s.wantsConditioning n = false := by
  simp [State.wantsConditioning, spanOf, h]

/-- A span gone to BYPASS, before the conditioning of its circuits is evaluated. -/
theorem State.through_before_conditioning (s : State) {x : Nat} (hx : x < 16) :
    let old := s.span x
    let v := (s.modSpan x (fun x => { x with
      state := .bypass, relay := false, marking := false, lossCount := 0 })).clearMarkerLoss x
    v.span x = { old with state := .bypass, relay := false, marking := false, lossCount := 0, markerLoss := false }
    ∧ (∀ y, y ≠ x → v.span y = s.span y)
    ∧ v = { (if old.markerLoss = false then s else s.clearFault .markerLoss x) with spans := v.spans } := by
  intro old v
  have hread (y : Nat) : (s.modSpan x (fun x => { x with
      state := .bypass, relay := false, marking := false, lossCount := 0 })).span y
        = if y = x then { old with state := .bypass, relay := false, marking := false, lossCount := 0 } else s.span y := by
    rw [State.span_modSpan]
    by_cases hy : y = x
    · rw [if_pos ⟨hy, hx⟩, if_pos hy]
    · rw [if_neg (fun h => hy h.1), if_neg hy]
  have hmark := hread x
  rw [if_pos rfl] at hmark
  cases hm : old.markerLoss
  · have hv : v = s.modSpan x (fun x => { x with
        state := .bypass, relay := false, marking := false, lossCount := 0 }) :=
      if_neg (by rw [hmark]; simp [hm])
    refine ⟨by rw [hv, hmark, ← hm], fun y hy => by rw [hv, hread, if_neg hy], by rw [hv]; rfl⟩
  · have hv : v = ((s.modSpan x (fun x => { x with
        state := .bypass, relay := false, marking := false, lossCount := 0 })).modSpan x
          (fun x => { x with markerLoss := false })).clearFault .markerLoss x := if_pos (by rw [hmark]; simp [hm])
    have hs (y : Nat) : v.span y = ((s.modSpan x (fun x => { x with
        state := .bypass, relay := false, marking := false, lossCount := 0 })).modSpan x
          (fun x => { x with markerLoss := false })).span y := by
      rw [hv]
      exact State.span_congr (by rw [(FaultsActed.clearFault _ _ _).same]) y
    refine ⟨?_, fun y hy => ?_, ?_⟩
    · rw [hs, State.span_modSpan, if_pos ⟨rfl, hx⟩, hmark]
    · rw [hs, State.span_modSpan, if_neg (fun h => hy h.1), hread, if_neg hy]
    · obtain ⟨sp, hsp⟩ : ∃ sp, v = State.clearFault { s with spans := sp } .markerLoss x := ⟨_, hv⟩
      rw [if_neg (by simp), hsp, State.clearFault_markerLoss_spans]

/-- Settles O18, by what the change makes of the relay: nothing, cut, or through. -/
theorem spanChangesMoveTheRelay : Obligations.SpanChangesMoveTheRelay := by
  intro x new s hx old u told t
  have toldCircuit (v : State) (n : Nat) : (told v).circuit n = v.circuit n := rfl
  have toldSpan (v : State) (y : Nat) : (told v).span y = v.span y := rfl
  have toldWants (v : State) (n : Nat) : (told v).wantsConditioning n = v.wantsConditioning n := rfl
  refine ⟨fun h => State.moveSpan_between h, fun hn h => ?_, fun hn h => ?_⟩
  · subst hn
    have ht : t = told ((u.setSpan x { old with state := .inserted, relay := true, marking := false, lossCount := 0 }).reconditionAll
        ((List.range 30).map (30 * x + ·))) := State.moveSpan_cut h rfl
    refine ⟨ht, fun n hnx => ?_⟩
    have hmem : n ∈ (List.range 30).map (30 * x + ·) := mem_circuitsOf.2 hnx
    have hr := Rederived.reconditionAll
      (u.setSpan x { old with state := .inserted, relay := true, marking := false, lossCount := 0 })
      ((List.range 30).map (30 * x + ·))
    have hc := State.conditioned_reconditionAll (ns := (List.range 30).map (30 * x + ·))
      (s := u.setSpan x { old with state := .inserted, relay := true, marking := false, lossCount := 0 })
      (show n < 480 by omega)
    rw [if_pos hmem, ← hr.wants] at hc
    rw [ht, toldCircuit, toldWants, hc]
  · subst hn
    obtain ⟨hspan, hspans, hsame⟩ := u.through_before_conditioning hx
    obtain ⟨v, hv⟩ : ∃ v, v = (u.modSpan x (fun x => { x with
        state := .bypass, relay := false, marking := false, lossCount := 0 })).clearMarkerLoss x := ⟨_, rfl⟩
    rw [← hv] at hspan hspans hsame
    have ht : t = told (v.reconditionAll (circuitsOf x)) := by rw [hv]; exact State.moveSpan_through h rfl
    have hbound (n : Nat) (hn : n ∈ circuitsOf x) : n < 480 := by rw [mem_circuitsOf] at hn; omega
    obtain ⟨hin, hout, hrest⟩ := State.reconditionAll_unwanted (s := v) (ns := circuitsOf x) (fun n hn =>
      State.wantsConditioning_through (by rw [mem_circuitsOf.1 hn, hspan]; rfl)) hbound
    have hcirc (n : Nat) : v.circuit n = s.circuit n := by
      rw [hsame]
      split
      · rfl
      · rw [State.clearFault_markerLoss]; split <;> rfl
    have htspan (y : Nat) : t.span y = v.span y := by
      rw [ht, toldSpan]
      exact State.span_congr (by rw [hrest]) y
    refine ⟨by rw [htspan, hspan]; rfl, fun n hn => ?_, fun n hn => ?_, fun y hy => by rw [htspan, hspans y hy]; rfl, ?_⟩
    · rw [ht, toldCircuit, hin n (mem_circuitsOf.2 hn), hcirc]
    · rw [ht, toldCircuit, hout n (mt mem_circuitsOf.1 hn), hcirc]
    · intro r cleared
      have hcleared : (if (u.span x).markerLoss = false then u else u.clearFault .markerLoss x) = cleared := by
        rw [State.clearFault_markerLoss]; rfl
      rw [hcleared] at hsame
      generalize v.reconditionAll (circuitsOf x) = w at ht hrest
      have hw : w = { cleared with spans := w.spans, circuits := w.circuits } := by rw [hrest, hsame]
      rw [ht]
      exact congrArg told hw

/-! ### The end of an errored-frame window (R66) -/

/-- The Fault Unit's work leaves the fibre port alone. -/
theorem FaultsActed.port {s t : State} (h : FaultsActed s t) : t.port = s.port := by rw [h.same]

/-- Settles O23, by the loss mark, the count of the window and the status that stood. -/
theorem erroredFrameWindowsEnd : Obligations.ErroredFrameWindowsEnd := by
  intro s hs ho u p err
  have hexec : exec .windowEnd s = .next u.endWindow := congrArg _ (State.owedEvent_rests hs ho _)
  refine ⟨fun h => hexec.trans (congrArg _ (if_neg (Nat.not_le.2 h))), fun h => ?_⟩
  have hend : u.endWindow = { u.judgeWindow with port := { u.judgeWindow.port with
      windowPosition := 0, windowCount := 0, lossMark := u.judgeWindow.port.los } } := if_pos h
  rw [hexec, hend]
  have hjudge : (err = p.err ∧ u.judgeWindow = u)
      ∨ (err = true ∧ p.err = false ∧ u.judgeWindow = State.declare { u with port := { p with err := true } } .fibreErr 0)
      ∨ (err = false ∧ p.err = true ∧ u.judgeWindow = State.clearFault { u with port := { p with err := false } } .fibreErr 0) := by
    by_cases hl : p.lossMark = true
    · exact .inl ⟨if_pos hl, if_pos hl⟩
    have herr : err = decide (p.threshold ≤ p.windowCount) := if_neg hl
    have hj : u.judgeWindow = if p.threshold ≤ p.windowCount then
        if p.err then u else State.declare { u with port := { p with err := true } } .fibreErr 0
      else if p.err then State.clearFault { u with port := { p with err := false } } .fibreErr 0 else u := if_neg hl
    by_cases ht : p.threshold ≤ p.windowCount
    · have h1 : err = true := herr.trans (decide_eq_true ht)
      rw [if_pos ht] at hj
      by_cases he : p.err = true
      · exact .inl ⟨h1.trans he.symm, hj.trans (if_pos he)⟩
      · exact .inr (.inl ⟨h1, by simpa using he, hj.trans (if_neg he)⟩)
    · have h1 : err = false := herr.trans (decide_eq_false ht)
      rw [if_neg ht] at hj
      by_cases he : p.err = true
      · exact .inr (.inr ⟨h1, he, hj.trans (if_pos he)⟩)
      · exact .inl ⟨by rw [h1, Bool.eq_false_iff.2 he], hj.trans (if_neg he)⟩
  refine ⟨_, rfl, ?_, ?_, ?_, ?_⟩
  · rcases hjudge with ⟨he, hj⟩ | ⟨he, hp, hj⟩ | ⟨he, hp, hj⟩
    · rw [hj, he]
    · rw [hj, he, (FaultsActed.declare _ _ _).port]
    · rw [hj, he, (FaultsActed.clearFault _ _ _).port]
  · intro he
    rcases hjudge with ⟨-, hj⟩ | ⟨h1, hp, -⟩ | ⟨h1, hp, -⟩
    · rw [hj]
    · rw [h1, hp] at he; cases he
    · rw [h1, hp] at he; cases he
  · intro h1 h2
    rcases hjudge with ⟨he, -⟩ | ⟨-, -, hj⟩ | ⟨h3, -, -⟩
    · rw [h1, h2] at he; cases he
    · rw [hj]
    · rw [h1] at h3; cases h3
  · intro h1 h2
    rcases hjudge with ⟨he, -⟩ | ⟨h3, -, -⟩ | ⟨-, -, hj⟩
    · rw [h1, h2] at he; cases he
    · rw [h1] at h3; cases h3
    · rw [hj]

/-! ### The apply of the staging list (R78, R80) -/

theorem exec_applyMap {s : State} (h : s.hears .b (.applyMap .b)) : exec (.applyMap .b) s = .next {
    s with
    map := { s.map with applyPending := true, applyAnswer := true }
    linkB := { s.linkB with handed := none, response := none, rx := s.linkB.rx.answer, buffer := [] } } := by
  obtain ⟨hp, hq, ht⟩ := h
  show Host.Outcome.next (s.event _) = _
  rw [State.event_of_quiet hp hq, if_pos ht, if_pos (show CommandRole.transport.permits .b = true from rfl)]
  rfl

/-- A pending apply answered, or its answer's link set free. -/
def State.appliedWith (s t : State) (status : Status) (data : List Byte) : State :=
  let v := { t with map := { t.map with applyPending := false, applyAnswer := false } }
  if s.map.applyAnswer then v.setLink .b { v.linkB with response := some (v.responseTo .b status data) }
  else if v.linkB.rx = .answering then v.setLink .b { v.linkB with rx := .hunt }
  else v

theorem State.makeApply_eq {s : State} (h : s.map.applyPending = true) :
    s.makeApply = s.appliedWith s.applyEdits.1 s.applyEdits.2.1 s.applyEdits.2.2 := if_pos h

/-- The adopted copy, before its notice is raised and the circuits whose slot changed are evaluated. -/
theorem State.adopt_eq (s w : State) : s.adopt w = (State.raise { w with map := { w.map with
      staging := [], ownDigest := digestOf w.map.entries
      run := if digestOf w.map.entries = s.map.ownDigest then s.map.run else 0 } } {
        cls := .mapApplied, subject := none, cause := none, value := some (digestOf w.map.entries) }).reconditionAll
    (slotChanges s w) := rfl

/-- Conditioning reads the slot of a FIBRE_ONLY circuit alone. -/
theorem State.wantsConditioning_of_slot {s w : State} {n : Nat} (hc : w.circuit n = { s.circuit n with
    slot := (w.circuit n).slot }) (hs : w = { s with circuits := w.circuits, map := w.map, linkA := w.linkA, linkB := w.linkB })
    (hf : (s.circuit n).state ≠ .fibreOnly) : w.wantsConditioning n = s.wantsConditioning n := by
  have hst : (w.circuit n).state = (s.circuit n).state := by rw [hc]
  have hrx : (w.circuit n).receive = (s.circuit n).receive := by rw [hc]
  have heq : (w.circuit n).equipped = (s.circuit n).equipped := by rw [hc]
  have hspan : w.span (spanOf n) = s.span (spanOf n) := State.span_congr (by rw [hs]) _
  have hcop : w.copperDown (spanOf n) = s.copperDown (spanOf n) := by rw [hs]; rfl
  have hfib : w.fibreDown = s.fibreDown := by rw [hs]; rfl
  have hpath : w.pathless n = s.pathless n := by
    simp only [State.pathless, hst, hrx, hcop, hfib]
    cases h : (s.circuit n).state
    case fibreOnly => exact absurd h hf
    all_goals rfl
  rw [State.wantsConditioning, State.wantsConditioning, heq, hspan, hpath]

/-- Settles O27: the answer held back, and at the boundary the first edit that fails or the whole working copy. -/
theorem mapIsAppliedWholeOrNotAtAll : Obligations.MapIsAppliedWholeOrNotAtAll := by
  refine ⟨fun s h => exec_applyMap h, ?_⟩
  intro s hs ho hp u answered
  have hexec : exec .mapApply s = .next (answered u.applyEdits.1 u.applyEdits.2.1 u.applyEdits.2.2) :=
    congrArg _ ((State.owedEvent_rests hs ho _).trans (State.makeApply_eq (s := u) hp))
  refine ⟨fun p c e hj => ?_, ?_⟩
  · have he : u.applyEdits = (u, .refusedState, u8 p ++ u8 c.code ++ e.bytes) := by
      rw [State.applyEdits]; simp only [show u.map.staging = s.map.staging from rfl, hj]
    rw [hexec, he]
  · intro w hj d
    have he : u.applyEdits = (u.adopt w, .ok, u8 s.map.staging.length ++ u16 d.toNat) := by
      rw [State.applyEdits]; simp only [show u.map.staging = s.map.staging from rfl, hj]; rfl
    have hw := State.judge_same hj
    have hwc := State.judge_circuit hj
    have hr := Rederived.reconditionAll (State.raise { w with map := { w.map with
      staging := [], ownDigest := digestOf w.map.entries
      run := if digestOf w.map.entries = u.map.ownDigest then u.map.run else 0 } } {
        cls := .mapApplied, subject := none, cause := none, value := some (digestOf w.map.entries) }) (slotChanges u w)
    rw [← State.adopt_eq] at hr
    have hmap : (u.adopt w).map = { s.map with
        entries := w.map.entries, staging := [], ownDigest := d
        run := if d = s.map.ownDigest then s.map.run else 0 } := by
      rw [hr.same, hw]; rfl
    refine ⟨u.adopt w, by rw [hexec, he], hmap, fun n _ => ?_, fun hno hright => ?_⟩
    · rw [hr.circuit n]; rfl
    · rw [hmap, State.adopt_eq, State.reconditionAll_of_right]
      · rw [hw]
      · intro n hn
        have hlt : n < 480 := by simpa [slotChanges, allCircuits] using (List.mem_filter.1 hn).1
        have hsame : (State.raise { w with map := { w.map with
            staging := [], ownDigest := digestOf w.map.entries
            run := if digestOf w.map.entries = u.map.ownDigest then u.map.run else 0 } } {
              cls := .mapApplied, subject := none, cause := none
              value := some (digestOf w.map.entries) }).wantsConditioning n = u.wantsConditioning n :=
          State.wantsConditioning_of_slot (hwc n) (by rw [hw]; rfl) (hno n hlt)
        rw [hsame]
        exact (congrArg Circuit.conditioned (hwc n)).trans (hright n hlt)

/-! ### Timeouts -/

theorem State.stepTimeoutDue_iff (s : State) (c : Nat) : s.stepTimeoutDue c = true ↔
    (s.ctx c).stepRunning = true ∧ s.admitting.stepTimeout ≤ (s.ctx c).stepTimer := by simp [State.stepTimeoutDue]

theorem State.bridgeTimeoutDue_iff (s : State) (c : Nat) : s.bridgeTimeoutDue c = true ↔
    (s.ctx c).state = .measure ∧ (s.ctx c).begun = false ∧ s.admitting.bridgeTimeout ≤ (s.ctx c).bridgeTimer := by
  simp [State.bridgeTimeoutDue, and_assoc]

theorem Ctx.markerTimeoutDue_iff (x : Ctx) : x.markerTimeoutDue = true ↔
    x.state = .measure ∧ x.running = true ∧ (x.attemptN + 2) * 512 ≤ x.elapsed := by
  simp only [Ctx.markerTimeoutDue, Bool.and_eq_true, beq_iff_eq, decide_eq_true_eq, and_assoc]
  rfl

theorem Span.lossDue_iff (x : Span) : x.lossDue = true ↔
    x.state.cut = true ∧ 1024 ≤ x.lossCount ∧ x.markerLoss = false := by
  simp [Span.lossDue, and_assoc]

/-- Settles O41, timeout by timeout. -/
theorem timeoutsActWhereDue : Obligations.TimeoutsActWhereDue := by
  intro c s hs x without
  refine ⟨fun ho => ?_, fun ho => ?_, ?_, fun ho => ?_, ?_⟩
  · refine (congrArg Host.Outcome.next (State.owedEvent_rests hs ho _)).trans ?_
    simp only [State.stepTimeoutIfDue, State.stepTimeoutDue_iff]; rfl
  · refine (congrArg Host.Outcome.next (State.owedEvent_rests hs ho _)).trans ?_
    simp only [State.bridgeTimeoutIfDue, State.bridgeTimeoutDue_iff]; rfl
  · refine (congrArg Host.Outcome.next (State.event_rests hs _)).trans ?_
    simp only [State.markerTimeoutIfDue, Ctx.markerTimeoutDue_iff]; rfl
  · refine (congrArg Host.Outcome.next (State.owedEvent_rests hs ho _)).trans ?_
    cases hw : s.pool.waitList with
    | nil => simp only [State.poolTimeoutIfDue, show (s.forget .poolTimeout).pool = s.pool from rfl, hw]; rfl
    | cons head rest =>
      have hdue : (s.forget .poolTimeout).poolTimeoutDue = true ↔ s.align.poolTimeout < s.pool.waitCount := by
        rw [State.poolTimeoutDue, show (s.forget .poolTimeout).pool = s.pool from rfl, hw]
        exact decide_eq_true_iff
      simp only [State.poolTimeoutIfDue, show (s.forget .poolTimeout).pool = s.pool from rfl, hw, hdue]
      rfl
  · refine (congrArg Host.Outcome.next (State.event_rests hs _)).trans ?_
    simp only [State.declareMarkerLoss, Span.lossDue_iff]; rfl

end Sys2Proof.Machine
end

section
/-! What a context's leaving, abort, completion and return are in the fields of the state (R106, R122, R124, R126): the
state in front of the evaluation of conditioning, which comes last, is written out. -/

namespace Sys2Proof.Machine

/-! ### A record of the tables, changed -/

theorem State.circuit_modCircuit_lt (s : State) (f : Circuit → Circuit) {n : Nat} (hn : n < 480) (m : Nat) :
    (s.modCircuit n f).circuit m = if m = n then f (s.circuit n) else s.circuit m := by
  rw [State.circuit_modCircuit]
  by_cases h : m = n
  · rw [if_pos ⟨h, hn⟩, if_pos h]
  · rw [if_neg (fun he => h he.1), if_neg h]

theorem State.ctx_modCtx_lt (s : State) (f : Ctx → Ctx) {c : Nat} (hc : c < 8) (k : Nat) :
    (s.modCtx c f).ctx k = if k = c then f (s.ctx c) else s.ctx k := by
  rw [State.ctx_modCtx]
  by_cases h : k = c
  · rw [if_pos ⟨h, hc⟩, if_pos h]
  · rw [if_neg (fun he => h he.1), if_neg h]

/-! ### Conditioning, last -/

/-- The evaluation of conditioning for one circuit leaves what is not derived from codes. -/
theorem Rederived.frame {n : Nat} {s t : State} (h : Rederived [n] s t) :
    (∀ k, t.ctx k = s.ctx k) ∧ t.queue = s.queue ∧ t.peer = s.peer ∧ t.pool.waitList = s.pool.waitList
      ∧ (∀ m, m ≠ n → t.circuit m = s.circuit m) := by
  refine ⟨fun k => State.ctx_congr (by rw [h.same]) k, by rw [h.same], by rw [h.same], by rw [h.pool],
    fun m hm => h.others m (by simpa using hm)⟩

/-- A circuit whose conditioning was right stays as it is. -/
theorem State.recondition_stays {s : State} {n : Nat} (h : (s.recondition n).wantsConditioning n = (s.circuit n).conditioned) :
    s.recondition n = s :=
  State.recondition_of_right (h.symm.trans ((Rederived.recondition s n).wants n))

/-- A circuit without a residual keeps its lines, and no cell moves. -/
theorem State.recondition_clean {s : State} {n : Nat} (hn : n < 480) (h : (s.circuit n).residual = 0) :
    (s.recondition n).pool = s.pool ∧ (s.recondition n).circuit n = { s.circuit n with
      backward := ((s.recondition n).circuit n).backward, call := ((s.recondition n).circuit n).call
      conditioned := ((s.recondition n).circuit n).conditioned } := by
  unfold State.recondition
  split
  · exact ⟨rfl, rfl⟩
  split
  · rw [State.circuit_modCircuit, if_pos ⟨rfl, hn⟩]; exact ⟨rfl, rfl⟩
  · have hc : (s.modCircuit n (fun c => { c with
        conditioned := true, backward := Filter.holding (s.groupOf n).conditioning })).circuit n = { s.circuit n with
        conditioned := true, backward := Filter.holding (s.groupOf n).conditioning } := by
      rw [State.circuit_modCircuit, if_pos ⟨rfl, hn⟩]
    have hstays : ¬ (s.modCircuit n (fun c => { c with
        conditioned := true, backward := Filter.holding (s.groupOf n).conditioning })).endsCall n
          ((s.modCircuit n (fun c => { c with
        conditioned := true, backward := Filter.holding (s.groupOf n).conditioning })).derivedCall n) := by
      intro he
      exact he.2.2 (by rw [hc]; exact h)
    rw [State.pool_deriveCall_stays hn hstays, State.circuit_deriveCall_stays hn hstays, hc]
    exact ⟨rfl, rfl⟩

/-! ### Entries and advertisements -/

theorem Advert.isOf_iff (a : Advert) (c : Nat) : a.isOf c = true ↔ a.kind = .context c := by
  unfold Advert.isOf
  split
  · next h => simp [h]
  · next h => simp [h]

theorem State.advertise_adverts (s : State) (c : Nat) (step : Step) (arg : Byte) :
    (s.advertise c step arg).peer = { s.peer with adverts := s.peer.adverts.map (fun a =>
      if a.kind = .context c then { a with step := step, argument := arg } else a) } := by
  simp only [State.advertise, Advert.isOf_iff]

theorem State.beginLinger_peer (s : State) (c : Nat) :
    (s.beginLinger c).peer = { s.peer with
      serial := s.peer.serial + 1
      adverts := s.peer.adverts.map (fun a =>
        if a.kind = .context c then { a with kind := .linger 32 s.peer.serial } else a) } := by
  simp only [State.beginLinger, Advert.isOf_iff, Config.lingerSpan]

theorem State.reenter_same (s : State) (e : Entry) : (s.reenter e).1 = { s with queue := (s.reenter e).1.queue } := by
  unfold State.reenter
  split <;> rfl

theorem State.reenter_congr {s t : State} (hq : t.queue = s.queue) (hs : t.stamp = s.stamp) (e : Entry) :
    (t.reenter e).1.queue = (s.reenter e).1.queue ∧ (t.reenter e).2 = (s.reenter e).2 := by
  unfold State.reenter
  rw [hq, hs]
  split
  · exact ⟨rfl, rfl⟩
  · exact ⟨hq, rfl⟩

/-- A parked entry's return changes the queue, or the links where a notice tells of a full one. -/
theorem State.reenterParked_same (s : State) (e : Option Entry) : s.reenterParked e = { s with
    queue := (s.reenterParked e).queue, linkA := (s.reenterParked e).linkA, linkB := (s.reenterParked e).linkB } := by
  cases e with
  | none => rfl
  | some e =>
    simp only [State.reenterParked, State.reenter]
    by_cases h : s.queue.length < Config.queueLimit
    · rw [if_pos h]
    · rw [if_neg h]; rfl

theorem State.reenterParked_congr {s t : State} (hq : t.queue = s.queue) (hs : t.stamp = s.stamp) (e : Option Entry) :
    (t.reenterParked e).queue = (s.reenterParked e).queue := by
  cases e with
  | none => exact hq
  | some e =>
    simp only [State.reenterParked, State.reenter, hq, hs]
    by_cases h : s.queue.length < Config.queueLimit
    · rw [if_pos h, if_pos h]
    · rw [if_neg h, if_neg h]; exact hq

/-- A served entry's return changes the queue and the links. -/
theorem State.reenterServed_same (s : State) (c : Nat) : s.reenterServed c = { s with
    queue := (s.reenterServed c).queue, linkA := (s.reenterServed c).linkA, linkB := (s.reenterServed c).linkB } := by
  simp only [State.reenterServed, State.reenter]
  split
  · rfl
  · by_cases h : s.queue.length < Config.queueLimit
    · rw [if_pos h]; rfl
    · rw [if_neg h]; rfl

theorem State.reenterServed_none {s : State} {c : Nat} (h : (s.ctx c).served = none) :
    s.reenterServed c = s.raiseAborted c := by
  simp only [State.reenterServed, h]

theorem State.reenterServed_some {s : State} {c : Nat} {e : Entry} (h : (s.ctx c).served = some e) :
    s.reenterServed c = match (s.reenter { e with idleOnly := true }).2 with
      | some p => (s.reenter { e with idleOnly := true }).1.raise {
          cls := .deferred, subject := some (.circuit e.circuit), cause := some .deferredData
          value := some (BitVec.ofNat 16 p) }
      | none => (s.reenter { e with idleOnly := true }).1.raiseAborted c := by
  simp only [State.reenterServed, h, State.reenter]
  by_cases hq : s.queue.length < Config.queueLimit
  · simp only [if_pos hq]; rfl
  · simp only [if_neg hq]

/-! ### Leaving a context -/

/-- A context's circuit has left it; conditioning is still to be evaluated. -/
def State.left (s : State) (c : Nat) : State :=
  let x := s.ctx c
  let st := s.lockedState x.circuit x.origin
  let s1 := s.modCircuit x.circuit (fun y => { y.enter st with context := none, lastAbort := x.abortCause })
  let s2 := if x.deferred then s1.reenterServed c else s1
  let s3 := s2.modCtx c (fun x => { x with served := none, parked := none, returnPending := false })
  s3.reenterParked x.parked

theorem State.leaveContext_left (s : State) (c : Nat) :
    s.leaveContext c = (s.left c).recondition (s.ctx c).circuit := rfl

/-- The state a circuit returns to (R124, R160). -/
theorem State.lockedState_eq (s : State) (n : Nat) (st : MigState) : s.lockedState n st
    = if st = .reverted ∧ (s.group (s.circuit n).group).lockedOut = true then .locked else st := rfl

theorem State.left_same (s : State) {c : Nat} (hc : c < 8) :
    let x := s.ctx c
    let t := s.left c
    t = { s with
      circuits := t.circuits, contexts := t.contexts, queue := t.queue, linkA := t.linkA, linkB := t.linkB }
    ∧ t.ctx c = { x with served := none, parked := none, returnPending := false }
    ∧ (∀ k, k ≠ c → t.ctx k = s.ctx k)
    ∧ t.circuits = (s.modCircuit x.circuit (fun y => { y.enter (s.lockedState x.circuit x.origin) with
        context := none, lastAbort := x.abortCause })).circuits := by
  intro x t
  obtain ⟨s1, hs1⟩ : ∃ s1, s1 = s.modCircuit x.circuit (fun y => { y.enter (s.lockedState x.circuit x.origin) with
      context := none, lastAbort := x.abortCause }) := ⟨_, rfl⟩
  obtain ⟨s2, hs2⟩ : ∃ s2, s2 = if x.deferred then s1.reenterServed c else s1 := ⟨_, rfl⟩
  have h2 : s2 = { s1 with queue := s2.queue, linkA := s2.linkA, linkB := s2.linkB } := by
    rw [hs2]
    split
    · exact State.reenterServed_same s1 c
    · rfl
  obtain ⟨s3, hs3⟩ : ∃ s3, s3 = s2.modCtx c (fun x => { x with
      served := none, parked := none, returnPending := false }) := ⟨_, rfl⟩
  have ht : t = s3.reenterParked x.parked := by rw [hs3, hs2, hs1]; rfl
  have h4 := State.reenterParked_same s3 x.parked
  rw [← ht] at h4
  have hctx (k : Nat) : t.ctx k = s3.ctx k := State.ctx_congr (by rw [h4]) k
  have hs2x (k : Nat) : s2.ctx k = s.ctx k := State.ctx_congr (by rw [h2, hs1]; rfl) k
  have hs3x (k : Nat) : s3.ctx k = if k = c then { x with served := none, parked := none, returnPending := false }
      else s.ctx k := by
    rw [hs3, State.ctx_modCtx_lt _ _ hc, hs2x, hs2x]
  refine ⟨?_, ?_, fun k hk => ?_, ?_⟩
  · rw [h4, hs3, h2, hs1]; rfl
  · rw [hctx, hs3x, if_pos rfl]
  · rw [hctx, hs3x, if_neg hk]
  · rw [h4, hs3, h2, hs1]; rfl

theorem State.left_facts (s : State) {c n : Nat} (hc : c < 8) (hn : n < 480) (hx : (s.ctx c).circuit = n) :
    let x := s.ctx c
    let t := s.left c
    t = { s with
      circuits := t.circuits, contexts := t.contexts, queue := t.queue, linkA := t.linkA, linkB := t.linkB }
    ∧ t.ctx c = { x with served := none, parked := none, returnPending := false }
    ∧ (∀ k, k ≠ c → t.ctx k = s.ctx k)
    ∧ t.circuit n = { (s.circuit n).enter (s.lockedState n x.origin) with context := none, lastAbort := x.abortCause }
    ∧ (∀ m, m ≠ n → t.circuit m = s.circuit m) := by
  intro x t
  obtain ⟨h1, h2, h3, h4⟩ := s.left_same hc
  rw [hx] at h4
  have hcirc (m : Nat) := (State.circuit_congr h4 m).trans (State.circuit_modCircuit_lt s _ hn m)
  exact ⟨h1, h2, h3, (hcirc n).trans (if_pos rfl), fun m hm => (hcirc m).trans (if_neg hm)⟩

/-- A leave that is no deferral queues the parked entry. -/
theorem State.left_undeferred {s : State} {c : Nat} (h : (s.ctx c).deferred = false) :
    (s.left c).queue = (s.reenterParked (s.ctx c).parked).queue
      ∧ ((s.ctx c).parked = none → ∀ l, (s.left c).link l = s.link l) := by
  simp only [State.left, h, Bool.false_eq_true, if_false]
  refine ⟨State.reenterParked_congr ?_ ?_ _, fun hp l => ?_⟩
  · rfl
  · rfl
  · rw [hp]
    cases l <;> rfl

/-- A deferral without a served entry queues the parked entry. -/
theorem State.left_deferred_none {s : State} {c : Nat} (h : (s.ctx c).deferred = true) (hs : (s.ctx c).served = none) :
    (s.left c).queue = (s.reenterParked (s.ctx c).parked).queue := by
  simp only [State.left, h, if_true]
  rw [State.reenterServed_none (by exact hs)]
  refine State.reenterParked_congr ?_ ?_ _
  · rfl
  · rfl

/-- A deferral queues its served entry. -/
theorem State.left_deferred_some {s : State} {c : Nat} {e : Entry} (h : (s.ctx c).deferred = true)
    (hs : (s.ctx c).served = some e) (hp : (s.ctx c).parked = none) :
    (s.left c).queue = (s.reenter { e with idleOnly := true }).1.queue
    ∧ ∀ p, (s.reenter { e with idleOnly := true }).2 = some p → ∀ l, (s.left c).link l = (s.link l).offer s.stamp {
        cls := .deferred, subject := some (.circuit e.circuit), cause := some .deferredData
        value := some (BitVec.ofNat 16 p) } := by
  obtain ⟨s1, hs1⟩ : ∃ s1, s1 = s.modCircuit (s.ctx c).circuit (fun y => {
      y.enter (s.lockedState (s.ctx c).circuit (s.ctx c).origin) with
        context := none, lastAbort := (s.ctx c).abortCause }) := ⟨_, rfl⟩
  have hq : s1.queue = s.queue := by rw [hs1]; rfl
  have ht : s1.stamp = s.stamp := by rw [hs1]; rfl
  have hs1x : (s1.ctx c).served = some e := by rw [hs1]; exact hs
  have hleft : s.left c = (s1.reenterServed c).modCtx c (fun x => { x with
      served := none, parked := none, returnPending := false }) := by
    simp only [State.left, h, if_true, hp]
    rw [hs1]; rfl
  obtain ⟨hc1, hc2⟩ := State.reenter_congr hq ht { e with idleOnly := true }
  have hsame := State.reenter_same s1 { e with idleOnly := true }
  rw [hleft, State.reenterServed_some hs1x, hc2]
  refine ⟨?_, fun p hpos l => ?_⟩
  · rw [← hc1]
    cases (s.reenter { e with idleOnly := true }).2 <;> rfl
  · rw [hpos]
    have hlink : ∀ v : State, v.link l = s.link l → v.stamp = s.stamp → ((v.raise {
        cls := .deferred, subject := some (.circuit e.circuit), cause := some .deferredData
        value := some (BitVec.ofNat 16 p) }).modCtx c (fun x => { x with
          served := none, parked := none, returnPending := false })).link l = (s.link l).offer s.stamp {
        cls := .deferred, subject := some (.circuit e.circuit), cause := some .deferredData
        value := some (BitVec.ofNat 16 p) } := by
      intro v hl hv
      rw [← hl, ← hv]
      cases l <;> rfl
    refine hlink _ ?_ ?_
    · rw [hsame, hs1]; cases l <;> rfl
    · rw [hsame]; exact ht

end Sys2Proof.Machine
end

section
/-! Aborts, pending returns and the end of ABORTING (R106, R124 to R126). -/

namespace Sys2Proof.Machine

/-! ### The abort of a context, up to its leaving -/

/-- What an abort makes of the pool and the circuit before it marks the context. -/
def State.abortSettled (s : State) (c : Nat) : State :=
  if (s.ctx c).switched then (s.leaveWaitList c).forgetContext c
  else ((s.leaveWaitList c).forgetContext c).settleUnswitched c

/-- The state of an abort in front of the circuit's return. -/
def State.abortMarked (s : State) (c : Nat) (cause : Cause) (peer : Option Byte) (deferred : Bool) : State :=
  let v := ((s.abortSettled c).modCtx c (fun x => x.abortWith cause peer deferred)).advertise c .abort cause.byte
  if deferred then v else v.raiseAborted c

theorem State.abortWith_eq (s : State) (c : Nat) (cause : Cause) (peer : Option Byte) (deferred : Bool) :
    s.abortWith c cause peer deferred = if (s.ctx c).switched then s.abortMarked c cause peer deferred
      else (s.abortMarked c cause peer deferred).leaveContext c := rfl

theorem State.settleUnswitched_facts (s : State) {c n : Nat} (hc : c < 8) (hn : n < 480) (hx : (s.ctx c).circuit = n) :
    let x := s.ctx c
    let old := s.circuit n
    let t := s.settleUnswitched c
    let k := old.delay x.direction.currentPath
    t = { s with circuits := t.circuits, contexts := t.contexts, pool := { s.pool with free := t.pool.free } }
    ∧ t.ctx c = { x with cells := 0 } ∧ (∀ k, k ≠ c → t.ctx k = s.ctx k) ∧ (∀ m, m ≠ n → t.circuit m = s.circuit m)
    ∧ (k = 0 ∨ old.call.busy = false → t.circuit n = old.dropBoth ∧ t.pool.free = s.pool.free + x.cells)
    ∧ (k ≠ 0 → old.call.busy = true → t.circuit n = { old.dropOn x.direction.targetPath with
          residual := k, residualPath := x.direction.currentPath, cellsHeld := k + 2 }
        ∧ t.pool.free = s.pool.free + (x.cells - (k + 2))) := by
  intro x old t k
  have hctx (f : Circuit → Circuit) (j : Nat) : (((s.modCircuit n f).modCtx c (fun x => { x with cells := 0 })).ctx j)
      = if j = c then { x with cells := 0 } else s.ctx j := State.ctx_modCtx_lt _ _ hc j
  by_cases hk : k = 0 ∨ old.call.busy = false
  · have ht : t = ((s.modCircuit n Circuit.dropBoth).modCtx c (fun x => { x with cells := 0 })).returnCells x.cells := by
      rw [show t = s.settleUnswitched c from rfl, State.settleUnswitched]
      simp only [hx]
      exact if_pos (by simpa using hk)
    have hctx' (j : Nat) : t.ctx j = if j = c then { x with cells := 0 } else s.ctx j := by rw [ht]; exact hctx _ j
    have hcirc' (m : Nat) : t.circuit m = if m = n then old.dropBoth else s.circuit m := by
      rw [ht]; exact State.circuit_modCircuit_lt s _ hn m
    refine ⟨by rw [ht]; rfl, by rw [hctx', if_pos rfl], fun j hj => by rw [hctx', if_neg hj],
      fun m hm => by rw [hcirc', if_neg hm], fun _ => ⟨by rw [hcirc', if_pos rfl], by rw [ht]; rfl⟩, fun h1 h2 => ?_⟩
    exact absurd hk (by simp [h1, h2])
  · have ht : t = ((s.modCircuit n (fun y => { y.dropOn x.direction.targetPath with
          residual := k, residualPath := x.direction.currentPath, cellsHeld := k + 2 })).modCtx c
            (fun x => { x with cells := 0 })).returnCells (x.cells - (k + 2)) := by
      rw [show t = s.settleUnswitched c from rfl, State.settleUnswitched]
      simp only [hx]
      exact if_neg (by simpa using hk)
    have hctx' (j : Nat) : t.ctx j = if j = c then { x with cells := 0 } else s.ctx j := by rw [ht]; exact hctx _ j
    have hcirc' (m : Nat) : t.circuit m = if m = n then { old.dropOn x.direction.targetPath with
        residual := k, residualPath := x.direction.currentPath, cellsHeld := k + 2 } else s.circuit m := by
      rw [ht]
      exact State.circuit_modCircuit_lt s (fun y => { y.dropOn x.direction.targetPath with
        residual := k, residualPath := x.direction.currentPath, cellsHeld := k + 2 }) hn m
    refine ⟨by rw [ht]; rfl, by rw [hctx', if_pos rfl], fun j hj => by rw [hctx', if_neg hj],
      fun m hm => by rw [hcirc', if_neg hm], fun h => absurd h hk, fun _ _ => ⟨by rw [hcirc', if_pos rfl], by rw [ht]; rfl⟩⟩

theorem State.settleUnswitched_same (s : State) {c : Nat} (hc : c < 8) :
    let t := s.settleUnswitched c
    t = { s with circuits := t.circuits, contexts := t.contexts, pool := { s.pool with free := t.pool.free } }
    ∧ ∀ k, t.ctx k = if k = c then { s.ctx c with cells := 0 } else s.ctx k := by
  by_cases h : (s.circuit (s.ctx c).circuit).delay (s.ctx c).direction.currentPath = 0
      ∨ (!(s.circuit (s.ctx c).circuit).call.busy) = true
  · rw [State.settleUnswitched]
    simp only [if_pos h]
    exact ⟨rfl, fun k => State.ctx_modCtx_lt _ (fun x => { x with cells := 0 }) hc k⟩
  · rw [State.settleUnswitched]
    simp only [if_neg h]
    exact ⟨rfl, fun k => State.ctx_modCtx_lt _ (fun x => { x with cells := 0 }) hc k⟩

theorem State.abortSettled_same (s : State) {c : Nat} (hc : c < 8) :
    let x := s.ctx c
    let t := s.abortSettled c
    t = { s with owed := t.owed, circuits := t.circuits, contexts := t.contexts, pool := t.pool }
    ∧ t.ctx c = { x with cells := if x.switched then x.cells else 0 } ∧ (∀ k, k ≠ c → t.ctx k = s.ctx k) := by
  intro x t
  obtain ⟨v, hv⟩ : ∃ v, v = (s.leaveWaitList c).forgetContext c := ⟨_, rfl⟩
  have vctx : v.ctx = s.ctx := by rw [hv]; rfl
  have vsame : v = { s with owed := v.owed, pool := v.pool } := by rw [hv]; rfl
  by_cases hsw : x.switched = true
  · have ht : t = v := by rw [hv]; exact if_pos hsw
    rw [ht, if_pos hsw, vctx]
    refine ⟨?_, rfl, fun _ _ => rfl⟩
    rw [vsame]
  · have ht : t = v.settleUnswitched c := by rw [hv]; exact if_neg hsw
    obtain ⟨h1, h2⟩ := v.settleUnswitched_same hc
    rw [← ht] at h1 h2
    rw [vctx] at h2
    rw [if_neg hsw]
    exact ⟨by rw [h1, vsame], (h2 c).trans (if_pos rfl), fun k hk => (h2 k).trans (if_neg hk)⟩

theorem State.abortSettled_facts (s : State) {c n : Nat} (hc : c < 8) (hn : n < 480) (hx : (s.ctx c).circuit = n) :
    let x := s.ctx c
    let old := s.circuit n
    let t := s.abortSettled c
    let k := old.delay x.direction.currentPath
    t = { s with owed := t.owed, circuits := t.circuits, contexts := t.contexts, pool := t.pool }
    ∧ t.pool.waitList = s.pool.waitList.filter (fun k => k != c)
    ∧ t.ctx c = { x with cells := if x.switched then x.cells else 0 }
    ∧ (∀ k, k ≠ c → t.ctx k = s.ctx k) ∧ (∀ m, m ≠ n → t.circuit m = s.circuit m)
    ∧ (x.switched = true → t.circuits = s.circuits ∧ t.pool.free = s.pool.free)
    ∧ (x.switched = false → k = 0 ∨ old.call.busy = false →
        t.circuit n = old.dropBoth ∧ t.pool.free = s.pool.free + x.cells)
    ∧ (x.switched = false → k ≠ 0 → old.call.busy = true → t.circuit n = { old.dropOn x.direction.targetPath with
          residual := k, residualPath := x.direction.currentPath, cellsHeld := k + 2 }
        ∧ t.pool.free = s.pool.free + (x.cells - (k + 2))) := by
  intro x old t k
  obtain ⟨v, hv⟩ : ∃ v, v = (s.leaveWaitList c).forgetContext c := ⟨_, rfl⟩
  have vctx : v.ctx = s.ctx := by rw [hv]; rfl
  have vcirc : v.circuit = s.circuit := by rw [hv]; rfl
  have vfree : v.pool.free = s.pool.free := by rw [hv]; rfl
  have vwait : v.pool.waitList = s.pool.waitList.filter (fun k => k != c) := by rw [hv]; rfl
  have vsame : v = { s with owed := v.owed, pool := v.pool } := by rw [hv]; rfl
  by_cases hsw : x.switched = true
  · have ht : t = v := by rw [hv]; exact if_pos hsw
    rw [ht, if_pos hsw, vctx]
    refine ⟨?_, vwait, rfl, fun _ _ => rfl, fun m _ => by rw [vcirc], fun _ => ⟨by rw [vsame], vfree⟩,
      fun h => absurd hsw (by rw [h]; decide), fun h => absurd hsw (by rw [h]; decide)⟩
    rw [vsame]
  · have ht : t = v.settleUnswitched c := by rw [hv]; exact if_neg hsw
    obtain ⟨h1, h2, h3, h4, h5, h6⟩ := v.settleUnswitched_facts hc hn (by rw [vctx]; exact hx)
    rw [← ht] at h1 h2 h3 h4 h5 h6
    rw [vctx] at h2 h3 h5 h6
    rw [vcirc] at h4 h5 h6
    rw [vfree] at h5 h6
    rw [if_neg hsw]
    exact ⟨by rw [h1, vsame], by rw [h1]; exact vwait, h2, h3, h4, fun h => absurd h hsw, fun _ => h5, fun _ => h6⟩

/-- The fields of an abort in front of the circuit's return. -/
theorem State.abortMarked_facts (s : State) (cause : Cause) (peer : Option Byte) (deferred : Bool) {c n : Nat}
    (hc : c < 8) (hx : (s.ctx c).circuit = n) :
    let w := s.abortSettled c
    let t := s.abortMarked c cause peer deferred
    t = { w with contexts := t.contexts, peer := t.peer, linkA := t.linkA, linkB := t.linkB }
    ∧ t.ctx c = (w.ctx c).abortWith cause peer deferred
    ∧ (∀ k, k ≠ c → t.ctx k = s.ctx k)
    ∧ t.peer = { s.peer with adverts := s.peer.adverts.map (fun a =>
        if a.kind = .context c then { a with step := .abort, argument := cause.byte } else a) }
    ∧ (∀ l, t.link l = if deferred then s.link l else (s.link l).offer s.stamp {
        cls := .aborted, subject := some (.circuit n), cause := some cause
        value := some (BitVec.ofNat 16 (c + match peer with | some b => 256 * b.toNat | none => 0)) }) := by
  intro w t
  obtain ⟨h1, h3, h4⟩ := s.abortSettled_same hc
  have hctx (j : Nat) : (((w.modCtx c (fun x => x.abortWith cause peer deferred)).advertise c .abort cause.byte).ctx j)
      = if j = c then (w.ctx c).abortWith cause peer deferred else w.ctx j := State.ctx_modCtx_lt w (fun x => x.abortWith cause peer deferred) hc j
  have hadv : ((w.modCtx c (fun x => x.abortWith cause peer deferred)).advertise c .abort cause.byte).peer
      = { s.peer with adverts := s.peer.adverts.map (fun a =>
        if a.kind = .context c then { a with step := .abort, argument := cause.byte } else a) } := by
    rw [State.advertise_adverts, State.modCtx_peer, show w.peer = s.peer by rw [show w = s.abortSettled c from rfl, h1]]
  have hlink (l : Link) : w.link l = s.link l := by
    rw [show w = s.abortSettled c from rfl, h1]; cases l <;> rfl
  have hstamp : w.stamp = s.stamp := by rw [show w = s.abortSettled c from rfl, h1]
  have hwc : (w.ctx c).circuit = n := by rw [show w.ctx c = _ from h3]; exact hx
  cases deferred
  · have ht : t = ((w.modCtx c (fun x => x.abortWith cause peer false)).advertise c .abort cause.byte).raiseAborted c := rfl
    have hj (j : Nat) : t.ctx j = if j = c then (w.ctx c).abortWith cause peer false else w.ctx j := by
      rw [ht]; exact hctx j
    refine ⟨by rw [ht]; rfl, by rw [hj, if_pos rfl], fun k hk => by rw [hj, if_neg hk]; exact h4 k hk,
      by rw [ht]; exact hadv, fun l => ?_⟩
    rw [ht, State.raiseAborted, State.link_raise]
    show LinkRec.offer _ _ _ = _
    rw [hctx, if_pos rfl]
    show (w.link l).offer w.stamp { cls := .aborted, subject := some (.circuit (w.ctx c).circuit), cause := some cause
                                    value := some (BitVec.ofNat 16 _) } = _
    rw [hlink, hstamp, hwc]
    rfl
  · have ht : t = (w.modCtx c (fun x => x.abortWith cause peer true)).advertise c .abort cause.byte := rfl
    have hj (j : Nat) : t.ctx j = if j = c then (w.ctx c).abortWith cause peer true else w.ctx j := by
      rw [ht]; exact hctx j
    refine ⟨by rw [ht]; rfl, by rw [hj, if_pos rfl], fun k hk => by rw [hj, if_neg hk]; exact h4 k hk,
      by rw [ht]; exact hadv, fun l => ?_⟩
    rw [ht, ← hlink]
    cases l <;> rfl

/-- What an abort leaves of its circuit's record. -/
theorem State.abortMarked_circuit (s : State) (cause : Cause) (peer : Option Byte) (deferred : Bool) {c n : Nat}
    (hc : c < 8) (hn : n < 480) (hx : (s.ctx c).circuit = n) :
    let new := (s.abortMarked c cause peer deferred).circuit n
    new.group = (s.circuit n).group ∧ new.receive = (s.circuit n).receive
      ∧ new.conditioned = (s.circuit n).conditioned := by
  intro new
  obtain ⟨-, -, -, -, -, w6, w7, w8⟩ := s.abortSettled_facts hc hn hx
  obtain ⟨v1, -⟩ := s.abortMarked_facts cause peer deferred hc hx
  rw [show new = (s.abortSettled c).circuit n from State.circuit_congr (by rw [v1]) n]
  cases hsw : (s.ctx c).switched
  · by_cases hk : (s.circuit n).delay (s.ctx c).direction.currentPath = 0 ∨ (s.circuit n).call.busy = false
    · rw [(w7 hsw hk).1]; exact ⟨rfl, rfl, rfl⟩
    · obtain ⟨hk1, hk2⟩ := not_or.1 hk
      rw [(w8 hsw hk1 (by simpa using hk2)).1]
      cases (s.ctx c).direction <;> exact ⟨rfl, rfl, rfl⟩
  · rw [State.circuit_congr (w6 hsw).1]; exact ⟨rfl, rfl, rfl⟩

/-- The state that an aborted context's circuit returns to. -/
theorem State.lockedState_abortMarked (s : State) (cause : Cause) (peer : Option Byte) (deferred : Bool) {c n : Nat}
    (hc : c < 8) (hn : n < 480) (hx : (s.ctx c).circuit = n) :
    let v := s.abortMarked c cause peer deferred
    v.lockedState n (v.ctx c).origin = if (s.ctx c).origin = .reverted ∧ (s.group (s.circuit n).group).lockedOut = true
        then .locked else (s.ctx c).origin := by
  intro v
  obtain ⟨hgroup, -, -⟩ := s.abortMarked_circuit cause peer deferred hc hn hx
  obtain ⟨w1, -, w3, -⟩ := s.abortSettled_facts hc hn hx
  obtain ⟨v1, v2, -⟩ := s.abortMarked_facts cause peer deferred hc hx
  have hgroups : v.groups = s.groups := by rw [show v = _ from v1, w1]
  have horigin : (v.ctx c).origin = (s.ctx c).origin := by rw [v2, w3]; rfl
  rw [State.lockedState_eq, hgroup, horigin, State.group_congr hgroups]

/-! ### Abort -/

/-- Settles O38, by whether the switch was made; before it, the circuit leaves at once. -/
theorem abortsEndAContext : Obligations.AbortsEndAContext := by
  intro c n cause peer s hc hn hx x old t
  refine ⟨fun h => if_pos h, fun hfree habort => ?_⟩
  have ht : t = s.abortWith c cause peer false := if_neg (fun h => h.elim hfree habort)
  rw [State.abortWith_eq] at ht
  obtain ⟨w1, w2, w3, w4, w5, w6, w7, w8⟩ := s.abortSettled_facts hc hn hx
  obtain ⟨v1, v2, v3, v4, v5⟩ := s.abortMarked_facts cause peer false hc hx
  generalize s.abortSettled c = w at w1 w2 w3 w4 w5 w6 w7 w8 v1 v2
  obtain ⟨v, hv⟩ : ∃ v, v = s.abortMarked c cause peer false := ⟨_, rfl⟩
  rw [← hv] at v1 v2 v3 v4 v5 ht
  have vcirc (m : Nat) : v.circuit m = w.circuit m := State.circuit_congr (by rw [v1]) m
  have vpool : v.pool = w.pool := by rw [v1]
  cases hsw : (s.ctx c).switched
  · have ht' : t = (v.left c).recondition n := by
      rw [ht, if_neg (by rw [hsw]; decide), State.leaveContext_left, v2, w3]
      show (v.left c).recondition (s.ctx c).circuit = _
      rw [hx]
    have hvx : (v.ctx c).circuit = n := by rw [v2, w3]; exact hx
    obtain ⟨z1, z2, z3, z4, z5⟩ := v.left_facts hc hn hvx
    have hdef : (v.ctx c).deferred = false := by rw [v2]; rfl
    obtain ⟨q1, q2⟩ := State.left_undeferred hdef
    generalize v.left c = z at z1 z2 z3 z4 z5 q1 q2 ht'
    have hr := Rederived.recondition z n
    have hz := hr.circuit n
    obtain ⟨rctx, rqueue, rpeer, rwait, -⟩ := hr.frame
    rw [← ht'] at hr hz rctx rqueue rpeer rwait
    have hlock := s.lockedState_abortMarked cause peer false hc hn hx
    obtain ⟨-, hrec, hcond⟩ := s.abortMarked_circuit cause peer false hc hn hx
    rw [← hv] at hlock hrec hcond
    have htc : t.ctx c = { (v.ctx c) with served := none, parked := none, returnPending := false } := by rw [rctx, z2]
    have hpark : (v.ctx c).parked = x.parked := by rw [v2, w3]; rfl
    have habc : (v.ctx c).abortCause = some cause := by rw [v2]; rfl
    rw [hlock, habc] at z4
    rw [htc, v2, w3]
    refine ⟨rfl, rfl, rfl, rfl, rfl, rfl, rfl, rfl, fun k hk => by rw [rctx, z3 k hk, v3 k hk],
      ?_, ?_, nofun, fun _ => ?_⟩
    · rw [rwait, show z.pool = v.pool by rw [z1], vpool, w2]
    · rw [rpeer, show z.peer = v.peer by rw [z1], v4]
    · intro new home
      have hnew : new = _ := hz
      refine ⟨by rw [hnew, z4]; rfl, by rw [hnew, z4], by rw [hnew, z4], by rw [hnew, z4]; rfl, ?_, by rw [hsw]; rfl,
        rfl, rfl, rfl, ?_, fun hwant => ?_⟩
      · rw [hnew, z4]
        show home.receiveFor (v.circuit n).receive = _
        rw [hrec]
      · rw [rqueue, q1, hpark]
        exact State.reenterParked_congr (by rw [v1, w1]) (by rw [v1, w1]) _
      · have htz : t = z := by
          rw [ht'] at hwant ⊢
          refine State.recondition_stays (hwant.trans ?_)
          rw [z4, ← hcond]; rfl
        have hfree' : t.pool.free = w.pool.free := by rw [htz, show z.pool = v.pool by rw [z1], vpool]
        refine ⟨fun hk => ?_, fun hk hb => ?_, fun hp l => ?_⟩
        · obtain ⟨e1, e2⟩ := w7 hsw hk
          rw [hfree', show new = z.circuit n by rw [← htz], z4, vcirc, e1]
          exact ⟨rfl, rfl, rfl, e2⟩
        · obtain ⟨e1, e2⟩ := w8 hsw hk hb
          rw [hfree', show new = z.circuit n by rw [← htz], z4, vcirc, e1]
          refine ⟨rfl, rfl, rfl, ?_, ?_, e2⟩
          · show ((old.dropOn x.direction.targetPath).enter home).delay _ = _
            cases x.direction <;> rfl
          · show ((old.dropOn x.direction.targetPath).enter home).delay _ = _
            cases x.direction <;> rfl
        · rw [htz, q2 (hpark.trans hp), v5]
          rfl
  · have ht' : t = v := by rw [ht, if_pos hsw]
    rw [ht', v2, w3, hsw]
    refine ⟨rfl, rfl, rfl, rfl, rfl, rfl, rfl, rfl, v3, by rw [vpool, w2], by rw [v4], fun _ => ?_, nofun⟩
    refine ⟨by rw [show v.circuits = w.circuits by rw [v1]]; exact (w6 hsw).1, rfl, rfl, rfl,
      by rw [vpool]; exact (w6 hsw).2⟩

/-! ### The return, and the end of ABORTING -/

theorem State.makeReturn_eq {s : State} {c n : Nat} (hx : (s.ctx c).circuit = n) :
    s.makeReturn c = ((s.modCircuit n (fun c => { c.dropBoth with residual := 0, cellsHeld := 0 })).returnCells
      (s.circuit n).cellsHeld).leaveContext c := by
  subst hx; rfl

/-- A pending return drops the residual with its cells and lets the circuit leave. -/
theorem State.makeReturn_facts (s : State) {c n : Nat} (hc : c < 8) (hn : n < 480) (hx : (s.ctx c).circuit = n) :
    let x := s.ctx c
    let old := s.circuit n
    let t := s.makeReturn c
    let new := t.circuit n
    let home := if x.origin = .reverted ∧ (s.group old.group).lockedOut = true then .locked else x.origin
    t.ctx c = { x with served := none, parked := none, returnPending := false }
    ∧ (new.state = home ∧ new.context = none ∧ new.lastAbort = x.abortCause ∧ new.residual = 0
      ∧ new.cellsHeld = 0 ∧ new.delay .copper = 0 ∧ new.delay .fibre = 0
      ∧ new.transmit = home.transmitFor ∧ new.receive = home.receiveFor old.receive)
    ∧ t.pool.free = s.pool.free + old.cellsHeld
    ∧ (∀ m, m ≠ n → t.circuit m = s.circuit m) ∧ t.peer = s.peer
    ∧ (x.deferred = false → t.queue = (s.reenterParked x.parked).queue)
    ∧ (x.deferred = true → x.served = none → t.queue = (s.reenterParked x.parked).queue)
    ∧ (∀ e, x.deferred = true → x.served = some e → x.parked = none →
        t.queue = (s.reenter { e with idleOnly := true }).1.queue) := by
  intro x old t new home
  obtain ⟨v, hv⟩ : ∃ v, v = (s.modCircuit n (fun c => { c.dropBoth with residual := 0, cellsHeld := 0 })).returnCells
      old.cellsHeld := ⟨_, rfl⟩
  have vctx : v.ctx = s.ctx := by rw [hv]; rfl
  have vcirc (m : Nat) : v.circuit m = if m = n then { old.dropBoth with residual := 0, cellsHeld := 0 } else s.circuit m := by
    rw [hv]
    exact State.circuit_modCircuit_lt s (fun c => { c.dropBoth with residual := 0, cellsHeld := 0 }) hn m
  have hvx : (v.ctx c).circuit = n := by rw [vctx]; exact hx
  have ht : t = (v.left c).recondition n := by
    have hr : t = v.leaveContext c := by rw [hv]; exact State.makeReturn_eq hx
    rw [hr, State.leaveContext_left, hvx]
  have vqueue : v.queue = s.queue := by rw [hv]; rfl
  have vstamp : v.stamp = s.stamp := by rw [hv]; rfl
  obtain ⟨z1, z2, z3, z4, z5⟩ := v.left_facts hc hn hvx
  have hlock : v.lockedState n (v.ctx c).origin = home := by
    rw [State.lockedState_eq, vcirc, if_pos rfl, vctx, show v.group = s.group by rw [hv]; rfl]
    rfl
  have vpool : v.pool = { s.pool with free := s.pool.free + old.cellsHeld } := by rw [hv]; rfl
  have vpeer : v.peer = s.peer := by rw [hv]; rfl
  clear hv
  rw [hlock, vcirc, if_pos rfl, vctx] at z4
  obtain ⟨rctx, rqueue, rpeer, -, rothers⟩ := (Rederived.recondition (v.left c) n).frame
  obtain ⟨rpool, rcirc⟩ := State.recondition_clean hn (show ((v.left c).circuit n).residual = 0 by rw [z4]; rfl)
  rw [← ht] at rctx rqueue rpeer rothers rpool rcirc
  have hnew : new = _ := rcirc
  refine ⟨by rw [rctx, z2, vctx], ?_, ?_, fun m hm => by rw [rothers m hm, z5 m hm, vcirc, if_neg hm], ?_,
    fun hd => ?_, fun hd hs => ?_, fun e hd hs hp => ?_⟩
  · rw [hnew, z4]
    exact ⟨rfl, rfl, rfl, rfl, rfl, rfl, rfl, rfl, rfl⟩
  · rw [rpool, show (v.left c).pool = v.pool by rw [z1], vpool]
  · rw [rpeer, show (v.left c).peer = v.peer by rw [z1], vpeer]
  · rw [rqueue, (State.left_undeferred (by rw [vctx]; exact hd)).1, vctx]
    exact State.reenterParked_congr vqueue vstamp _
  · rw [rqueue, State.left_deferred_none (by rw [vctx]; exact hd) (by rw [vctx]; exact hs), vctx]
    exact State.reenterParked_congr vqueue vstamp _
  · rw [rqueue, (State.left_deferred_some (by rw [vctx]; exact hd) (by rw [vctx]; exact hs) (by rw [vctx]; exact hp)).1]
    exact (State.reenter_congr vqueue vstamp _).1

/-- The test of R125. -/
theorem Ctx.mayEnd_iff (x : Ctx) : x.mayEnd = true
    ↔ x.peerEntry = false ∨ (∃ b, x.lastStep = some (.abort, b)) ∨ 32 ≤ x.abortCount := by
  unfold Ctx.mayEnd
  cases hp : x.peerEntry
  · simp
  · cases hl : x.lastStep with
    | none => simp
    | some p => obtain ⟨st, b⟩ := p; cases st <;> simp

/-- Settles O40: the return by `State.makeReturn_facts`, the end by the test of R125. -/
theorem abortedContextsReturnAndEnd : Obligations.AbortedContextsReturnAndEnd := by
  intro c n s hs hc hn hx hab x old
  refine ⟨fun ho hp => ?_, fun ho hp => ?_, fun ho hp => ?_⟩
  · have hret : (s.forget (.abortReturn c)).returnIfPending c = (s.forget (.abortReturn c)).makeReturn c :=
      if_pos ⟨hab, hp⟩
    refine ⟨_, congrArg Host.Outcome.next (State.owedEvent_rests hs ho _), ?_⟩
    rw [hret]
    obtain ⟨h1, h2, h3, h4, h5, h6, h7, h8⟩ := (s.forget (.abortReturn c)).makeReturn_facts hc hn hx
    exact ⟨h1, h2, h3, h4, h5, fun hd => (h6 hd).trans
        (State.reenterParked_congr (s := s) (t := s.forget (.abortReturn c)) rfl rfl _),
      fun hd hn => (h7 hd hn).trans (State.reenterParked_congr (s := s) (t := s.forget (.abortReturn c)) rfl rfl _),
      fun e hd he hk => (h8 e hd he hk).trans
        (State.reenter_congr (s := s) (t := s.forget (.abortReturn c)) rfl rfl _).1⟩
  · refine (congrArg Host.Outcome.next (State.owedEvent_rests hs ho _)).trans (congrArg Host.Outcome.next ?_)
    refine if_neg (fun h => ?_)
    have := h.2.symm.trans hp
    exact absurd this (by decide)
  · intro u ends
    have hrun : exec (.abortingEnd c) s = .next (u.endAborting c) :=
      congrArg Host.Outcome.next (State.owedEvent_rests hs ho _)
    have hend : u.endAborting c = if x.resetPending then u.setCtx c x.freed
        else if x.mayEnd then (u.beginLinger c).setCtx c x.freed else u := by
      refine (if_pos hab).trans ?_
      have h1 : (if (u.ctx c).returnPending then u.makeReturn c else u) = u := if_neg (by rw [show (u.ctx c).returnPending = _ from hp]; decide)
      simp only [h1]
      rfl
    refine ⟨fun hr => ?_, fun hr he => ?_, fun hr he => ?_⟩
    · rw [hrun, hend, if_pos hr]
    · rw [hrun, hend, if_neg (by rw [hr]; decide), if_neg (mt (Ctx.mayEnd_iff x).1 he)]
    · rw [hrun, hend, if_neg (by rw [hr]; decide), if_pos ((Ctx.mayEnd_iff x).2 he)]

end Sys2Proof.Machine
end

section
/-! Completion and the switch (R102, R103, R121, R122). -/

namespace Sys2Proof.Machine

/-! ### Completion -/

theorem Ctx.completionDue_iff (x : Ctx) :
    x.completionDue = true ↔ x.state = .switched ∧ ∃ b, x.lastStep = some (.switched, b) := by
  unfold Ctx.completionDue Ctx.peerSwitched
  cases hl : x.lastStep with
  | none => simp
  | some p => obtain ⟨st, b⟩ := p; cases st <;> simp

/-- The moved circuit, and its context FREE. -/
def State.vacated (s : State) (c n : Nat) : State :=
  ((s.modCircuit n (fun y => { y.enter (s.ctx c).direction.finalState with context := none })).forgetContext
    c).modCtx c Ctx.freed

/-- A completed context; conditioning is still to be evaluated. -/
def State.completed (s : State) (c : Nat) : State :=
  let x := s.ctx c
  (((s.vacated c x.circuit).reenterParked x.parked).raise
    { cls := .completed, subject := some (.circuit x.circuit), cause := none, value := leadValue x.lead }).beginLinger c

theorem State.complete_eq (s : State) (c : Nat) : s.complete c = (s.completed c).recondition (s.ctx c).circuit := rfl

theorem State.completed_facts (s : State) {c n : Nat} (hc : c < 8) (hn : n < 480) (hx : (s.ctx c).circuit = n) :
    let x := s.ctx c
    let t := s.completed c
    t.ctx c = x.freed ∧ t.circuit n = { (s.circuit n).enter x.direction.finalState with context := none }
    ∧ t.queue = (s.reenterParked x.parked).queue
    ∧ t.peer.adverts = s.peer.adverts.map (fun a =>
        if a.kind = .context c then { a with kind := .linger 32 s.peer.serial } else a)
    ∧ (x.parked = none → ∀ l, t.link l = (s.link l).offer s.stamp {
        cls := .completed, subject := some (.circuit n), cause := none, value := x.lead.map (BitVec.ofInt 16) }) := by
  intro x t
  obtain ⟨v, hv⟩ : ∃ v, v = s.vacated c n := ⟨_, rfl⟩
  have ht : t = ((v.reenterParked x.parked).raise {
      cls := .completed, subject := some (.circuit n), cause := none, value := leadValue x.lead }).beginLinger c := by
    rw [hv, ← hx]; rfl
  have hvx : v.ctx c = x.freed := by rw [hv, State.vacated, State.ctx_modCtx_lt _ _ hc, if_pos rfl]; rfl
  have hvc : v.circuit n = { (s.circuit n).enter x.direction.finalState with context := none } := by
    rw [hv]
    exact (State.circuit_modCircuit_lt s (fun y => { y.enter x.direction.finalState with context := none }) hn n).trans
      (if_pos rfl)
  have hvq : v.queue = s.queue := by simp [hv, State.vacated, State.forgetContext]
  have hvs : v.stamp = s.stamp := by simp [hv, State.vacated, State.forgetContext]
  have hvp : v.peer = s.peer := by simp [hv, State.vacated, State.forgetContext]
  have hvl (l : Link) : v.link l = s.link l := by
    cases l <;> simp [State.link, hv, State.vacated, State.forgetContext]
  clear hv
  have hsame := v.reenterParked_same x.parked
  have hq := State.reenterParked_congr hvq hvs x.parked
  have hnone : x.parked = none → v.reenterParked x.parked = v := fun h => by rw [h]; rfl
  generalize v.reenterParked x.parked = z at ht hsame hq hnone
  refine ⟨?_, ?_, ?_, ?_, fun hp l => ?_⟩
  · rw [← hvx, ht]; exact State.ctx_congr (by rw [hsame]; rfl) c
  · rw [← hvc, ht]; exact State.circuit_congr (by rw [hsame]; rfl) n
  · rw [← hq, ht]; rfl
  · have hzp : z.peer = s.peer := by rw [hsame]; exact hvp
    rw [ht, State.beginLinger_peer, State.raise_peer, hzp]
  · rw [ht, ← hvl, ← hvs, hnone hp]
    cases l <;> rfl

/-- Settles O37, by the completed context's fields. -/
theorem contextsComplete : Obligations.ContextsComplete := by
  intro c n s hpow hdue hc hn hx x old done
  have hrun : exec (.contextCompletion c) s = .next (s.completeIfDue c) := by
    show Host.Outcome.next (if s.powered then s.serviceAll.completeIfDue c else s) = _
    rw [if_pos hpow, State.serviceAll_of_not_due hdue]
  refine ⟨fun h => ?_, fun h => ?_⟩
  · rw [hrun, State.completeIfDue, if_neg (mt (Ctx.completionDue_iff _).1 h)]
  · refine ⟨s.complete c, by rw [hrun, State.completeIfDue, if_pos ((Ctx.completionDue_iff _).2 h)], ?_⟩
    obtain ⟨z1, z2, z3, z4, z5⟩ := s.completed_facts hc hn hx
    rw [State.complete_eq, hx]
    generalize s.completed c = z at z1 z2 z3 z4 z5
    have hr := Rederived.recondition z n
    obtain ⟨rctx, rqueue, rpeer, -, -⟩ := hr.frame
    have hz := hr.circuit n
    rw [rctx, rqueue, rpeer, z1]
    refine ⟨rfl, rfl, rfl, rfl, rfl, hx, ?_, z3, z4, fun hwant hp => ?_⟩
    · intro new
      have hnew : new = _ := hz
      rw [hnew, z2]
      refine ⟨rfl, rfl, rfl, ?_⟩
      cases x.direction <;> exact ⟨rfl, rfl, rfl⟩
    · rw [State.recondition_stays (hwant.trans (by rw [z2]; rfl))]
      exact ⟨by rw [z2]; rfl, z5 hp⟩

/-! ### The switch -/

/-- What a switch makes of the circuit's lines, its cells and the pool (R102, R103). -/
def State.aligned (s : State) (c : Nat) : State :=
  if (s.circuit (s.ctx c).circuit).call.busy then s.busySwitch c else s.idleSwitch c

theorem State.aligned_facts (s : State) {c n : Nat} (hc : c < 8) (hn : n < 480) (hx : (s.ctx c).circuit = n) :
    let x := s.ctx c
    let old := s.circuit n
    let t := s.aligned c
    let lead := x.lead.getD 0
    t = { s with circuits := t.circuits, contexts := t.contexts, pool := t.pool }
    ∧ (∀ k, t.ctx k = if k = c then { x with cells := 0 } else s.ctx k)
    ∧ (∀ m, m ≠ n → t.circuit m = s.circuit m)
    ∧ (old.call.busy = false → t.circuit n = { old.dropBoth with residual := 0 }
        ∧ t.pool = { s.pool with free := s.pool.free + x.cells })
    ∧ (old.call.busy = true → 0 < lead → t.circuit n = { old with
          residual := lead.toNat, residualPath := x.direction.targetPath, cellsHeld := x.cells } ∧ t.pool = s.pool)
    ∧ (old.call.busy = true → lead ≤ 0 → t.circuit n = { old.dropOn x.direction.currentPath with residual := 0 }
        ∧ t.pool = { s.pool with free := s.pool.free + x.cells }) := by
  intro x old t lead
  by_cases hb : old.call.busy = true
  · have ht : t = s.busySwitch c := by
      show (if (s.circuit (s.ctx c).circuit).call.busy then _ else _) = _
      rw [hx]; exact if_pos hb
    have hidle : old.call.busy = false → False := fun h => absurd hb (by rw [h]; decide)
    rw [State.busySwitch] at ht
    simp only [hx] at ht
    by_cases hl : 0 < lead
    · rw [if_pos hl] at ht
      refine ⟨by rw [ht]; rfl, fun k => ?_, fun m hm => ?_, fun h => (hidle h).elim, fun _ _ => ⟨?_, by rw [ht]; rfl⟩,
        fun _ h => absurd hl (Int.not_lt.2 h)⟩
      · rw [ht]; exact State.ctx_modCtx_lt _ (fun x => { x with cells := 0 }) hc k
      · rw [ht]; exact (State.circuit_modCircuit_lt s (fun y => { y with
          residual := lead.toNat, residualPath := x.direction.targetPath, cellsHeld := x.cells }) hn m).trans (if_neg hm)
      · rw [ht]; exact (State.circuit_modCircuit_lt s (fun y => { y with
          residual := lead.toNat, residualPath := x.direction.targetPath, cellsHeld := x.cells }) hn n).trans (if_pos rfl)
    · rw [if_neg hl] at ht
      refine ⟨by rw [ht]; rfl, fun k => ?_, fun m hm => ?_, fun h => (hidle h).elim, fun _ h => absurd h hl,
        fun _ _ => ⟨?_, by rw [ht]; rfl⟩⟩
      · rw [ht]; exact State.ctx_modCtx_lt _ (fun x => { x with cells := 0 }) hc k
      · rw [ht]; exact (State.circuit_modCircuit_lt s (fun y => { y.dropOn x.direction.currentPath with
          residual := 0 }) hn m).trans (if_neg hm)
      · rw [ht]; exact (State.circuit_modCircuit_lt s (fun y => { y.dropOn x.direction.currentPath with
          residual := 0 }) hn n).trans (if_pos rfl)
  · have ht : t = s.idleSwitch c := by
      show (if (s.circuit (s.ctx c).circuit).call.busy then _ else _) = _
      rw [hx]; exact if_neg hb
    rw [State.idleSwitch] at ht
    simp only [hx] at ht
    refine ⟨by rw [ht]; rfl, fun k => ?_, fun m hm => ?_, fun _ => ⟨?_, by rw [ht]; rfl⟩, fun h => absurd h hb,
      fun h => absurd h hb⟩
    · rw [ht]; exact State.ctx_modCtx_lt _ (fun x => { x with cells := 0 }) hc k
    · rw [ht]; exact (State.circuit_modCircuit_lt s (fun y => { y.dropBoth with residual := 0 }) hn m).trans (if_neg hm)
    · rw [ht]; exact (State.circuit_modCircuit_lt s (fun y => { y.dropBoth with residual := 0 }) hn n).trans (if_pos rfl)

/-- A made switch; conditioning is still to be evaluated. -/
def State.switchMade (s : State) (c : Nat) : State :=
  let x := s.ctx c
  (((s.aligned c).modCircuit x.circuit (fun y => { y with receive := x.direction.targetPath })).modCtx c (fun x => { x with
    state := .switched, switched := true, switchDue := false, idleOnly := false
    stepTimer := 0, stepRunning := true })).advertise c .switched 0

theorem State.makeSwitch_eq (s : State) (c : Nat) : s.makeSwitch c =
    if (s.ctx c).state = .ready ∧ (s.ctx c).switchDue then
      if (s.ctx c).idleOnly ∧ (s.circuit (s.ctx c).circuit).call.busy then s.defer c
      else (s.switchMade c).recondition (s.ctx c).circuit
    else s := rfl

theorem State.switchMade_facts (s : State) {c n : Nat} (hc : c < 8) (hn : n < 480) (hx : (s.ctx c).circuit = n) :
    let w := s.aligned c
    let t := s.switchMade c
    t = { w with circuits := t.circuits, contexts := t.contexts, peer := t.peer }
    ∧ (∀ k, t.ctx k = if k = c then { s.ctx c with
        state := .switched, switched := true, switchDue := false, idleOnly := false, stepTimer := 0
        stepRunning := true, cells := 0 } else s.ctx k)
    ∧ t.circuit n = { w.circuit n with receive := (s.ctx c).direction.targetPath }
    ∧ (∀ m, m ≠ n → t.circuit m = s.circuit m)
    ∧ t.peer = { s.peer with adverts := s.peer.adverts.map (fun a =>
        if a.kind = .context c then { a with step := .switched, argument := 0 } else a) } := by
  intro w t
  obtain ⟨h1, h2, h3, -⟩ := s.aligned_facts hc hn hx
  have ht : t = ((w.modCircuit n (fun y => { y with receive := (s.ctx c).direction.targetPath })).modCtx c
      (fun x => { x with state := .switched, switched := true, switchDue := false, idleOnly := false
                         stepTimer := 0, stepRunning := true })).advertise c .switched 0 := by
    rw [← hx]; rfl
  have hctx (k : Nat) : t.ctx k = if k = c then { w.ctx c with
      state := .switched, switched := true, switchDue := false, idleOnly := false, stepTimer := 0
      stepRunning := true } else w.ctx k := by
    rw [ht]
    exact State.ctx_modCtx_lt _ (fun x => { x with
      state := .switched, switched := true, switchDue := false, idleOnly := false
      stepTimer := 0, stepRunning := true }) hc k
  have hcirc (m : Nat) : t.circuit m = if m = n then { w.circuit n with receive := (s.ctx c).direction.targetPath }
      else w.circuit m := by
    rw [ht]
    exact State.circuit_modCircuit_lt w (fun y => { y with receive := (s.ctx c).direction.targetPath }) hn m
  refine ⟨by rw [ht]; rfl, fun k => ?_, by rw [hcirc, if_pos rfl], fun m hm => by rw [hcirc, if_neg hm]; exact h3 m hm, ?_⟩
  · rw [hctx]
    by_cases hk : k = c
    · rw [if_pos hk, if_pos hk, show w.ctx c = _ from h2 c, if_pos rfl]
    · rw [if_neg hk, if_neg hk, show w.ctx k = _ from h2 k, if_neg hk]
  · rw [ht, State.advertise_adverts]
    have hp : w.peer = s.peer := by rw [show w = _ from h1]
    rw [← hp]
    rfl

/-- Settles O36: a deferral is an abort that leaves, and the switch is made by `State.switchMade_facts`. -/
theorem switchAlignsThePaths : Obligations.SwitchAlignsThePaths := by
  intro c n s hs ho hc hn hx hst hdue u x old target current
  have hux : (u.ctx c).circuit = n := hx
  have hrun : exec (.switch c) s = .next (u.makeSwitch c) :=
    congrArg Host.Outcome.next (State.owedEvent_rests hs ho _)
  have hmake : u.makeSwitch c = if x.idleOnly ∧ old.call.busy then u.defer c
      else (u.switchMade c).recondition n := by
    rw [State.makeSwitch_eq, if_pos ⟨hst, hdue⟩, hux]
    rfl
  refine ⟨fun hidle hbusy => ⟨by rw [hrun, hmake, if_pos ⟨hidle, hbusy⟩], fun e hsw hpark hserved hq => ?_⟩, fun hgo => ?_⟩
  · intro t back home
    have ht : t = (u.abortMarked c .deferredData none true).leaveContext c := by
      have h1 : t = u.abortWith c .deferredData none true := if_neg (fun h => by
        rcases h with h | h <;> exact absurd (hst.symm.trans h) (by decide))
      rw [h1, State.abortWith_eq, if_neg (by rw [show (u.ctx c).switched = _ from hsw]; decide)]
    obtain ⟨w1, -, w3, -⟩ := u.abortSettled_facts hc hn hux
    obtain ⟨v1, v2, -, v4, v5⟩ := u.abortMarked_facts .deferredData none true hc hux
    have hlock := u.lockedState_abortMarked .deferredData none true hc hn hux
    obtain ⟨-, -, hcond⟩ := u.abortMarked_circuit .deferredData none true hc hn hux
    rw [w1] at v1
    rw [w3] at v2
    generalize u.abortMarked c .deferredData none true = v at v1 v2 v4 v5 hlock hcond ht
    have hvx : (v.ctx c).circuit = n := by rw [v2]; exact hx
    have vserved : (v.ctx c).served = some e := by rw [v2]; exact hserved
    have vparked : (v.ctx c).parked = none := by rw [v2]; exact hpark
    have vdef : (v.ctx c).deferred = true := by rw [v2]; rfl
    have vab : (v.ctx c).abortCause = some .deferredData := by rw [v2]; rfl
    have vst : (v.ctx c).state = .aborting := by rw [v2]; rfl
    have vqueue : v.queue = s.queue := by rw [v1]
    have vstamp : v.stamp = s.stamp := by rw [v1]
    rw [State.leaveContext_left, hvx] at ht
    obtain ⟨z1, z2, -, z4, -⟩ := v.left_facts hc hn hvx
    obtain ⟨q1, q2⟩ := State.left_deferred_some vdef vserved vparked
    obtain ⟨c1, c2⟩ := State.reenter_congr vqueue vstamp back
    rw [show { e with idleOnly := true } = back from rfl, c1] at q1
    rw [show { e with idleOnly := true } = back from rfl, c2] at q2
    rw [hlock, vab] at z4
    have zpeer : (v.left c).peer = v.peer := by rw [z1]
    generalize v.left c = z at z1 z2 z4 q1 q2 ht zpeer
    have hr := Rederived.recondition z n
    obtain ⟨rctx, rqueue, rpeer, -, -⟩ := hr.frame
    have hz := hr.circuit n
    rw [← ht] at hr rctx rqueue rpeer hz
    rw [rctx, rqueue, rpeer, z2, hz, z4]
    refine ⟨vst, vab, rfl, rfl, rfl, rfl, q1, by rw [zpeer, v4]; rfl, fun hwant hen l p hp => ?_⟩
    have htz : t = z := by
      rw [ht] at hwant ⊢
      refine State.recondition_stays (hwant.trans ?_)
      rw [z4]; exact hcond.symm
    rw [htz, q2 p hp l, v5, vstamp, hen]
    rfl
  · refine ⟨(u.switchMade c).recondition n, by
      rw [hrun, hmake, if_neg (fun h => hgo.elim (fun he => absurd (h.1.symm.trans he) (by decide))
        (fun he => absurd (h.2.symm.trans he) (by decide)))], ?_⟩
    obtain ⟨a1, -, -, a4, a5, a6⟩ := u.aligned_facts hc hn hux
    obtain ⟨z1, z2, z3, z4, z5⟩ := u.switchMade_facts hc hn hux
    have zpool : (u.switchMade c).pool = (u.aligned c).pool := by rw [z1]
    generalize u.switchMade c = z at z1 z2 z3 z4 z5 zpool
    have hplain : (z.circuit n).state = old.state ∧ (z.circuit n).transmit = old.transmit
        ∧ (z.circuit n).conditioned = old.conditioned := by
      rw [z3]
      by_cases hb : old.call.busy = true
      · by_cases hl : 0 < x.lead.getD 0
        · rw [(a5 hb hl).1]; exact ⟨rfl, rfl, rfl⟩
        · rw [(a6 hb (Int.not_lt.1 hl)).1]
          show (old.dropOn current).state = _ ∧ (old.dropOn current).transmit = _ ∧ (old.dropOn current).conditioned = _
          cases current <;> exact ⟨rfl, rfl, rfl⟩
      · rw [(a4 (Bool.not_eq_true _ ▸ hb)).1]; exact ⟨rfl, rfl, rfl⟩
    have hr := Rederived.recondition z n
    obtain ⟨rctx, -, rpeer, -, rothers⟩ := hr.frame
    have hz := hr.circuit n
    refine ⟨by rw [rctx, z2, if_pos rfl]; rfl, fun k hk => by rw [rctx, z2, if_neg hk]; rfl, by rw [hz, z3]; rfl,
      by rw [hz]; exact hplain.1, by rw [hz]; exact hplain.2.1, fun m hm => by rw [rothers m hm, z4 m hm]; rfl,
      by rw [rpeer, z5], fun hwant => ?_⟩
    rw [State.recondition_stays (hwant.trans hplain.2.2.symm), zpool]
    intro new lead
    have hnew : new = _ := z3
    have htarget : old.call.busy = true → new.delay target = old.delay target := fun hb => by
      by_cases hl : 0 < lead
      · rw [hnew, (a5 hb hl).1]; show Circuit.delay _ target = _; cases target <;> rfl
      · rw [hnew, (a6 hb (Int.not_lt.1 hl)).1]
        show Circuit.delay _ x.direction.targetPath = old.delay x.direction.targetPath
        show Circuit.delay { ({ old.dropOn x.direction.currentPath with residual := 0 } : Circuit) with
          receive := x.direction.targetPath } x.direction.targetPath = _
        cases x.direction <;> rfl
    refine ⟨fun hb => ?_, fun hb hl => ?_, fun hb hl => ?_, fun hb ht hcur => ?_⟩
    · rw [hnew, (a4 hb).1, (a4 hb).2]; exact ⟨rfl, rfl, rfl, rfl⟩
    · refine ⟨?_, ?_, ?_, htarget hb, ?_, (a5 hb hl).2⟩
      · rw [hnew, (a5 hb hl).1]; rfl
      · rw [hnew, (a5 hb hl).1]; rfl
      · rw [hnew, (a5 hb hl).1]; rfl
      · rw [hnew, (a5 hb hl).1]; show Circuit.delay _ current = _; cases current <;> rfl
    · refine ⟨?_, ?_, htarget hb, (a6 hb hl).2⟩
      · rw [hnew, (a6 hb hl).1]
      · rw [hnew, (a6 hb hl).1]
        show Circuit.delay { ({ old.dropOn current with residual := 0 } : Circuit) with
          receive := x.direction.targetPath } current = 0
        cases current <;> rfl
    · rw [htarget hb, ht, hcur]; omega

end Sys2Proof.Machine
end

section
/-! What a declaration and a clearing make of the records, the pending revert and the contexts (R127, R151, R153, R157,
R158). -/

namespace Sys2Proof.Machine

/-! ### Records -/

theorem FaultKind.place_lt {k : FaultKind} {x : Nat} (h : x < 16) : k.place x < 53 := by
  cases k <;> simp only [FaultKind.place, FaultKind.isPort, FaultKind.code, if_true, if_false, Bool.false_eq_true] <;>
    omega

/-- A record of a port kind has no span. -/
theorem FaultKind.place_port {k : FaultKind} (h : k.isPort = true) (x y : Nat) : k.place x = k.place y := by
  simp [FaultKind.place, h]

theorem State.fault_setFault_same (s : State) (k : FaultKind) {x : Nat} (r : FaultRecord) (h : x < 16) :
    (s.setFault k x r).fault k x = r := by
  rw [State.fault_setFault, if_pos ⟨rfl, FaultKind.place_lt h⟩]

theorem State.fault_setFault_other (s : State) {j k : FaultKind} {x y : Nat} (r : FaultRecord) (hx : x < 16) (hy : y < 16)
    (h : j ≠ k ∨ (k.isPort = false ∧ y ≠ x)) : (s.setFault k x r).fault j y = s.fault j y := by
  rw [State.fault_setFault, if_neg]
  rintro ⟨hp, -⟩
  have hjk := FaultKind.place_inj hy hx hp
  obtain hne | ⟨hport, hyx⟩ := h
  · exact hne hjk
  · subst hjk
    rw [FaultKind.place_span hport, FaultKind.place_span hport] at hp
    omega

theorem State.fault_congr {s t : State} (h : t.faults.records = s.faults.records) (k : FaultKind) (x : Nat) :
    t.fault k x = s.fault k x := by
  simp only [State.fault, h]

theorem State.setFault_setFault (s : State) (k : FaultKind) (x : Nat) (r r' : FaultRecord) :
    (s.setFault k x r).setFault k x r' = s.setFault k x r' := by
  simp only [State.setFault, Table.put_put]

theorem State.setFault_same (s : State) (k : FaultKind) (x : Nat) : s.setFault k x (s.fault k x) = s := by
  simp only [State.setFault, State.fault, Table.put_at_same]

theorem State.faults_faultEnds (s : State) (k : FaultKind) (c : Nat) : (s.faultEnds k c).faults = s.faults := by
  have hport (cause : Cause) : (s.endByPort c cause).faults = s.faults := by
    unfold State.endByPort
    split
    · rw [(Worked.abort c cause none s).same]
    · rw [(Worked.endByFault c s).same]
  have hcopper : (s.endByCopper c).faults = s.faults := by
    unfold State.endByCopper
    split
    · split
      · rfl
      · rw [(Worked.abort c _ none s).same]
    · rw [(Worked.abort c _ none s).same]
  cases k
  case fibreLos => exact hport _
  case fibreErr => exact hport _
  case peerSilent => exact hport _
  case copperLos => exact hcopper
  case switchLos => exact hcopper
  case mapMismatch => rfl
  case siteClash => rfl
  case markerLoss => rfl

theorem State.faults_faultAbort (s : State) (k : FaultKind) (x : Nat) : (s.faultAbort k x).faults = s.faults := by
  unfold State.faultAbort
  generalize contextNumbers = cs
  induction cs generalizing s with
  | nil => rfl
  | cons c rest ih =>
    rw [List.foldl_cons, ih]
    split
    · exact s.faults_faultEnds k c
    · rfl

theorem State.faults_reconditionAll (s : State) (ns : List Nat) : (s.reconditionAll ns).faults = s.faults := by
  rw [(Rederived.reconditionAll s ns).same]

/-! ### The pending revert -/

theorem State.pendRevert_eq (s : State) (k : FaultKind) : s.pendRevert k = { s with
    faults := { s.faults with revertPending := some (s.faults.revertPending.getD k) } } := by
  unfold State.pendRevert
  cases s.faults.revertPending <;> rfl

theorem State.liveWith_revert (s : State) (k : FaultKind) (x : Nat) :
    s.liveWith k x Actions.revert = true ↔
      (s.fault k x).enabled = true ∧ (s.fault k x).live = true ∧ (s.fault k x).actions.revert = true := by
  simp [State.liveWith, and_assoc]

/-- The port kinds in the order of the kind table. -/
theorem mem_portKinds {k : FaultKind} : k ∈ portKinds ↔ k.isPort = true := by
  cases k <;> simp [portKinds, FaultKind.isPort]

theorem portKinds_split {j : FaultKind} (h : j.isPort = true) :
    ∃ before after, portKinds = before ++ j :: after ∧ ∀ i, i ∈ before → i.isPort = true ∧ i.code < j.code := by
  cases j
  case fibreLos => exact ⟨[], _, rfl, nofun⟩
  case fibreErr => exact ⟨[.fibreLos], _, rfl, by decide⟩
  case peerSilent => exact ⟨[.fibreLos, .fibreErr], _, rfl, by decide⟩
  case mapMismatch => exact ⟨[.fibreLos, .fibreErr, .peerSilent], _, rfl, by decide⟩
  case siteClash => exact ⟨[.fibreLos, .fibreErr, .peerSilent, .mapMismatch], _, rfl, by decide⟩
  case copperLos => exact absurd h (by decide)
  case switchLos => exact absurd h (by decide)
  case markerLoss => exact absurd h (by decide)

theorem State.liveRevert_none {s : State} (h : ∀ j, j.isPort = true → s.liveWith j 0 Actions.revert = false) :
    s.liveRevert = none :=
  List.find?_eq_none.2 (fun j hj => by rw [h j (mem_portKinds.1 hj)]; decide)

theorem State.liveRevert_some {s : State} {j : FaultKind} (hj : j.isPort = true)
    (h : s.liveWith j 0 Actions.revert = true)
    (hbefore : ∀ i, i.isPort = true → i.code < j.code → s.liveWith i 0 Actions.revert = false) :
    s.liveRevert = some j := by
  obtain ⟨before, after, hsplit, hlow⟩ := portKinds_split hj
  refine List.find?_eq_some_iff_append.2 ⟨h, before, after, hsplit, fun i hi => ?_⟩
  rw [hbefore i (hlow i hi).1 (hlow i hi).2]; rfl

/-! ### Declaration and clearing -/

/-- What a becoming-live does after the record is written (R153, R157). -/
def State.livened (s : State) (k : FaultKind) (x : Nat) (acts : Actions) : State :=
  let s1 := s.raise (faultEvent .faultSet k x)
  let s2 := if acts.abort then s1.faultAbort k x else s1
  (if acts.revert then (s2.pendRevert k).healthZero else s2).reconditionAll (k.conditions x)

theorem State.becomeLive_eq (s : State) (k : FaultKind) (x : Nat) :
    s.becomeLive k x = (s.setFault k x { s.fault k x with live := true, latched := true }).livened k x
      (s.fault k x).actions := rfl

theorem State.declare_disabled {s : State} {k : FaultKind} {x : Nat} (h : (s.fault k x).enabled = false) :
    s.declare k x = s.setFault k x { s.fault k x with declared := true } := by
  simp only [State.declare, h, Bool.false_eq_true, if_false]

theorem State.declare_enabled {s : State} {k : FaultKind} {x : Nat} (hx : x < 16) (h : (s.fault k x).enabled = true) :
    s.declare k x = (s.setFault k x { s.fault k x with declared := true, live := true, latched := true }).livened k x
      (s.fault k x).actions := by
  simp only [State.declare, h, if_true]
  rw [State.becomeLive_eq, State.fault_setFault_same _ _ _ hx, State.setFault_setFault]

theorem State.clearFault_disabled {s : State} {k : FaultKind} {x : Nat} (h : (s.fault k x).enabled = false) :
    s.clearFault k x = s.setFault k x { s.fault k x with declared := false } := by
  simp only [State.clearFault, h, Bool.false_eq_true, if_false]

theorem State.clearFault_enabled {s : State} {k : FaultKind} {x : Nat} (h : (s.fault k x).enabled = true) :
    s.clearFault k x = ((s.setFault k x { s.fault k x with declared := false, live := false }).raise
      (faultEvent .faultClear k x)).ceaseLive k x := by
  simp only [State.clearFault, h, if_true]

/-- What a becoming-live leaves of the Fault Unit's state. -/
theorem State.faults_livened (s : State) (k : FaultKind) (x : Nat) (acts : Actions) :
    (s.livened k x acts).faults = if acts.revert then { s.faults with
      revertPending := some (s.faults.revertPending.getD k), health := 0 } else s.faults := by
  have habort : (if acts.abort then (s.raise (faultEvent .faultSet k x)).faultAbort k x
      else s.raise (faultEvent .faultSet k x)).faults = s.faults := by
    split
    · rw [State.faults_faultAbort]; rfl
    · rfl
  simp only [State.livened, State.faults_reconditionAll]
  split
  · rw [State.healthZero, State.pendRevert_eq]
    show ({ FaultUnit.mk _ _ _ with health := 0 } : FaultUnit) = _
    rw [habort]
  · exact habort

/-- What a ceasing-live leaves of the Fault Unit's records. -/
theorem State.records_ceaseLive (s : State) (k : FaultKind) (x : Nat) :
    (s.ceaseLive k x).faults.records = s.faults.records := by
  simp only [State.ceaseLive, State.faults_reconditionAll]
  split
  · unfold State.copperReturns
    split
    · rw [State.pendRevert_eq]
    · rfl
  · rfl

/-- The record of a declaration, whatever else follows (R151). -/
theorem State.fault_declare (s : State) (k : FaultKind) {x : Nat} (hx : x < 16) :
    (s.declare k x).fault k x = { s.fault k x with
      declared := true
      live := (s.fault k x).live || (s.fault k x).enabled
      latched := (s.fault k x).latched || (s.fault k x).enabled } := by
  cases he : (s.fault k x).enabled
  · rw [State.declare_disabled he, State.fault_setFault_same _ _ _ hx]
    simp
  · rw [State.declare_enabled hx he, State.fault_congr (s := s.setFault k x { s.fault k x with
        declared := true, live := true, latched := true }) ?_, State.fault_setFault_same _ _ _ hx]
    · simp [he]
    · rw [State.faults_livened]
      split <;> rfl

theorem State.fault_declare_other (s : State) {j k : FaultKind} {x y : Nat} (hx : x < 16) (hy : y < 16)
    (h : j ≠ k ∨ (k.isPort = false ∧ y ≠ x)) : (s.declare k x).fault j y = s.fault j y := by
  cases he : (s.fault k x).enabled
  · rw [State.declare_disabled he, State.fault_setFault_other _ _ hx hy h]
  · rw [State.declare_enabled hx he, State.fault_congr (s := s.setFault k x { s.fault k x with
        declared := true, live := true, latched := true }) ?_, State.fault_setFault_other _ _ hx hy h]
    rw [State.faults_livened]
    split <;> rfl

/-! ### The end of a to-copper context (R127) -/

/-- A to-copper context ended by fault; conditioning is still to be evaluated. -/
def State.endedByFault (s : State) (c : Nat) : State :=
  let x := s.ctx c
  let s1 := ((((s.leaveWaitList c).forgetContext c).settleAll c).modCtx c (fun x => { x.abortWith .fibreFault none false with
      returnPending := false, served := none, parked := none })).advertise c .abort Cause.fibreFault.byte
  let s2 := s1.modCircuit x.circuit (fun y => { y.enter .copper with context := none, lastAbort := some .fibreFault })
  (s2.raiseAborted c).reenterParked x.parked

theorem State.endByFault_eq (s : State) (c : Nat) :
    s.endByFault c = (s.endedByFault c).recondition (s.ctx c).circuit := rfl

theorem State.settleAll_facts (s : State) {c n : Nat} (hc : c < 8) (hn : n < 480) (hx : (s.ctx c).circuit = n) :
    let t := s.settleAll c
    t = { s with circuits := t.circuits, contexts := t.contexts, pool := t.pool }
    ∧ (∀ k, t.ctx k = if k = c then { s.ctx c with cells := 0 } else s.ctx k)
    ∧ (∀ m, t.circuit m = if m = n then { (s.circuit n).dropBoth with residual := 0, cellsHeld := 0 } else s.circuit m)
    ∧ t.pool.free = s.pool.free + (s.ctx c).cells + (s.circuit n).cellsHeld := by
  intro t
  have ht : t = ((s.modCircuit n (fun y => { y.dropBoth with residual := 0, cellsHeld := 0 })).modCtx c
      (fun x => { x with cells := 0 })).returnCells ((s.ctx c).cells + (s.circuit n).cellsHeld) := by
    rw [← hx]; rfl
  refine ⟨by rw [ht]; rfl, fun k => ?_, fun m => ?_, ?_⟩
  · rw [ht]; exact State.ctx_modCtx_lt _ (fun x => { x with cells := 0 }) hc k
  · rw [ht]; exact State.circuit_modCircuit_lt s (fun y => { y.dropBoth with residual := 0, cellsHeld := 0 }) hn m
  · rw [ht]
    show s.pool.free + ((s.ctx c).cells + (s.circuit n).cellsHeld) = _
    rw [Nat.add_assoc]

theorem State.endedByFault_facts (s : State) {c n : Nat} (hc : c < 8) (hn : n < 480) (hx : (s.ctx c).circuit = n) :
    let x := s.ctx c
    let t := s.endedByFault c
    t.ctx c = { { x with cells := 0 }.abortWith .fibreFault none false with
      returnPending := false, served := none, parked := none }
    ∧ t.circuit n = { ({ (s.circuit n).dropBoth with residual := 0, cellsHeld := 0 } : Circuit).enter .copper with
        context := none, lastAbort := some .fibreFault }
    ∧ (∀ m, m ≠ n → t.circuit m = s.circuit m)
    ∧ t.pool.free = s.pool.free + x.cells + (s.circuit n).cellsHeld
    ∧ t.queue = (s.reenterParked x.parked).queue := by
  intro x t
  obtain ⟨b, hb⟩ : ∃ b, b = (s.leaveWaitList c).forgetContext c := ⟨_, rfl⟩
  have bctx : b.ctx = s.ctx := by rw [hb]; rfl
  have bcirc : b.circuit = s.circuit := by rw [hb]; rfl
  have bfree : b.pool.free = s.pool.free := by rw [hb]; rfl
  have bqueue : b.queue = s.queue := by rw [hb]; rfl
  have bstamp : b.stamp = s.stamp := by rw [hb]; rfl
  obtain ⟨v, hv⟩ : ∃ v, v = b.settleAll c := ⟨_, rfl⟩
  obtain ⟨v1, v2, v3, v4⟩ := b.settleAll_facts hc hn (by rw [bctx]; exact hx)
  rw [← hv] at v1 v2 v3 v4
  rw [bctx] at v2 v4
  rw [bcirc] at v3 v4
  rw [bfree] at v4
  have vqueue : v.queue = s.queue := by rw [v1]; exact bqueue
  have vstamp : v.stamp = s.stamp := by rw [v1]; exact bstamp
  obtain ⟨v', hv'⟩ : ∃ v', v' = (v.modCtx c (fun x => { x.abortWith .fibreFault none false with
      returnPending := false, served := none, parked := none })).advertise c .abort Cause.fibreFault.byte := ⟨_, rfl⟩
  obtain ⟨u, hu⟩ : ∃ u, u = v'.modCircuit n (fun y => { y.enter .copper with
      context := none, lastAbort := some .fibreFault }) := ⟨_, rfl⟩
  obtain ⟨w, hw⟩ : ∃ w, w = u.raiseAborted c := ⟨_, rfl⟩
  have ht : t = w.reenterParked x.parked := by rw [hw, hu, hv', hv, hb, ← hx]; rfl
  have hwx : w.ctx c = { (v.ctx c).abortWith .fibreFault none false with
      returnPending := false, served := none, parked := none } := by
    have h1 : w.contexts = u.contexts := by rw [hw]; rfl
    have h2 : u.contexts = v'.contexts := by rw [hu]; rfl
    have h3 : v'.contexts = (v.modCtx c (fun x => { x.abortWith .fibreFault none false with
      returnPending := false, served := none, parked := none })).contexts := by rw [hv']; rfl
    rw [State.ctx_congr (h1.trans (h2.trans h3)), State.ctx_modCtx_lt _ _ hc, if_pos rfl]
  have hwc (m : Nat) : w.circuit m = if m = n then { (v.circuit n).enter .copper with
      context := none, lastAbort := some .fibreFault } else v.circuit m := by
    have h1 : w.circuits = u.circuits := by rw [hw]; rfl
    have h2 : v'.circuits = v.circuits := by rw [hv']; rfl
    rw [State.circuit_congr h1, hu, State.circuit_modCircuit_lt _ _ hn, State.circuit_congr h2, State.circuit_congr h2]
  have hwq : w.queue = s.queue := by
    have h1 : w.queue = v.queue := by rw [hw, hu, hv']; rfl
    rw [h1, vqueue]
  have hws : w.stamp = s.stamp := by
    have h1 : w.stamp = v.stamp := by rw [hw, hu, hv']; rfl
    rw [h1, vstamp]
  have hwp : w.pool = v.pool := by rw [hw, hu, hv']; rfl
  clear hw hu hv' hv hb v1
  have hsame := w.reenterParked_same x.parked
  have hq := State.reenterParked_congr hwq hws x.parked
  rw [← ht] at hsame hq
  have hcirc (m : Nat) : t.circuit m = w.circuit m := State.circuit_congr (by rw [hsame]) m
  refine ⟨?_, ?_, fun m hm => ?_, ?_, hq⟩
  · rw [State.ctx_congr (show t.contexts = w.contexts by rw [hsame]), hwx, v2, if_pos rfl]
  · rw [hcirc, hwc, if_pos rfl, v3, if_pos rfl]
  · rw [hcirc, hwc, if_neg hm, v3, if_neg hm]
  · rw [show t.pool = w.pool by rw [hsame], hwp, v4]

end Sys2Proof.Machine
end

section
/-! The Fault Unit: declarations and clearings (R151, R153, R157, R158). -/

namespace Sys2Proof.Machine

theorem State.faultReaches_iff (s : State) (k : FaultKind) (x c : Nat) : s.faultReaches k x c = true ↔
    (s.ctx c).state ≠ .free ∧ (s.ctx c).state ≠ .aborting ∧ (k.isPort = true ∨ (s.ctx c).circuit / 30 = x) := by
  simp [State.faultReaches, spanOf, and_assoc]

/-- A becoming-live that neither ends a context nor conditions a circuit. -/
theorem State.livened_plain (s : State) {k : FaultKind} {x : Nat} {acts : Actions} (ha : acts.abort = false)
    (hc : k.conditions x = []) : s.livened k x acts = { s.raise (faultEvent .faultSet k x) with
      faults := (s.livened k x acts).faults } := by
  simp only [State.livened, ha, hc, Bool.false_eq_true, if_false]
  cases acts.revert <;> rfl

theorem State.endByCopper_eq (s : State) (c : Nat) : s.endByCopper c =
    if (s.ctx c).direction = .toFibre ∧ (s.ctx c).state = .switched then s else s.abort c .copperFault := by
  unfold State.endByCopper
  cases (s.ctx c).direction <;> simp

/-- A clearing of a kind that no revert waits for. -/
theorem State.ceaseLive_plain {s : State} {k : FaultKind} {x : Nat} (h : k = .copperLos → s.liveRevert = none) :
    s.ceaseLive k x = s.reconditionAll (k.conditions x) := by
  unfold State.ceaseLive
  split
  · next hk => rw [State.copperReturns, h hk]
  · rfl

theorem State.ceaseLive_reverts {s : State} {j : FaultKind} {x : Nat} (h : s.liveRevert = some j) :
    s.ceaseLive .copperLos x = (s.pendRevert j).reconditionAll (FaultKind.copperLos.conditions x) := by
  rw [State.ceaseLive, if_pos rfl, State.copperReturns, h]

/-- The first part of O48, at the record of one kind. -/
theorem State.declare_and_clear (k : FaultKind) (x : Nat) (s : State) (hx : x < 16) (he : (s.fault k x).enabled = true) :
    let r := s.fault k x
    let t := s.declare k x
    t.fault k x = { r with declared := true, live := true, latched := true }
    ∧ t.faults.revertPending = (if r.actions.revert = true ∧ s.faults.revertPending = none then some k
        else s.faults.revertPending)
    ∧ t.faults.health = (if r.actions.revert then 0 else s.faults.health) := by
  intro r t
  have hf := s.fault_declare k hx
  rw [he, Bool.or_true, Bool.or_true] at hf
  have hfaults : t.faults = if r.actions.revert then
      { (s.setFault k x { r with declared := true, live := true, latched := true }).faults with
        revertPending := some (s.faults.revertPending.getD k), health := 0 }
      else (s.setFault k x { r with declared := true, live := true, latched := true }).faults := by
    rw [show t = _ from State.declare_enabled hx he, State.faults_livened]; rfl
  refine ⟨hf, ?_, ?_⟩
  · rw [hfaults]
    cases r.actions.revert
    · rfl
    · cases hp : s.faults.revertPending <;> simp
  · rw [hfaults]
    cases r.actions.revert <;> rfl

/-- Settles O48: declaration and clearing record by record, then R127's table. -/
theorem faultsAreDeclaredAndCleared : Obligations.FaultsAreDeclaredAndCleared := by
  refine ⟨?_, ?_⟩
  · intro k x s hx r subject told pends reverting conditioned
    have hcond (v : State) : conditioned v = v.reconditionAll (k.conditions x) := by cases k <;> rfl
    have hpends (v : State) (j : FaultKind) : pends v j = v.pendRevert j := (v.pendRevert_eq j).symm
    have htold (cls : NoticeClass) (new : FaultRecord) :
        told cls new = (s.setFault k x new).raise (faultEvent cls k x) := rfl
    refine ⟨fun he => ⟨State.declare_disabled he, State.clearFault_disabled he⟩, fun he => ?_⟩
    intro t
    have ht : t = _ := State.declare_enabled hx he
    obtain ⟨h1, h2, h3⟩ := State.declare_and_clear k x s hx he
    refine ⟨h1, fun j y hjy hy => State.fault_declare_other s hx hy hjy, h2, h3, fun hab h4 h5 => ?_, ?_, ?_⟩
    · have hnil : k.conditions x = [] := by
        cases k
        case fibreLos => exact absurd rfl h4
        case copperLos => exact absurd rfl h5
        all_goals rfl
      rw [ht]
      exact State.livened_plain _ hab hnil
    · intro set ended
      have hended : ended = if r.actions.abort then set.faultAbort k x else set := by
        show (if r.actions.abort then _ else set) = _
        unfold State.faultAbort
        simp only [State.faultReaches_iff]
        rfl
      rw [ht, hcond, hended, hpends]
      rfl
    · intro u cleared
      have hu : u = cleared.ceaseLive k x := State.clearFault_enabled he
      have hlow (j : FaultKind) (hk : k = .copperLos) (hj : j.isPort = true) :
          cleared.liveWith j 0 Actions.revert = true ↔ reverting j := by
        have hr : cleared.fault j 0 = s.fault j 0 := by
          refine (State.fault_congr (s := s.setFault k x { r with declared := false, live := false }) rfl j 0).trans
            (State.fault_setFault_other _ _ hx (by decide) (.inl fun h => ?_))
          rw [h, hk] at hj
          exact absurd hj (by decide)
        rw [State.liveWith_revert, hr]
      refine ⟨?_, fun hk => ?_, fun hk => ⟨fun hnone => ?_, fun j hj hrev hfirst => ?_⟩⟩
      · rw [hu, State.fault_congr (s := s.setFault k x { r with declared := false, live := false })
          (by rw [State.records_ceaseLive]; rfl), State.fault_setFault_same _ _ _ hx]
      · rw [hu, hcond, State.ceaseLive_plain (fun h => absurd h hk)]
      · rw [hu, hcond, State.ceaseLive_plain (fun _ => State.liveRevert_none fun j hj =>
          Bool.eq_false_iff.2 (fun h => hnone j hj ((hlow j hk hj).1 h)))]
      · rw [hu, hcond, hpends, hk, State.ceaseLive_reverts (State.liveRevert_some hj ((hlow j hk hj).2 hrev)
          fun i hi hc => Bool.eq_false_iff.2 (fun h => hfirst i hi hc ((hlow i hk hi).1 h)))]
  · intro k c n s hc hn hx hfree habort toFibre
    have hport (cause : Cause) (h : toFibre) : s.endByPort c cause = s.abort c cause := by
      rw [State.endByPort, show (s.ctx c).direction = .toFibre from h]
    have hcopper : s.endByCopper c = if toFibre ∧ (s.ctx c).state = .switched then s else s.abort c .copperFault :=
      s.endByCopper_eq c
    refine ⟨fun h hk => ?_, fun h hk => ?_, fun hk => ?_, fun hk => ?_, fun h hk => ?_⟩
    · obtain rfl | rfl := hk
      · exact hport _ h
      · exact hport _ h
    · subst hk; exact hport _ h
    · obtain rfl | rfl := hk
      · exact hcopper
      · exact hcopper
    · obtain rfl | rfl | rfl := hk
      · rfl
      · rfl
      · rfl
    · intro t new
      have hend (cause : Cause) : s.endByPort c cause = s.endByFault c := by
        unfold State.endByPort
        cases hd : (s.ctx c).direction
        · exact absurd hd h
        · rfl
      have ht : t = (s.endedByFault c).recondition n := by
        have : t = s.endByFault c := by
          obtain rfl | rfl | rfl := hk
          · exact hend _
          · exact hend _
          · exact hend _
        rw [this, State.endByFault_eq, hx]
      obtain ⟨z1, z2, z3, z4, z5⟩ := s.endedByFault_facts hc hn hx
      generalize s.endedByFault c = z at z1 z2 z3 z4 z5 ht
      obtain ⟨rctx, rqueue, -, -, rothers⟩ := (Rederived.recondition z n).frame
      obtain ⟨rpool, rcirc⟩ := State.recondition_clean hn (show (z.circuit n).residual = 0 by rw [z2]; rfl)
      rw [← ht] at rctx rqueue rothers rpool rcirc
      have hnew : new = _ := rcirc
      rw [hnew, z2, rpool, z4, rctx, z1, rqueue]
      exact ⟨rfl, rfl, rfl, rfl, rfl, rfl, rfl, rfl, rfl, rfl, rfl, rfl, rfl, rfl, rfl, z5,
        fun m hm => by rw [rothers m hm, z3 m hm]⟩

end Sys2Proof.Machine
end

section
/-! The Fault Unit: SET_FAULT_POLICY and CLEAR_FAULT (R154, R155). -/

namespace Sys2Proof.Machine

/-! ### The records a command names -/

/-- The records of a scope, as R154 names them. -/
def scopeTargets (k : FaultKind) (scope : Nat) : List Nat :=
  if k.isPort then [0] else if scope = 0xFF then List.range 16 else [scope]

theorem readScope_targets {k : FaultKind} {scope : Nat}
    (h : (k.isPort = true ∧ scope = 0x40) ∨ (k.isPort = false ∧ (scope < 16 ∨ scope = 0xFF))) :
    readScope k scope = some (scopeTargets k scope) := by
  obtain ⟨hp, hs⟩ | ⟨hp, hs⟩ := h
  · simp [readScope, scopeTargets, hp, hs]
  · obtain hs | hs := hs
    · simp [readScope, scopeTargets, hp, hs, show scope ≠ 255 by omega]
    · simp [readScope, scopeTargets, hp, hs]

theorem scopeTargets_facts {k : FaultKind} {scope : Nat}
    (h : (k.isPort = true ∧ scope = 0x40) ∨ (k.isPort = false ∧ (scope < 16 ∨ scope = 0xFF))) :
    (scopeTargets k scope).Nodup ∧ (∀ x, x ∈ scopeTargets k scope → x < 16)
      ∧ (k.isPort = true → (scopeTargets k scope).length ≤ 1)
      ∧ (k.isPort = false → ∀ x, x < 16 → (x ∈ scopeTargets k scope ↔ scope = 0xFF ∨ x = scope)) := by
  obtain ⟨hp, hs⟩ | ⟨hp, hs⟩ := h
  · simp [scopeTargets, hp]
  · obtain hs | hs := hs
    · simp [scopeTargets, hp, hs, show scope ≠ 255 by omega]
    · simp only [scopeTargets, hp, hs, Bool.false_eq_true, if_false, if_true]
      exact ⟨List.nodup_range, by simp, nofun, by simp⟩

/-- A fold of writes over the records of a kind writes each record named, once, and no other. -/
theorem foldl_records {k : FaultKind} {op : State → Nat → State} {f : FaultRecord → FaultRecord} {P : FaultRecord → Prop}
    (hown : ∀ v x, x < 16 → P (v.fault k x) → (op v x).fault k x = f (v.fault k x))
    (hother : ∀ v x j y, x < 16 → y < 16 → j ≠ k ∨ (k.isPort = false ∧ y ≠ x) → (op v x).fault j y = v.fault j y)
    {xs : List Nat} {s : State} (hnodup : xs.Nodup) (hlt : ∀ x, x ∈ xs → x < 16)
    (hport : k.isPort = true → xs.length ≤ 1) (hP : ∀ x, x ∈ xs → P (s.fault k x)) :
    (∀ x, x ∈ xs → (xs.foldl op s).fault k x = f (s.fault k x))
    ∧ ∀ j y, y < 16 → j ≠ k ∨ (k.isPort = false ∧ y ∉ xs) → (xs.foldl op s).fault j y = s.fault j y := by
  induction xs generalizing s with
  | nil => exact ⟨nofun, fun _ _ _ _ => rfl⟩
  | cons x rest ih =>
    obtain ⟨hx, hrest⟩ := List.nodup_cons.1 hnodup
    have hxl := hlt x List.mem_cons_self
    have hspan (y : Nat) (hy : y ∈ rest) : k.isPort = false := by
      by_contra hp
      have := hport (by simpa using hp)
      have := List.length_pos_of_mem hy
      simp only [List.length_cons] at *
      omega
    have hkeep (y : Nat) (hy : y ∈ rest) : (op s x).fault k y = s.fault k y :=
      hother s x k y hxl (hlt y (List.mem_cons_of_mem x hy)) (.inr ⟨hspan y hy, fun h => hx (h ▸ hy)⟩)
    obtain ⟨h1, h2⟩ := ih (s := op s x) hrest (fun y hy => hlt y (List.mem_cons_of_mem x hy))
      (fun hp => by have := hport hp; simp only [List.length_cons] at this; omega)
      (fun y hy => by rw [hkeep y hy]; exact hP y (List.mem_cons_of_mem x hy))
    rw [List.foldl_cons]
    refine ⟨fun y hy => ?_, fun j y hy hjy => ?_⟩
    · by_cases hmem : y ∈ rest
      · rw [h1 y hmem, hkeep y hmem]
      · obtain rfl := (List.mem_cons.1 hy).resolve_right hmem
        by_cases hp : k.isPort = true
        · have hnil : rest = [] := by
            have := hport hp
            simp only [List.length_cons] at this
            exact List.length_eq_zero_iff.1 (by omega)
          rw [hnil, List.foldl_nil, hown s y hxl (hP y hy)]
        · rw [h2 k y hxl (.inr ⟨by simpa using hp, hmem⟩), hown s y hxl (hP y hy)]
    · have hjy' : j ≠ k ∨ (k.isPort = false ∧ y ∉ rest ∧ y ≠ x) :=
        hjy.imp_right fun h => ⟨h.1, fun hm => h.2 (List.mem_cons_of_mem x hm), fun he => h.2 (he ▸ List.mem_cons_self)⟩
      rw [h2 j y hy (hjy'.imp_right fun h => ⟨h.1, h.2.1⟩), hother s x j y hxl hy (hjy'.imp_right fun h => ⟨h.1, h.2.2⟩)]

/-- The same, for the records that the command names (a port kind has one record, whatever span stands beside it). -/
theorem foldl_named {k : FaultKind} {scope : Nat} {op : State → Nat → State} {f : FaultRecord → FaultRecord}
    {P : FaultRecord → Prop} (hown : ∀ v x, x < 16 → P (v.fault k x) → (op v x).fault k x = f (v.fault k x))
    (hother : ∀ v x j y, x < 16 → y < 16 → j ≠ k ∨ (k.isPort = false ∧ y ≠ x) → (op v x).fault j y = v.fault j y)
    (h : (k.isPort = true ∧ scope = 0x40) ∨ (k.isPort = false ∧ (scope < 16 ∨ scope = 0xFF)))
    {s : State} (hP : ∀ x, x < 16 → P (s.fault k x)) :
    let named (x : Nat) : Prop := x < 16 ∧ (k.isPort = true ∨ scope = 0xFF ∨ x = scope)
    let t := (scopeTargets k scope).foldl op s
    (∀ x, named x → t.fault k x = f (s.fault k x))
    ∧ (∀ j y, y < 16 → (j ≠ k ∨ ¬ named y) → t.fault j y = s.fault j y) := by
  intro named t
  obtain ⟨t1, t2, t3, t4⟩ := scopeTargets_facts h
  obtain ⟨h1, h2⟩ := foldl_records hown hother t1 t2 t3 (fun x hx => hP x (t2 x hx))
  refine ⟨fun x hx => ?_, fun j y hy hjy => ?_⟩
  · obtain ⟨hx16, hx⟩ := hx
    by_cases hp : k.isPort = true
    · have h0 : 0 ∈ scopeTargets k scope := by simp [scopeTargets, hp]
      rw [State.fault_same_place (FaultKind.place_port hp x 0), h1 0 h0, State.fault_same_place (FaultKind.place_port hp 0 x)]
    · have hf : k.isPort = false := by simpa using hp
      exact h1 x ((t4 hf x hx16).2 (hx.resolve_left hp))
  · refine h2 j y hy (hjy.imp_right fun hn => ?_)
    have hf : k.isPort = false := by
      by_contra hp
      exact hn ⟨hy, .inl (by simpa using hp)⟩
    exact ⟨hf, fun hm => hn ⟨hy, .inr ((t4 hf y hy).1 hm)⟩⟩

/-! ### One record -/

/-- What a policy makes of a record (R154). -/
def FaultRecord.underPolicy (on : Bool) (acts : Actions) (r : FaultRecord) : FaultRecord :=
  { enabled := on, actions := acts, declared := r.declared
    live := on && (if r.enabled then r.live else r.declared)
    latched := on && (if r.enabled then r.latched else r.declared) }

/-- A record is live and latched only while enabled. -/
def FaultRecord.tracked (r : FaultRecord) : Prop :=
  (r.live = true → r.enabled = true) ∧ (r.latched = true → r.enabled = true)

/-- What one record's policy does, as R154 says it. -/
theorem State.setPolicy_eq (v : State) (k : FaultKind) (on : Bool) (acts : Actions) {x : Nat} (hx : x < 16) :
    let r := v.fault k x
    let w := v.setFault k x { r with enabled := on, actions := acts, live := r.live && on, latched := r.latched && on }
    v.setPolicy k on acts x =
      if on = true ∧ r.enabled = false then (if r.declared then w.declare k x else w)
      else if on then (
        if r.live = true ∧ acts.revert = true ∧ r.actions.revert = false then
          { w with faults := { w.faults with health := 0 } }
        else w).reconditionAll (k.conditions x)
      else (if k = .copperLos ∧ r.enabled = true ∧ r.live = true then w.copperReturns else w).reconditionAll
        (k.conditions x) := by
  intro r w
  cases on
  · have hw : w = v.setFault k x { r with enabled := false, actions := acts, live := false, latched := false } := by
      simp only [w, Bool.and_false]
    rw [if_neg (by simp), if_neg (by simp), hw]
    simp only [State.setPolicy, Bool.false_eq_true, if_false]
    by_cases hl : r.enabled = true ∧ r.live = true
    · rw [if_pos hl, State.ceaseLive]
      by_cases hk : k = .copperLos
      · rw [if_pos hk, if_pos ⟨hk, hl⟩]
      · rw [if_neg hk, if_neg (fun h => hk h.1)]
    · rw [if_neg hl, if_neg (fun h => hl h.2)]
  · have hw : w = v.setFault k x { r with enabled := true, actions := acts } := by simp only [w, Bool.and_true]
    have hwr : w.fault k x = { r with enabled := true, actions := acts } := by rw [hw, State.fault_setFault_same _ _ _ hx]
    by_cases he : r.enabled = true
    · rw [if_neg (fun h => absurd (he.symm.trans h.2) (by decide)), if_pos rfl, hw]
      simp only [State.setPolicy, if_true, show (v.fault k x).enabled = true from he, Bool.not_eq_true']
      rfl
    · have hf : r.enabled = false := by simpa using he
      rw [if_pos (show true = true ∧ r.enabled = false from ⟨rfl, hf⟩)]
      simp only [State.setPolicy, if_true, show (v.fault k x).enabled = false from hf, Bool.false_eq_true, if_false]
      by_cases hd : r.declared = true
      · have hsame : w.setFault k x { w.fault k x with declared := true } = w := by
          rw [show ({ w.fault k x with declared := true } : FaultRecord) = w.fault k x by rw [hwr, ← hd],
            State.setFault_same]
        rw [if_pos (show (v.fault k x).declared = true from hd), if_pos hd, State.declare, if_pos (by rw [hwr]), hsame, hw]
      · rw [if_neg (show ¬ (v.fault k x).declared = true from hd), if_neg hd, hw]

theorem State.fault_setPolicy (v : State) (k : FaultKind) (on : Bool) (acts : Actions) {x : Nat} (hx : x < 16)
    (hr : (v.fault k x).tracked) : (v.setPolicy k on acts x).fault k x = (v.fault k x).underPolicy on acts := by
  obtain ⟨hlive, hlatched⟩ := hr
  obtain ⟨w, hw⟩ : ∃ w, w = v.setFault k x { v.fault k x with
      enabled := on, actions := acts, live := (v.fault k x).live && on, latched := (v.fault k x).latched && on } := ⟨_, rfl⟩
  have hwr : w.fault k x = { v.fault k x with
      enabled := on, actions := acts, live := (v.fault k x).live && on, latched := (v.fault k x).latched && on } := by
    rw [hw, State.fault_setFault_same _ _ _ hx]
  rw [State.setPolicy_eq v k on acts hx, ← hw]
  generalize v.fault k x = r at hwr hlive hlatched
  have hrecords : ∀ u : State, u.faults.records = w.faults.records →
      (u.reconditionAll (k.conditions x)).fault k x = w.fault k x := fun u hu =>
    State.fault_congr (by rw [State.faults_reconditionAll, hu]) k x
  by_cases h1 : on = true ∧ r.enabled = false
  · obtain ⟨hon, he⟩ := h1
    have hl0 : r.live = false := by by_contra h; exact absurd (hlive (by simpa using h)) (by rw [he]; decide)
    have ht0 : r.latched = false := by by_contra h; exact absurd (hlatched (by simpa using h)) (by rw [he]; decide)
    rw [if_pos ⟨hon, he⟩]
    cases hd : r.declared
    · rw [if_neg (by decide), hwr]
      simp [FaultRecord.underPolicy, hon, he, hl0, ht0, hd]
    · rw [if_pos rfl, State.fault_declare _ _ hx, hwr]
      simp [FaultRecord.underPolicy, hon, he, hl0, ht0, hd]
  · rw [if_neg h1]
    cases hon : on
    · rw [if_neg (by decide), hrecords, hwr]
      · simp [FaultRecord.underPolicy, hon]
      · split
        · rw [State.copperReturns]
          split
          · rw [State.pendRevert_eq]
          · rfl
        · rfl
    · have he : r.enabled = true := by
        by_contra h
        exact h1 ⟨hon, by simpa using h⟩
      rw [if_pos rfl, hrecords, hwr]
      · simp [FaultRecord.underPolicy, hon, he]
      · split <;> rfl

theorem State.fault_setPolicy_other (v : State) {k j : FaultKind} (on : Bool) (acts : Actions) {x y : Nat} (hx : x < 16)
    (hy : y < 16) (h : j ≠ k ∨ (k.isPort = false ∧ y ≠ x)) : (v.setPolicy k on acts x).fault j y = v.fault j y := by
  have hw := State.fault_setFault_other v { v.fault k x with
    enabled := on, actions := acts, live := (v.fault k x).live && on, latched := (v.fault k x).latched && on } hx hy h
  rw [← hw, State.setPolicy_eq v k on acts hx]
  generalize v.setFault k x _ = w
  have hrecords : ∀ u : State, u.faults.records = w.faults.records →
      (u.reconditionAll (k.conditions x)).fault j y = w.fault j y := fun u hu =>
    State.fault_congr (by rw [State.faults_reconditionAll, hu]) j y
  split
  · split
    · exact State.fault_declare_other w hx hy h
    · rfl
  split
  · exact hrecords _ (by split <;> rfl)
  · refine hrecords _ ?_
    split
    · rw [State.copperReturns]
      split
      · rw [State.pendRevert_eq]
      · rfl
    · rfl

/-! ### The commands -/

theorem readActions_code {n : Nat} {acts : Actions} (h : readActions n = some acts) : acts.code = n := by
  unfold readActions at h
  split at h
  case isFalse => cases h
  case isTrue hn =>
    cases h
    have hall : ∀ m : Fin 16, (⟨m.val % 2 = 1, m.val / 2 % 2 = 1, m.val / 4 % 2 = 1, m.val / 8 % 2 = 1⟩ : Actions).code
        = m.val := by decide
    exact hall ⟨n, hn⟩

/-- A policy's answer: each record as it stands, its actions as they were sent. -/
theorem FaultRecord.bytes_eq {r : FaultRecord} {actions : Nat} (h : r.actions.code = actions) :
    r.bytes = [if r.enabled then 1 else 0, BitVec.ofNat 8 actions, if r.live then 1 else 0,
      if r.latched then 1 else 0] := by
  rw [FaultRecord.bytes, h, flag_eq, flag_eq, flag_eq]
  rfl

theorem State.foldl_acknowledge_same (k : FaultKind) (xs : List Nat) (s : State) :
    let t := xs.foldl (fun v x => v.acknowledge k x) s
    t = { s with faults := { s.faults with records := t.faults.records } } := by
  induction xs generalizing s with
  | nil => rfl
  | cons x rest ih =>
    intro t
    have h1 : s.acknowledge k x = { s with faults := { s.faults with records := (s.acknowledge k x).faults.records } } := by
      unfold State.acknowledge
      split <;> rfl
    rw [show t = _ from ih (s.acknowledge k x), h1]

/-- Settles O49: each record by `State.setPolicy_eq` and `State.acknowledge`, all of them by `foldl_named`. -/
theorem faultRecordsAreSetAndCleared : Obligations.FaultRecordsAreSetAndCleared := by
  intro code scope k s hlaw hk hscope targets named
  have htargets : targets = scopeTargets k scope := rfl
  have hread := readScope_targets hscope
  refine ⟨fun enabled actions on acts heard hon hacts => ?_, fun l heard => ?_⟩
  · intro conditioned reverts write t
    have hcond (x : Nat) (v : State) : conditioned x v = v.reconditionAll (k.conditions x) := by cases k <;> rfl
    have hreverts (v : State) : reverts v = v.copperReturns := by
      unfold State.copperReturns
      have hfind : [FaultKind.fibreLos, .fibreErr, .peerSilent, .mapMismatch, .siteClash].find? (fun j =>
          (v.fault j 0).enabled && (v.fault j 0).live && (v.fault j 0).actions.revert) = v.liveRevert := rfl
      show (match [FaultKind.fibreLos, .fibreErr, .peerSilent, .mapMismatch, .siteClash].find? (fun j =>
          (v.fault j 0).enabled && (v.fault j 0).live && (v.fault j 0).actions.revert) with
        | some j => { v with faults := { v.faults with revertPending := some (v.faults.revertPending.getD j) } }
        | none => v) = _
      rw [hfind]
      cases v.liveRevert with
      | none => rfl
      | some j => exact (State.pendRevert_eq v j).symm
    have hwrite (v : State) (x : Nat) (hx : x < 16) : write v x = v.setPolicy k on acts x := by
      rw [State.setPolicy_eq v k on acts hx, ← hcond, ← hcond, ← hreverts]
    have ht : t = (scopeTargets k scope).foldl (fun v x => v.setPolicy k on acts x) s :=
      List.foldl_ext _ _ _ (fun v x hx => hwrite v x ((scopeTargets_facts hscope).2.1 x hx))
    have hbody : s.bodySetFaultPolicy code scope enabled actions = if acts.within k.permitted then
        t.done .ok ((scopeTargets k scope).flatMap (fun x => (t.fault k x).bytes)) else s.refuse .badParam := by
      rw [ht]
      simp only [State.bodySetFaultPolicy, hk, hon, hacts, hread]
    have htracked (x : Nat) (hx : x < 16) : (s.fault k x).tracked := ⟨(hlaw k x hx).1, (hlaw k x hx).2.1⟩
    obtain ⟨h1, h2⟩ := foldl_named (f := FaultRecord.underPolicy on acts) (P := FaultRecord.tracked)
      (op := fun v x => v.setPolicy k on acts x) (fun v x hx hr => State.fault_setPolicy v k on acts hx hr)
      (fun v x j y hx hy hjy => State.fault_setPolicy_other v on acts hx hy hjy) hscope htracked
    rw [← ht] at h1 h2
    refine ⟨fun hw => exec_refuses heard rfl rfl (hbody.trans (if_neg (by rw [hw]; decide))), fun hw => ⟨?_, h1, h2⟩⟩
    refine exec_answers heard rfl rfl (hbody.trans ((if_pos hw).trans ?_))
    refine congrArg (t.done .ok) (List.flatMap_congr fun x hx => FaultRecord.bytes_eq ?_)
    obtain ⟨f1, f2, f3, f4⟩ := scopeTargets_facts hscope
    have hx16 := f2 x hx
    have hn : named x := ⟨hx16, by
      by_cases hp : k.isPort = true
      · exact .inl hp
      · exact .inr ((f4 (by simpa using hp) x hx16).1 hx)⟩
    rw [h1 x hn]
    exact readActions_code hacts
  · intro t
    have ht : t = (scopeTargets k scope).foldl (fun v x => v.acknowledge k x) s := rfl
    have hbody : s.bodyClearFault code scope = t.done
        (if targets.any (fun x => (s.fault k x).live) then .stillPresent else .ok)
        [BitVec.ofNat 8 (targets.filter (fun x => !(s.fault k x).live && (s.fault k x).latched)).length] := by
      simp only [State.bodyClearFault, hk, hread]
      rfl
    have hown (v : State) (x : Nat) (hx : x < 16) (_ : True) : (v.acknowledge k x).fault k x
        = { v.fault k x with latched := (v.fault k x).live && (v.fault k x).latched } := by
      unfold State.acknowledge
      cases hl : (v.fault k x).live
      · rw [if_neg (by decide), State.fault_setFault_same _ _ _ hx, Bool.false_and]
      · rw [if_pos rfl, Bool.true_and]
    obtain ⟨h1, h2⟩ := foldl_named (P := fun _ => True)
      (f := fun r => { r with latched := r.live && r.latched }) (op := fun v x => v.acknowledge k x) hown
      (fun v x j y hx hy hjy => by
        unfold State.acknowledge
        split
        · rfl
        · exact State.fault_setFault_other v _ hx hy hjy) hscope (s := s) (fun _ _ => trivial)
    rw [← ht] at h1 h2
    exact ⟨exec_answers heard (by cases l <;> rfl) (by cases l <;> rfl) hbody, h1, h2,
      State.foldl_acknowledge_same k (scopeTargets k scope) s⟩

end Sys2Proof.Machine
end

section
/-! Reversion, lockout and the slow tick (R157 to R163). -/

namespace Sys2Proof.Machine

/-! ### One circuit, and the circuits a revert takes (R157) -/

/-- A reverted circuit's record. -/
def Circuit.reverted (c : Circuit) (st : MigState) : Circuit :=
  { (c.dropOn .fibre).enter st with residual := 0, cellsHeld := 0, conditioned := false }

theorem State.lockedState_reverted (s : State) (n : Nat) :
    s.lockedState n .reverted = if (s.group (s.circuit n).group).lockedOut then .locked else .reverted := by
  rw [State.lockedState_eq]
  cases (s.group (s.circuit n).group).lockedOut <;> rfl

/-- A circuit in REVERTED or LOCKED whose copper is not lost is not conditioned. -/
theorem State.wantsConditioning_on_copper {s : State} {n : Nat}
    (hst : (s.circuit n).state = .reverted ∨ (s.circuit n).state = .locked)
    (hlive : s.isLive .copperLos (spanOf n) = false) : s.wantsConditioning n = false := by
  have hdown : s.copperDown (spanOf n) = false := by
    rw [State.isLive] at hlive
    simp only [State.copperDown, State.liveWith, hlive, Bool.false_and]
  have hpath : s.pathless n = false := by
    obtain h | h := hst
    · simp only [State.pathless, h, hdown]
    · simp only [State.pathless, h, hdown]
  simp [State.wantsConditioning, hpath]

theorem State.revertCircuit_facts {s : State} (k : FaultKind) {n : Nat} (hn : n < 480)
    (hlive : s.isLive .copperLos (spanOf n) = false) :
    let c := s.circuit n
    let t := s.revertCircuit k n
    t = { s with circuits := t.circuits, pool := { s.pool with free := s.pool.free + c.cellsHeld }, linkA := t.linkA
                 linkB := t.linkB }
    ∧ (∀ m, t.circuit m = if m = n then c.reverted (s.lockedState n .reverted) else s.circuit m)
    ∧ (∀ l, t.link l = (s.link l).offer s.stamp {
        cls := .reverted, subject := some (.circuit n), cause := some (.faultOf k)
        value := some (BitVec.ofNat 16 c.cellsHeld) }) := by
  intro c t
  have hst : s.lockedState n .reverted = .reverted ∨ s.lockedState n .reverted = .locked := by
    rw [State.lockedState_reverted]
    split
    · exact .inr rfl
    · exact .inl rfl
  obtain ⟨v, hv⟩ : ∃ v, v = ((s.modCircuit n (fun c => { (c.dropOn .fibre).enter (s.lockedState n .reverted) with
      residual := 0, cellsHeld := 0 })).returnCells c.cellsHeld).raise {
        cls := .reverted, subject := some (.circuit n), cause := some (.faultOf k), value := valueOf c.cellsHeld } := ⟨_, rfl⟩
  have hvc (m : Nat) : v.circuit m = if m = n then { (c.dropOn .fibre).enter (s.lockedState n .reverted) with
      residual := 0, cellsHeld := 0 } else s.circuit m := by
    have h1 : v.circuits = (s.modCircuit n (fun c => { (c.dropOn .fibre).enter (s.lockedState n .reverted) with
      residual := 0, cellsHeld := 0 })).circuits := by rw [hv]; rfl
    rw [State.circuit_congr h1, State.circuit_modCircuit_lt _ _ hn]
  have hwant : v.wantsConditioning n = false := by
    refine State.wantsConditioning_on_copper ?_ ?_
    · rw [hvc, if_pos rfl]; exact hst
    · have hf : v.faults = s.faults := by rw [hv]; rfl
      rw [State.isLive, State.fault_congr (s := s) (by rw [hf])]; exact hlive
  have ht : t = v.modCircuit n (fun c => { c with conditioned := false }) := by
    rw [← State.recondition_unwanted hwant, hv]; rfl
  have hvl (l : Link) : v.link l = (s.link l).offer s.stamp {
      cls := .reverted, subject := some (.circuit n), cause := some (.faultOf k)
      value := some (BitVec.ofNat 16 c.cellsHeld) } := by
    rw [hv, State.link_raise]; cases l <;> rfl
  have hvs : v = { s with circuits := v.circuits, pool := { s.pool with free := s.pool.free + c.cellsHeld }
                          linkA := v.linkA, linkB := v.linkB } := by rw [hv]; rfl
  refine ⟨?_, fun m => ?_, fun l => ?_⟩
  · rw [ht]
    show { v with circuits := _ } = _
    rw [hvs]
    rfl
  · rw [ht, State.circuit_modCircuit_lt _ _ hn, hvc, hvc, if_pos rfl]
    by_cases hm : m = n
    · rw [if_pos hm, if_pos hm]; rfl
    · rw [if_neg hm, if_neg hm, if_neg hm]
  · rw [ht, ← hvl]
    cases l <;> rfl

theorem State.foldl_revertCircuit (k : FaultKind) {ns : List Nat} {s : State} (hnodup : ns.Nodup)
    (h : ∀ n, n ∈ ns → n < 480 ∧ s.isLive .copperLos (spanOf n) = false) :
    let t := ns.foldl (fun t n => t.revertCircuit k n) s
    t = { s with
      circuits := t.circuits
      pool := { s.pool with free := s.pool.free + sumOf (ns.map (fun n => (s.circuit n).cellsHeld)) }
      linkA := t.linkA, linkB := t.linkB }
    ∧ (∀ m, t.circuit m = if m ∈ ns then (s.circuit m).reverted (s.lockedState m .reverted) else s.circuit m)
    ∧ (∀ l, t.link l = ns.foldl (fun j n => j.offer s.stamp {
        cls := .reverted, subject := some (.circuit n), cause := some (.faultOf k)
        value := some (BitVec.ofNat 16 (s.circuit n).cellsHeld) }) (s.link l)) := by
  induction ns generalizing s with
  | nil => exact ⟨rfl, fun _ => rfl, fun _ => rfl⟩
  | cons n rest ih =>
    obtain ⟨hn, hrest⟩ := List.nodup_cons.1 hnodup
    obtain ⟨hlt, hlive⟩ := h n List.mem_cons_self
    obtain ⟨v1, v2, v3⟩ := State.revertCircuit_facts k hlt hlive
    generalize hv : s.revertCircuit k n = v at v1 v2 v3
    have hfaults : v.faults = s.faults := by rw [v1]
    have hgroups : v.groups = s.groups := by rw [v1]
    have hstamp : v.stamp = s.stamp := by rw [v1]
    have hpool : v.pool = { s.pool with free := s.pool.free + (s.circuit n).cellsHeld } := by rw [v1]
    have hother (m : Nat) (hm : m ∈ rest) : v.circuit m = s.circuit m := by
      rw [v2, if_neg (fun he => hn (by rw [← he]; exact hm))]
    obtain ⟨i1, i2, i3⟩ := ih (s := v) hrest (fun m hm => by
      obtain ⟨h1, h2⟩ := h m (List.mem_cons_of_mem n hm)
      exact ⟨h1, by rw [State.isLive, State.fault_congr (s := s) (by rw [hfaults])]; exact h2⟩)
    have hcells : rest.map (fun m => (v.circuit m).cellsHeld) = rest.map (fun m => (s.circuit m).cellsHeld) :=
      List.map_congr_left (fun m hm => by rw [hother m hm])
    rw [List.foldl_cons, hv]
    refine ⟨?_, fun m => ?_, fun l => ?_⟩
    · rw [i1, hcells, hpool]
      show _ = { s with
        circuits := _, linkA := _, linkB := _
        pool := { s.pool with free := s.pool.free + ((s.circuit n).cellsHeld
          + sumOf (rest.map (fun n => (s.circuit n).cellsHeld))) } }
      rw [← Nat.add_assoc]
      rw [v1]
    · rw [i2]
      by_cases hm : m ∈ rest
      · rw [if_pos hm, if_pos (List.mem_cons_of_mem n hm), hother m hm, State.lockedState_eq, State.lockedState_eq,
          hother m hm, State.group_congr hgroups]
      · rw [if_neg hm, v2]
        by_cases he : m = n
        · rw [if_pos he, if_pos (he ▸ List.mem_cons_self), he]
        · rw [if_neg he, if_neg (fun hc => (List.mem_cons.1 hc).elim he hm)]
    · rw [i3, hstamp, v3, List.foldl_cons]
      exact List.foldl_ext _ _ _ (fun j m hm => by rw [hother m hm])

/-! ### One group, and the groups counted (R159, R160) -/

/-- A counted group, locked out where its count stands at its limit. -/
def Group.counted (g : Group) : Group :=
  if g.countRevert.locksOut then { g.countRevert with lockedOut := true } else g.countRevert

theorem State.group_modGroup_lt (s : State) (f : Group → Group) {g : Nat} (hg : g < 16) (h : Nat) :
    (s.modGroup g f).group h = if h = g then f (s.group g) else s.group h := by
  rw [State.group_modGroup]
  by_cases he : h = g
  · rw [if_pos ⟨he, hg⟩, if_pos he]
  · rw [if_neg (fun hc => he hc.1), if_neg he]

/-- A circuit's record after its group's count: LOCKED where it was REVERTED and the group is locked out by the count. -/
def Circuit.counted (c : Circuit) (g : Group) : Circuit :=
  if c.state = .reverted ∧ g.countRevert.locksOut = true then { c with state := .locked } else c

theorem State.countRevert_facts (s : State) {g : Nat} (hg : g < 16) :
    let t := s.countRevert g
    t = { s with circuits := t.circuits, groups := t.groups, linkA := t.linkA, linkB := t.linkB }
    ∧ (∀ h, t.group h = if h = g then (s.group g).counted else s.group h)
    ∧ (∀ m, m < 480 → t.circuit m = if (s.circuit m).group = g then (s.circuit m).counted (s.group g) else s.circuit m)
    ∧ (∀ l, t.link l = if (s.group g).countRevert.locksOut then (s.link l).offer s.stamp {
        cls := .lockout, subject := some (.group g), cause := none
        value := some (BitVec.ofNat 16 (s.group g).countRevert.revertCount) } else s.link l) := by
  intro t
  obtain ⟨v, hv⟩ : ∃ v, v = s.modGroup g Group.countRevert := ⟨_, rfl⟩
  have hvg (h : Nat) : v.group h = if h = g then (s.group g).countRevert else s.group h := by
    rw [hv]; exact State.group_modGroup_lt s _ hg h
  have hown : v.group g = (s.group g).countRevert := by rw [hvg, if_pos rfl]
  have hvc (m : Nat) : v.circuit m = s.circuit m := by rw [hv]; rfl
  have hvl (l : Link) : v.link l = s.link l := by rw [hv]; cases l <;> rfl
  by_cases hl : (s.group g).countRevert.locksOut = true
  · have ht : t = ((v.modGroup g (fun g => { g with lockedOut := true })).restate g .reverted .locked).raise {
        cls := .lockout, subject := some (.group g), cause := none
        value := some (BitVec.ofNat 16 (s.group g).countRevert.revertCount) } := by
      rw [← hown, hv]
      exact if_pos (by rw [← hv, hown]; exact hl)
    refine ⟨by rw [ht, hv]; rfl, fun h => ?_, fun m hm => ?_, fun l => ?_⟩
    · have h1 : t.groups = (v.modGroup g (fun g => { g with lockedOut := true })).groups := by rw [ht]; rfl
      rw [State.group_congr h1, State.group_modGroup_lt _ _ hg, hown, hvg]
      by_cases he : h = g
      · rw [if_pos he, if_pos he, Group.counted, if_pos hl]
      · rw [if_neg he, if_neg he, if_neg he]
    · have h1 : t.circuits = ((v.modGroup g (fun g => { g with lockedOut := true })).restate g .reverted .locked).circuits := by
        rw [ht]; rfl
      rw [State.circuit_congr h1]
      refine (State.circuit_restate (c := s.circuit m) (hvc m) _ _ _ hm).trans ?_
      by_cases he : (s.circuit m).group = g
      · rw [if_pos he, Circuit.counted]
        by_cases hr : (s.circuit m).state = .reverted
        · rw [if_pos ⟨he, hr⟩, if_pos ⟨hr, hl⟩]
        · rw [if_neg (fun h => hr h.2), if_neg (fun h => hr h.1)]
      · rw [if_neg (fun h => he h.1), if_neg he]
    · rw [ht, State.link_raise, if_pos hl, ← hvl]
      rw [hv]
      cases l <;> rfl
  · have ht : t = v := by
      rw [hv]
      exact if_neg (by rw [← hv, hown]; exact hl)
    refine ⟨by rw [ht, hv]; rfl, fun h => ?_, fun m hm => ?_, fun l => ?_⟩
    · rw [ht, hvg, Group.counted, if_neg hl]
    · have hsame : (s.circuit m).counted (s.group g) = s.circuit m := if_neg (fun h => hl h.2)
      rw [ht, hvc, hsame, ite_self]
    · rw [ht, hvl, if_neg hl]

theorem State.foldl_countRevert {gs : List Nat} {s : State} (hnodup : gs.Nodup) (hlt : ∀ g, g ∈ gs → g < 16) :
    let t := gs.foldl State.countRevert s
    t = { s with circuits := t.circuits, groups := t.groups, linkA := t.linkA, linkB := t.linkB }
    ∧ (∀ h, t.group h = if h ∈ gs then (s.group h).counted else s.group h)
    ∧ (∀ m, m < 480 → t.circuit m = if (s.circuit m).group ∈ gs then (s.circuit m).counted (s.group (s.circuit m).group)
        else s.circuit m)
    ∧ (∀ l, t.link l = (gs.filter (fun g => (s.group g).countRevert.locksOut)).foldl (fun j g => j.offer s.stamp {
        cls := .lockout, subject := some (.group g), cause := none
        value := some (BitVec.ofNat 16 (s.group g).countRevert.revertCount) }) (s.link l)) := by
  induction gs generalizing s with
  | nil => exact ⟨rfl, fun _ => rfl, fun _ _ => rfl, fun _ => rfl⟩
  | cons g rest ih =>
    obtain ⟨hg, hrest⟩ := List.nodup_cons.1 hnodup
    obtain ⟨v1, v2, v3, v4⟩ := s.countRevert_facts (hlt g List.mem_cons_self)
    obtain ⟨i1, i2, i3, i4⟩ := ih (s := s.countRevert g) hrest (fun h hh => hlt h (List.mem_cons_of_mem g hh))
    rw [List.foldl_cons]
    generalize s.countRevert g = v at v1 v2 v3 v4 i1 i2 i3 i4
    have hstamp : v.stamp = s.stamp := by rw [v1]
    have hother (h : Nat) (hh : h ∈ rest) : v.group h = s.group h := by rw [v2, if_neg (fun he => hg (by rw [← he]; exact hh))]
    have hgroup (m : Nat) (hm : m < 480) : (v.circuit m).group = (s.circuit m).group := by
      rw [v3 m hm]
      split
      · unfold Circuit.counted
        split <;> rfl
      · rfl
    refine ⟨by rw [i1, v1], fun h => ?_, fun m hm => ?_, fun l => ?_⟩
    · rw [i2]
      by_cases hh : h ∈ rest
      · rw [if_pos hh, if_pos (List.mem_cons_of_mem g hh), hother h hh]
      · rw [if_neg hh, v2]
        by_cases he : h = g
        · rw [if_pos he, if_pos (he ▸ List.mem_cons_self), he]
        · rw [if_neg he, if_neg (fun hc => (List.mem_cons.1 hc).elim he hh)]
    · rw [i3 m hm, hgroup m hm, v3 m hm]
      by_cases hh : (s.circuit m).group ∈ rest
      · have hne : (s.circuit m).group ≠ g := fun he => hg (he ▸ hh)
        rw [if_pos hh, if_pos (List.mem_cons_of_mem g hh), if_neg hne, hother _ hh]
      · rw [if_neg hh]
        by_cases he : (s.circuit m).group = g
        · rw [if_pos he, if_pos (he ▸ List.mem_cons_self), he]
        · rw [if_neg he, if_neg (fun hc => (List.mem_cons.1 hc).elim he hh)]
    · have hfilter : rest.filter (fun g => (v.group g).countRevert.locksOut)
          = rest.filter (fun g => (s.group g).countRevert.locksOut) :=
        List.filter_congr (fun h hh => by rw [hother h hh])
      rw [i4, hfilter, hstamp, v4]
      have hrestlinks (j : LinkRec) : (rest.filter (fun g => (s.group g).countRevert.locksOut)).foldl
          (fun j g => j.offer s.stamp { cls := .lockout, subject := some (.group g), cause := none
                                        value := some (BitVec.ofNat 16 (v.group g).countRevert.revertCount) }) j
          = (rest.filter (fun g => (s.group g).countRevert.locksOut)).foldl
          (fun j g => j.offer s.stamp { cls := .lockout, subject := some (.group g), cause := none
                                        value := some (BitVec.ofNat 16 (s.group g).countRevert.revertCount) }) j :=
        List.foldl_ext _ _ _ (fun j h hh => by rw [hother h (List.mem_of_mem_filter hh)])
      rw [hrestlinks]
      by_cases hl : (s.group g).countRevert.locksOut = true
      · rw [if_pos hl, List.filter_cons, if_pos hl, List.foldl_cons]
      · rw [if_neg hl, List.filter_cons, if_neg hl]

end Sys2Proof.Machine
end

section
/-! The pending revert (R157 to R160). -/

namespace Sys2Proof.Machine

/-! ### What a count makes of a group and of its circuits -/

theorem Group.locksOut_iff (g : Group) : g.countRevert.locksOut = true ↔
    g.lockedOut = false ∧ g.lockoutLimit ≠ 0
      ∧ g.lockoutLimit ≤ (if g.revertCount < 15 then g.revertCount + 1 else g.revertCount) := by
  unfold Group.countRevert
  split <;> simp [Group.locksOut, and_assoc]

theorem Group.counted_fields (g : Group) :
    g.counted.revertCount = (if g.revertCount < 15 then g.revertCount + 1 else g.revertCount)
    ∧ g.counted.windowTimer = (if g.revertCount < 15 ∧ g.windowTimer = none then some g.lockoutWindow
        else g.windowTimer)
    ∧ g.counted.lockedOut = (g.lockedOut || g.countRevert.locksOut)
    ∧ g.countRevert.revertCount = g.counted.revertCount := by
  have hcount : g.countRevert.revertCount = (if g.revertCount < 15 then g.revertCount + 1 else g.revertCount) := by
    unfold Group.countRevert
    split <;> rfl
  have htimer : g.countRevert.windowTimer = (if g.revertCount < 15 ∧ g.windowTimer = none then some g.lockoutWindow
      else g.windowTimer) := by
    unfold Group.countRevert
    by_cases h : g.revertCount < 15
    · rw [if_pos h]
      cases hw : g.windowTimer <;> simp [h]
    · rw [if_neg h, if_neg (fun hc => h hc.1)]
  have hlocked : g.countRevert.lockedOut = g.lockedOut := by
    unfold Group.countRevert
    split <;> rfl
  unfold Group.counted
  by_cases hl : g.countRevert.locksOut = true
  · rw [if_pos hl]
    exact ⟨hcount, htimer, by rw [hl, Bool.or_true], rfl⟩
  · rw [if_neg hl]
    exact ⟨hcount, htimer, by rw [hlocked, Bool.eq_false_iff.2 hl, Bool.or_false], rfl⟩

/-- A reverted circuit of a counted group stands as the group does after the count. -/
theorem Circuit.counted_reverted (c : Circuit) (g : Group) :
    (c.reverted (if g.lockedOut then .locked else .reverted)).counted g
      = c.reverted (if g.counted.lockedOut then .locked else .reverted) := by
  obtain ⟨-, -, hout, -⟩ := g.counted_fields
  rw [hout, Circuit.counted]
  cases hl : g.lockedOut
  · cases hc : g.countRevert.locksOut
    · rw [if_neg (fun h => absurd h.2 (by decide))]; rfl
    · rw [if_pos ⟨rfl, rfl⟩]; rfl
  · rw [if_neg (fun h => absurd (show MigState.locked = .reverted from h.1) (by decide))]; rfl

theorem Circuit.counted_other (c : Circuit) (g : Group) : c.counted g = { c with
    state := if c.state = .reverted ∧ g.counted.lockedOut = true ∧ g.lockedOut = false then .locked else c.state } := by
  obtain ⟨-, -, hout, -⟩ := g.counted_fields
  have hiff : g.countRevert.locksOut = true ↔ g.counted.lockedOut = true ∧ g.lockedOut = false := by
    rw [hout, Bool.or_eq_true]
    constructor
    · intro h
      exact ⟨.inr h, (g.locksOut_iff.1 h).1⟩
    · rintro ⟨h | h, hf⟩
      · rw [hf] at h; cases h
      · exact h
  simp only [Circuit.counted, hiff]
  split <;> rfl

/-! ### The revert -/

/-- The groups that a revert of these circuits counts. -/
def State.countedGroups (s : State) (ns : List Nat) : List Nat :=
  allGroups.filter (fun g => ns.any (fun n => (s.circuit n).group == g))

theorem State.mem_countedGroups {s : State} {ns : List Nat} {g : Nat} :
    g ∈ s.countedGroups ns ↔ g < 16 ∧ ∃ n, n ∈ ns ∧ (s.circuit n).group = g := by
  simp [State.countedGroups, allGroups]

theorem State.makeRevert_eq {s : State} {k : FaultKind} (h : s.faults.revertPending = some k) :
    let ns := (List.range 480).filter s.reverts
    let t := (s.countedGroups ns).foldl State.countRevert (ns.foldl (fun t n => t.revertCircuit k n) s)
    s.makeRevert = { t with faults := { t.faults with revertPending := none } } := by
  simp only [State.makeRevert, h]
  rfl

/-- Settles O50: the circuits by `State.foldl_revertCircuit`, then the groups by `State.foldl_countRevert`. -/
theorem revertsReturnCircuitsToCopper : Obligations.RevertsReturnCircuitsToCopper := by
  intro k s hs ho hk taken
  obtain ⟨ns, hns⟩ : ∃ ns, ns = (List.range 480).filter taken := ⟨_, rfl⟩
  have hmem (n : Nat) : n ∈ ns ↔ n < 480 ∧ taken n = true := by rw [hns, List.mem_filter, List.mem_range]
  obtain ⟨u, hu⟩ : ∃ u, u = s.forget .revert := ⟨_, rfl⟩
  have hus : u = { s with owed := u.owed } := by rw [hu]; rfl
  have ucirc (n : Nat) : u.circuit n = s.circuit n := by rw [hus]; rfl
  have ugroup (g : Nat) : u.group g = s.group g := by rw [hus]; rfl
  have hgs (g : Nat) : g ∈ u.countedGroups ns ↔ g < 16 ∧ ∃ n, n < 480 ∧ taken n = true ∧ (s.circuit n).group = g := by
    rw [State.mem_countedGroups]
    refine and_congr_right fun _ => exists_congr fun n => ?_
    rw [hmem, ucirc, and_assoc]
  obtain ⟨a1, a2, a3⟩ := State.foldl_revertCircuit k (s := u) (ns := ns) (by rw [hns]; exact List.nodup_range.filter _)
    (fun n hn => by
      obtain ⟨hlt, ht⟩ := (hmem n).1 hn
      refine ⟨hlt, ?_⟩
      have hlive := (Bool.and_eq_true_iff.1 ht).2
      rw [hus]
      exact (Bool.not_eq_true' _).mp hlive)
  obtain ⟨b1, b2, b3, b4⟩ := State.foldl_countRevert (gs := u.countedGroups ns)
    (s := ns.foldl (fun t n => t.revertCircuit k n) u) (List.nodup_range.filter _)
    (fun g hg => (State.mem_countedGroups.1 hg).1)
  have hrun : exec .revert s = .next u.makeRevert := by
    rw [hu]; exact congrArg Host.Outcome.next (State.owedEvent_rests hs ho _)
  rw [State.makeRevert_eq (k := k) (by rw [hus]; exact hk),
    show (List.range 480).filter u.reverts = ns by rw [hus, hns]; rfl] at hrun
  obtain ⟨gs, hgseq⟩ : ∃ gs, gs = u.countedGroups ns := ⟨_, rfl⟩
  have hgslist : gs = (List.range 16).filter (fun g => ns.any (fun n => (u.circuit n).group == g)) := hgseq
  rw [← hgseq] at hgs b1 b2 b3 b4 hrun
  generalize ns.foldl (fun t n => t.revertCircuit k n) u = a at a1 a2 a3 b1 b2 b3 b4 hrun
  generalize gs.foldl State.countRevert a = b at b1 b2 b3 b4 hrun
  have agroup (g : Nat) : a.group g = s.group g := by rw [a1, hus]; rfl
  have astamp : a.stamp = s.stamp := by rw [a1, hus]
  have bgroup (g : Nat) : b.group g = if g ∈ gs then (s.group g).counted else s.group g := by rw [b2, agroup]
  have acirc (n : Nat) : a.circuit n = if n ∈ ns then
      (s.circuit n).reverted (if (s.group (s.circuit n).group).lockedOut then .locked else .reverted)
      else s.circuit n := by rw [a2, ucirc, State.lockedState_reverted, ucirc, ugroup]
  have aown (n : Nat) : (a.circuit n).group = (s.circuit n).group := by
    rw [acirc]
    split <;> rfl
  have bcirc (n : Nat) (hn : n < 480) : b.circuit n = if (s.circuit n).group ∈ gs then
      (a.circuit n).counted (s.group (s.circuit n).group) else a.circuit n := by rw [b3 n hn, aown, agroup]
  obtain ⟨t, htb⟩ : ∃ t : State, t = { b with faults := { b.faults with revertPending := none } } := ⟨_, rfl⟩
  have tcirc (n : Nat) : t.circuit n = b.circuit n := by rw [htb]; rfl
  have tgroup (g : Nat) : t.group g = b.group g := by rw [htb]; rfl
  have tlink (l : Link) : t.link l = b.link l := by rw [htb]; cases l <;> rfl
  refine ⟨t, by rw [hrun, htb], ?_, fun n hn => ⟨fun ht => ?_, fun ht => ?_⟩, fun g hg => ?_, ?_, ?_, ?_, fun l => ?_⟩
  · rw [htb, b1, a1, hus]
  · rw [tgroup, tcirc]
    have hnew : b.circuit n = (s.circuit n).reverted
        (if (b.group (s.circuit n).group).lockedOut then .locked else .reverted) := by
      rw [bcirc n hn, acirc, if_pos ((hmem n).2 ⟨hn, ht⟩), bgroup]
      by_cases hg : (s.circuit n).group ∈ gs
      · rw [if_pos hg, if_pos hg, Circuit.counted_reverted]
      · rw [if_neg hg, if_neg hg]
    rw [hnew]
    cases (b.group (s.circuit n).group).lockedOut <;> exact ⟨rfl, rfl, rfl, rfl, rfl, rfl, rfl⟩
  · rw [tgroup, tcirc]
    have hnot : n ∉ ns := fun h => absurd (((hmem n).1 h).2.symm.trans ht) (by decide)
    rw [bcirc n hn, acirc, if_neg hnot, bgroup]
    by_cases hg : (s.circuit n).group ∈ gs
    · rw [if_pos hg, if_pos hg, Circuit.counted_other]
    · rw [if_neg hg, if_neg hg, if_neg (fun h => absurd (h.2.1.symm.trans h.2.2) (by decide))]
  · intro old new count
    have hnew : new = if g ∈ gs then old.counted else old := (tgroup g).trans (bgroup g)
    refine ⟨fun h => ?_, fun h => ?_⟩
    · obtain ⟨h1, h2, h3, -⟩ := old.counted_fields
      rw [hnew, if_pos ((hgs g).2 ⟨hg, h⟩)]
      refine ⟨h1, h2, h3.trans ?_⟩
      have hl := old.locksOut_iff
      cases hlo : old.lockedOut
      · rw [Bool.false_or, Bool.false_or]
        refine Bool.eq_iff_iff.2 ?_
        rw [hl, hlo, decide_eq_true_iff]
        exact ⟨fun h => h.2, fun h => ⟨rfl, h⟩⟩
      · rfl
    · refine hnew.trans (if_neg fun hm => ?_)
      obtain ⟨n, hn, ht, he⟩ := ((hgs g).1 hm).2
      exact h n hn ht he
  · rw [show t.pool = b.pool by rw [htb], show b.pool = a.pool by rw [b1], a1, ← hns, hus]
    rfl
  · rw [show t.queue = b.queue by rw [htb], b1, a1, hus]
  · rw [show t.contexts = b.contexts by rw [htb], b1, a1, hus]
  · have hlist : (List.range 16).filter (fun g => (b.group g).lockedOut && !(s.group g).lockedOut)
        = gs.filter (fun g => (a.group g).countRevert.locksOut) := by
      rw [hgslist, List.filter_filter]
      refine List.filter_congr fun g hg => ?_
      have hin : (ns.any (fun n => (u.circuit n).group == g)) = true ↔ g ∈ gs := by
        rw [hgslist, List.mem_filter]
        exact ⟨fun h => ⟨hg, h⟩, fun h => h.2⟩
      obtain ⟨-, -, hout, -⟩ := (s.group g).counted_fields
      have hlocks := (s.group g).locksOut_iff
      rw [bgroup, agroup]
      by_cases hm : g ∈ gs
      · rw [if_pos hm, hin.2 hm, Bool.and_true, hout]
        cases hlo : (s.group g).lockedOut
        · rw [Bool.false_or, Bool.not_false, Bool.and_true]
        · refine (Bool.eq_false_iff.2 fun h => ?_).symm
          exact absurd (hlo.symm.trans (hlocks.1 h).1) (by decide)
      · rw [if_neg hm, Bool.and_not_self, Bool.eq_false_iff.2 (mt hin.1 hm), Bool.and_false]
    have hulink : u.link l = s.link l := by rw [hus]; cases l <;> rfl
    have hustamp : u.stamp = s.stamp := by rw [hus]
    have hcells : ns.foldl (fun j n => j.offer u.stamp {
          cls := .reverted, subject := some (.circuit n), cause := some (.faultOf k)
          value := some (BitVec.ofNat 16 (u.circuit n).cellsHeld) }) (u.link l)
        = ns.foldl (fun j n => j.offer s.stamp {
          cls := .reverted, subject := some (.circuit n), cause := some (.faultOf k)
          value := some (BitVec.ofNat 16 (s.circuit n).cellsHeld) }) (s.link l) := by
      rw [hulink, hustamp]
      exact List.foldl_ext _ _ _ (fun j n _ => by rw [ucirc])
    simp only [tgroup]
    rw [tlink, b4, a3, hcells, ← hlist, ← hns, astamp]
    refine List.foldl_ext _ _ _ (fun j g hg => ?_)
    rw [hlist] at hg
    obtain ⟨-, -, -, hcount⟩ := (s.group g).counted_fields
    rw [agroup, hcount, bgroup, if_pos (List.mem_of_mem_filter hg)]

end Sys2Proof.Machine
end

section
/-! The slow tick and the windows (R159, R162, R163). -/

namespace Sys2Proof.Machine

/-- The entry of a circuit that auto-return queues (R163). -/
def autoEntry (stamp n : Nat) : Entry :=
  { circuit := n, direction := .toFibre, origin := .auto, idleOnly := false, stamp := stamp }

/-- The AUTO_QUEUED notice of an entry at its position. -/
def autoNotice (e : Entry × Nat) : Event :=
  { cls := .autoQueued, subject := some (.circuit e.1.circuit), cause := none, value := some (BitVec.ofNat 16 e.2) }

theorem State.autoQueue_skips {s : State} {n : Nat} (h : 64 ≤ s.queue.length ∨ s.queued n = true) : s.autoQueue n = s := by
  refine if_neg fun hc => ?_
  obtain ⟨h1, h2⟩ := hc
  obtain h | h := h
  · exact absurd h1 (Nat.not_lt.2 h)
  · rw [h] at h2; exact absurd h2 (by decide)

theorem State.autoQueue_joins {s : State} {n : Nat} (hl : s.queue.length < 64) (hq : s.queued n = false) :
    s.autoQueue n = ({ s with queue := s.queue ++ [autoEntry s.stamp n] } : State).raise
      (autoNotice (autoEntry s.stamp n, s.queue.length)) :=
  if_pos ⟨hl, by rw [hq]; rfl⟩

theorem State.queued_append (s t : State) (e : Entry) (h : t.queue = s.queue ++ [e]) {m : Nat} (hm : e.circuit ≠ m) :
    t.queued m = s.queued m := by
  simp [State.queued, h, hm]

/-- The circuits that join the queue, while it has room. -/
theorem State.foldl_autoQueue {ns : List Nat} {s : State} (hnodup : ns.Nodup) :
    let t := ns.foldl State.autoQueue s
    let added := ((ns.filter (fun n => !s.queued n)).take (64 - s.queue.length)).map (autoEntry s.stamp)
    t = { s with queue := s.queue ++ added, linkA := t.linkA, linkB := t.linkB }
    ∧ ∀ l, t.link l = (added.zipIdx s.queue.length).foldl (fun j e => j.offer s.stamp (autoNotice e)) (s.link l) := by
  induction ns generalizing s with
  | nil => exact ⟨by simp, fun l => by simp⟩
  | cons n rest ih =>
    obtain ⟨hn, hrest⟩ := List.nodup_cons.1 hnodup
    intro t added
    by_cases hskip : 64 ≤ s.queue.length ∨ s.queued n = true
    · have hadded : added = ((rest.filter (fun n => !s.queued n)).take (64 - s.queue.length)).map (autoEntry s.stamp) := by
        obtain h | h := hskip
        · simp only [added, Nat.sub_eq_zero_of_le h, List.take_zero]
        · simp only [added, List.filter_cons, h, Bool.not_true, Bool.false_eq_true, if_false]
      have ht : t = rest.foldl State.autoQueue s := by
        show (n :: rest).foldl State.autoQueue s = _
        rw [List.foldl_cons, State.autoQueue_skips hskip]
      rw [hadded, ht]
      exact ih hrest
    · obtain ⟨hlen, hq⟩ := not_or.1 hskip
      rw [Bool.not_eq_true] at hq
      obtain ⟨v, hv⟩ : ∃ v, v = s.autoQueue n := ⟨_, rfl⟩
      have hveq := hv.trans (State.autoQueue_joins (Nat.lt_of_not_le hlen) hq)
      have hvq : v.queue = s.queue ++ [autoEntry s.stamp n] := by rw [hveq]; rfl
      have hvs : v.stamp = s.stamp := by rw [hveq]; rfl
      have hvl (l : Link) : v.link l = (s.link l).offer s.stamp (autoNotice (autoEntry s.stamp n, s.queue.length)) := by
        rw [hveq, State.link_raise]; cases l <;> rfl
      have hvsame : v = { s with queue := s.queue ++ [autoEntry s.stamp n], linkA := v.linkA, linkB := v.linkB } := by
        rw [hveq]; rfl
      have hsame : rest.filter (fun m => !v.queued m) = rest.filter (fun m => !s.queued m) :=
        List.filter_congr fun m hm => by
          rw [State.queued_append s v _ hvq (fun he => hn (by rw [show n = m from he]; exact hm))]
      obtain ⟨i1, i2⟩ := ih (s := v) hrest
      obtain ⟨more, hmore⟩ : ∃ more, more = ((rest.filter (fun m => !s.queued m)).take
          (64 - (s.queue.length + 1))).map (autoEntry s.stamp) := ⟨_, rfl⟩
      have hadded : added = autoEntry s.stamp n :: more := by
        have hk : 64 - s.queue.length = (64 - (s.queue.length + 1)) + 1 := by omega
        simp only [added, List.filter_cons, hq, Bool.not_false, if_true, hk, List.take_succ_cons, List.map_cons, hmore]
      have hlength : v.queue.length = s.queue.length + 1 := by rw [hvq]; simp
      rw [hsame, hlength, hvs, ← hmore] at i1 i2
      have ht : t = rest.foldl State.autoQueue v := by rw [hv]; rfl
      rw [ht, hadded]
      refine ⟨?_, fun l => ?_⟩
      · generalize rest.foldl State.autoQueue v = w at i1
        rw [i1, hvq, List.append_assoc, hvsame]
        rfl
      · rw [i2, hvl, List.zipIdx_cons, List.foldl_cons]

theorem State.liveRevert_isSome (s : State) : s.liveRevert.isSome = true ↔ ∃ k, k.isPort = true
    ∧ (s.fault k 0).enabled = true ∧ (s.fault k 0).live = true ∧ (s.fault k 0).actions.revert = true := by
  rw [State.liveRevert, List.find?_isSome]
  exact exists_congr fun k => and_congr mem_portKinds (s.liveWith_revert k 0)

/-- A group at a slow tick. -/
theorem Group.tickWindow_eq (g : Group) : g.tickWindow = { g with windowTimer := match g.windowTimer with
    | some k => if k ≤ 1 then some k else some (k - 1)
    | none => none } := by
  unfold Group.tickWindow Group.windowEnds
  cases h : g.windowTimer with
  | none => simp
  | some k =>
    by_cases hk : k ≤ 1
    · simp [hk, ← h]
    · simp [hk]

/-- A slow tick in front of auto-return. -/
def State.ticked (s : State) : State :=
  { s with
    groups := Table.mapIdx s.groups (fun _ g => g.tickWindow)
    owed := s.owed ++ (allGroups.filter (fun g => (s.group g).windowEnds)).map BoundaryEvent.windowExpiry
    faults := { s.faults with health := if s.liveRevert.isSome then 0 else min 255 (s.faults.health + 1) } }

theorem State.makeSlowTick_eq (s : State) : s.makeSlowTick = (allCircuits.filter (fun n =>
    (s.ticked.circuit n).state == .reverted && s.ticked.qualifies (s.ticked.circuit n).group)).foldl State.autoQueue
      s.ticked := rfl

theorem State.ticked_same (s : State) : s.ticked = { s with
    groups := s.ticked.groups, owed := s.ticked.owed, faults := s.ticked.faults } := rfl

theorem State.group_ticked (s : State) {g : Nat} (hg : g < 16) : s.ticked.group g = (s.group g).tickWindow :=
  Table.at_mapIdx _ _ _ Group.reset hg

/-- The circuits that a slow tick queues. -/
theorem State.joins_ticked (s : State) (n : Nat) :
    let g := s.group (s.circuit n).group
    ((!s.ticked.queued n) && ((s.ticked.circuit n).state == .reverted && s.ticked.qualifies (s.ticked.circuit n).group))
      = ((s.circuit n).state == .reverted && s.queue.all (fun e => e.circuit != n)
        && g.autoReturn && !g.lockedOut && decide (g.recoveryHold ≤ s.ticked.faults.health)) := by
  intro g
  have hgroup : (s.ticked.group (s.circuit n).group).autoReturn = g.autoReturn
      ∧ (s.ticked.group (s.circuit n).group).lockedOut = g.lockedOut
      ∧ (s.ticked.group (s.circuit n).group).recoveryHold = g.recoveryHold := by
    by_cases hg : (s.circuit n).group < 16
    · rw [State.group_ticked s hg, Group.tickWindow_eq]; exact ⟨rfl, rfl, rfl⟩
    · have hout (t : State) : t.group (s.circuit n).group = Group.reset := Table.at_of_le _ _ (Nat.le_of_not_lt hg)
      rw [hout, show g = Group.reset from hout s]
      exact ⟨rfl, rfl, rfl⟩
  obtain ⟨h1, h2, h3⟩ := hgroup
  have hq : (!s.ticked.queued n) = s.queue.all (fun e => e.circuit != n) := by
    show (!s.queue.any (fun e => e.circuit == n)) = _
    rw [List.not_any_eq_all_not]
    rfl
  show ((!s.ticked.queued n) && ((s.circuit n).state == .reverted
    && s.ticked.qualifies (s.circuit n).group)) = _
  simp only [State.qualifies, h1, h2, h3, hq]
  cases (s.circuit n).state == .reverted <;> cases s.queue.all (fun e => e.circuit != n) <;> rfl

/-- Settles O51: the tick itself by `State.ticked`, then auto-return by `State.foldl_autoQueue`. -/
theorem slowTicksReturnCircuitsToFibre : Obligations.SlowTicksReturnCircuitsToFibre := by
  refine ⟨fun s hs ho => ?_, fun g s hs ho => congrArg Host.Outcome.next (State.owedEvent_rests hs ho _)⟩
  intro faulty joins
  obtain ⟨u, hu⟩ : ∃ u, u = s.forget .slowTick := ⟨_, rfl⟩
  have hus : u = { s with owed := u.owed } := by rw [hu]; rfl
  have hrun : exec .slowTick s = .next u.makeSlowTick := by
    rw [hu]; exact congrArg Host.Outcome.next (State.owedEvent_rests hs ho _)
  have huc : u.circuit = s.circuit := by rw [hus]; rfl
  have hug : u.group = s.group := by rw [hus]; rfl
  have huq : u.queue = s.queue := by rw [hus]
  have huf : u.faults = s.faults := by rw [hus]
  have hust : u.stamp = s.stamp := by rw [hus]
  have hul (l : Link) : u.link l = s.link l := by rw [hus]; cases l <;> rfl
  have hfaulty : u.liveRevert.isSome = true ↔ faulty := by rw [State.liveRevert_isSome, hus]; rfl
  obtain ⟨h1, h2⟩ := State.foldl_autoQueue (s := u.ticked) (ns := allCircuits.filter (fun n =>
    (u.ticked.circuit n).state == .reverted && u.ticked.qualifies (u.ticked.circuit n).group))
    (List.nodup_range.filter _)
  rw [← State.makeSlowTick_eq] at h1 h2
  have hlist : (allCircuits.filter (fun n => (u.ticked.circuit n).state == .reverted
      && u.ticked.qualifies (u.ticked.circuit n).group)).filter (fun n => !u.ticked.queued n)
      = (List.range 480).filter (joins u.ticked.faults.health) := by
    rw [List.filter_filter]
    refine List.filter_congr fun n _ => ?_
    rw [State.joins_ticked, huc, hug, huq]
  rw [hlist, show u.ticked.queue = s.queue from huq, show u.ticked.stamp = s.stamp from hust] at h1 h2
  obtain ⟨t, ht⟩ : ∃ t, t = u.makeSlowTick := ⟨_, rfl⟩
  rw [← ht] at h1 h2 hrun
  have htf : t.faults = u.ticked.faults := by rw [h1]
  have htg : t.groups = u.ticked.groups := by rw [h1]
  have hto : t.owed = u.ticked.owed := by rw [h1]
  refine ⟨t, hrun, fun hf => ?_, fun hf => ?_, ?_, fun g hg => ?_, fun g hg hk => ?_, ?_, fun l => ?_, ?_⟩
  · rw [htf]; exact if_pos (hfaulty.2 hf)
  · rw [htf]; exact (if_neg (mt hfaulty.1 hf)).trans (by rw [huf])
  · rw [htf, ← huf]; rfl
  · rw [State.group_congr htg, State.group_ticked u hg, hug, Group.tickWindow_eq] <;> rfl
  · rw [hto]
    obtain ⟨k, hk, hk1⟩ := hk
    refine List.mem_append_right _ (List.mem_map_of_mem ?_)
    rw [allGroups, List.mem_filter, List.mem_range, hug, Group.windowEnds, hk]
    exact ⟨hg, decide_eq_true hk1⟩
  · rw [htf]
    have := congrArg State.queue h1
    exact this
  · have hqueue := congrArg State.queue h1
    rw [h2, show u.ticked.link l = s.link l from hul l, hqueue, List.zipIdx_append, Nat.zero_add,
      List.drop_left' (List.length_zipIdx)]
    rfl
  · have hw := u.ticked_same
    generalize u.ticked = w at h1 hw
    rw [h1, hw, hus]

end Sys2Proof.Machine
end

section
/-! RESET_MIGRATION (R129, R136). -/

namespace Sys2Proof.Machine

/-- A context after its abort. -/
def Ctx.aborted (x : Ctx) (cause : Cause) (peer : Option Byte) : Ctx :=
  if x.switched then x.abortWith cause peer false
  else { { x with cells := 0 }.abortWith cause peer false with served := none, parked := none, returnPending := false }

/-- What an abort makes of the contexts and the advertisements, whatever its circuit. -/
theorem State.abort_contexts {s : State} {c : Nat} (cause : Cause) (peer : Option Byte) (hc : c < 8)
    (hfree : (s.ctx c).state ≠ .free) (habort : (s.ctx c).state ≠ .aborting) :
    let t := s.abort c cause peer
    t.ctx c = (s.ctx c).aborted cause peer ∧ (∀ k, k ≠ c → t.ctx k = s.ctx k)
    ∧ t.peer = { s.peer with adverts := s.peer.adverts.map (fun a =>
        if a.kind = .context c then { a with step := .abort, argument := cause.byte } else a) } := by
  intro t
  have ht : t = s.abortWith c cause peer false := if_neg (fun h => h.elim hfree habort)
  rw [State.abortWith_eq] at ht
  obtain ⟨w1, w2, w3⟩ := s.abortSettled_same hc
  obtain ⟨-, v2, v3, v4, -⟩ := s.abortMarked_facts cause peer false hc rfl
  rw [w2] at v2
  generalize s.abortMarked c cause peer false = v at v2 v3 v4 ht
  by_cases hsw : (s.ctx c).switched = true
  · rw [if_pos hsw] at ht v2
    rw [ht]
    exact ⟨by rw [v2, Ctx.aborted, if_pos hsw], v3, v4⟩
  · rw [if_neg hsw] at ht v2
    obtain ⟨z1, z2, z3, -⟩ := v.left_same hc
    obtain ⟨rctx, -, rpeer, -, -⟩ := (Rederived.recondition (v.left c) (v.ctx c).circuit).frame
    rw [← State.leaveContext_left, ← ht] at rctx rpeer
    refine ⟨?_, fun k hk => by rw [rctx, z3 k hk, v3 k hk], ?_⟩
    · rw [rctx, z2, v2, Ctx.aborted, if_neg hsw]
    · rw [rpeer, show (v.left c).peer = v.peer by rw [z1], v4]

/-- A migration reset's aborts, one after another. -/
theorem State.foldl_abort {cs : List Nat} {s : State} (hnodup : cs.Nodup)
    (h : ∀ c, c ∈ cs → c < 8 ∧ (s.ctx c).state ≠ .free ∧ (s.ctx c).state ≠ .aborting) :
    let t := cs.foldl (fun t c => t.abort c .reset) s
    (∀ k, t.ctx k = if k ∈ cs then (s.ctx k).aborted .reset none else s.ctx k)
    ∧ t.peer = { s.peer with adverts := t.peer.adverts } ∧ t.peer.adverts.map Advert.slot = s.peer.adverts.map Advert.slot
    ∧ (∀ n, (∀ c, c ∈ cs → (s.ctx c).circuit ≠ n) → t.circuit n = s.circuit n)
    ∧ t = { s with
        circuits := t.circuits, groups := t.groups, contexts := t.contexts, queue := t.queue, pool := t.pool
        peer := t.peer, linkA := t.linkA, linkB := t.linkB, owed := t.owed } := by
  induction cs generalizing s with
  | nil => exact ⟨fun _ => rfl, rfl, rfl, fun _ _ => rfl, rfl⟩
  | cons c rest ih =>
    obtain ⟨hn, hrest⟩ := List.nodup_cons.1 hnodup
    obtain ⟨hlt, hfree, habort⟩ := h c List.mem_cons_self
    obtain ⟨v1, v2, v3⟩ := State.abort_contexts .reset none hlt hfree habort
    have hw := Worked.abort c .reset none s
    have hslots : (s.abort c .reset none).peer.adverts.map Advert.slot = s.peer.adverts.map Advert.slot := hw.adverts
    have hcircuits := hw.circuits
    have hsame := hw.same
    rw [List.foldl_cons]
    generalize s.abort c .reset none = v at v1 v2 v3 hslots hcircuits hsame
    have hother (k : Nat) (hk : k ∈ rest) : v.ctx k = s.ctx k := v2 k (fun he => hn (by rw [← he]; exact hk))
    obtain ⟨i1, i2, i3, i4, i5⟩ := ih (s := v) hrest (fun k hk => by
      rw [hother k hk]; exact h k (List.mem_cons_of_mem c hk))
    refine ⟨fun k => ?_, by rw [i2, v3], i3.trans hslots, fun n hne => ?_, ?_⟩
    · rw [i1]
      by_cases hk : k ∈ rest
      · rw [if_pos hk, if_pos (List.mem_cons_of_mem c hk), hother k hk]
      · rw [if_neg hk]
        by_cases he : k = c
        · rw [he, if_pos List.mem_cons_self, v1]
        · rw [if_neg (fun hm => (List.mem_cons.1 hm).elim he hk), v2 k he]
    · rw [i4 n (fun k hk => by rw [hother k hk]; exact hne k (List.mem_cons_of_mem c hk))]
      exact hcircuits n (fun he => hne c List.mem_cons_self he.symm)
    · generalize rest.foldl (fun t c => t.abort c .reset) v = w at i5
      rw [i5, hsame]

theorem State.mem_running {s : State} {c : Nat} :
    c ∈ s.running ↔ c < 8 ∧ (s.ctx c).state ≠ .free ∧ (s.ctx c).state ≠ .aborting := by
  simp [State.running, contextNumbers]

theorem State.ctx_discardEntries (s : State) (c : Nat) (hc : c < 8) :
    s.discardEntries.ctx c = { s.ctx c with served := none, parked := none } :=
  Table.at_mapIdx _ _ _ Ctx.reset hc

/-- A context after RESET_MIGRATION, by its state before. -/
theorem Ctx.resetMigration_facts (x : Ctx) :
    let y : Ctx := { x with served := none, parked := none }
    let busy := x.state ≠ .free ∧ x.state ≠ .aborting
    let z := (if busy then y.aborted .reset none else y).resetMigration
    let pending := (x.state = .aborting ∧ x.returnPending = true) ∨ (x.state ≠ .free ∧ x.state ≠ .aborting ∧ x.switched = true)
    (pending → z.state = .aborting ∧ z.returnPending = true ∧ z.resetPending = true)
    ∧ (¬ pending → z.state = .free)
    ∧ (x.state ≠ .free → z.served = none ∧ z.parked = none)
    ∧ (x.state ≠ .free → x.state ≠ .aborting → z.abortCause = some .reset) := by
  intro y busy z pending
  by_cases hf : x.state = .free
  · have hz : z = y := by
      show Ctx.resetMigration (if busy then _ else y) = y
      rw [if_neg (fun h => h.1 hf), Ctx.resetMigration, if_pos hf]
    refine ⟨?_, fun _ => by rw [hz]; exact hf, fun h => absurd hf h, fun h => absurd hf h⟩
    rintro (h | h)
    · exact absurd (hf.symm.trans h.1) (by decide)
    · exact absurd hf h.1
  by_cases ha : x.state = .aborting
  · have hz : z = if x.returnPending then { y with resetPending := true } else y.freed := by
      show Ctx.resetMigration (if busy then _ else y) = _
      rw [if_neg (fun h => h.2 ha), Ctx.resetMigration, if_neg hf]
    have hpend : pending ↔ x.returnPending = true :=
      ⟨fun h => h.elim (fun h => h.2) (fun h => absurd ha h.2.1), fun h => .inl ⟨ha, h⟩⟩
    rw [hpend, hz]
    cases hr : x.returnPending
    · exact ⟨fun h => absurd h (by decide), fun _ => rfl, fun _ => ⟨rfl, rfl⟩, fun _ h => absurd ha h⟩
    · rw [if_pos rfl]
      exact ⟨fun _ => ⟨ha, rfl, rfl⟩, fun h => absurd rfl h, fun _ => ⟨rfl, rfl⟩, fun _ h => absurd ha h⟩
  · have hz : z = (y.aborted .reset none).resetMigration := by
      show Ctx.resetMigration (if busy then _ else y) = _
      rw [if_pos ⟨hf, ha⟩]
    have hpend : pending ↔ x.switched = true :=
      ⟨fun h => h.elim (fun h => absurd h.1 ha) (fun h => h.2.2), fun h => .inr ⟨hf, ha, h⟩⟩
    rw [hpend, hz, Ctx.aborted, show y.switched = x.switched from rfl]
    cases hr : x.switched
    · exact ⟨fun h => absurd h (by decide), fun _ => rfl, fun _ => ⟨rfl, rfl⟩, fun _ _ => rfl⟩
    · rw [if_pos rfl, Ctx.resetMigration, if_neg
        (show ¬ (y.abortWith .reset none false).state = .free from fun h => absurd (show CtxState.aborting = .free from h)
          (by decide)),
        if_pos (show (y.abortWith .reset none false).returnPending = true from hr)]
      exact ⟨fun _ => ⟨rfl, hr, rfl⟩, fun h => absurd rfl h, fun _ => ⟨rfl, rfl⟩, fun _ _ => rfl⟩

/-- Settles O42: the aborts by `State.foldl_abort`, each context by `Ctx.resetMigration_facts`. -/
theorem resetMigrationClearsTheWork : Obligations.ResetMigrationClearsTheWork := by
  intro s hs
  have hrunning : s.discardEntries.running = s.running := by
    refine List.filter_congr fun c hc => ?_
    rw [State.ctx_discardEntries s c (by simpa [contextNumbers] using hc)]
  obtain ⟨a1, a2, a3, a4, a5⟩ := State.foldl_abort (cs := s.running) (s := s.discardEntries) (List.nodup_range.filter _)
    (fun c hc => State.mem_running.1 (by rw [hrunning]; exact hc))
  obtain ⟨a, ha⟩ : ∃ a, a = s.running.foldl (fun t c => t.abort c .reset) s.discardEntries := ⟨_, rfl⟩
  rw [← ha] at a1 a2 a3 a4 a5
  have ht : s.resetMigration = { a with
      queue := [], pool := { a.pool with waitList := [], waitCount := 0 }, peer := a.peer.resetMigration
      contexts := Table.mapIdx a.contexts (fun _ x => x.resetMigration) } := by rw [ha]; rfl
  have hlen : s.running = (List.range 8).filter (fun c =>
      decide ((s.ctx c).state ≠ .free ∧ (s.ctx c).state ≠ .aborting)) := by
    refine List.filter_congr fun c _ => ?_
    cases (s.ctx c).state <;> rfl
  refine ⟨s.resetMigration, exec_answers hs rfl rfl (by rw [← hlen]; rfl), ?_, ?_, ?_, ?_, fun c hc => ?_,
    fun n hn => ?_, ?_⟩
  · rw [ht]
  · rw [ht]
  · rw [ht]; rfl
  · have hslots : a.peer.adverts.map Advert.slot = s.peer.adverts.map Advert.slot := a3
    have hserial : a.peer.serial = s.peer.serial := by rw [a2]; rfl
    have hmap (l : List Advert) : l.map (fun a => { a with kind := .linger 32 s.peer.serial, step := .abort, argument := 2 })
        = (l.map Advert.slot).map (fun k => (⟨.linger 32 s.peer.serial, k, .abort, 2⟩ : Advert)) := by
      rw [List.map_map]; rfl
    rw [ht, hmap, ← hslots, ← hmap, ← hserial]
    rfl
  · have hctx : s.resetMigration.ctx c = (a.ctx c).resetMigration := by
      rw [ht]; exact Table.at_mapIdx _ _ _ Ctx.reset hc
    have hac : a.ctx c = if (s.ctx c).state ≠ .free ∧ (s.ctx c).state ≠ .aborting
        then Ctx.aborted { s.ctx c with served := none, parked := none } .reset none
        else { s.ctx c with served := none, parked := none } := by
      rw [a1, State.ctx_discardEntries s c hc]
      by_cases h : (s.ctx c).state ≠ .free ∧ (s.ctx c).state ≠ .aborting
      · rw [if_pos h, if_pos (State.mem_running.2 ⟨hc, h⟩)]
      · rw [if_neg h, if_neg (fun hm => h (State.mem_running.1 hm).2)]
    have hfacts := (s.ctx c).resetMigration_facts
    rw [hctx, hac]
    exact hfacts
  · have hcirc : s.resetMigration.circuit n = a.circuit n := by rw [ht]; rfl
    rw [hcirc, a4 n (fun c hc => ?_)]
    · rfl
    · obtain ⟨hlt, hfree, habort⟩ := State.mem_running.1 hc
      rw [State.ctx_discardEntries s c hlt]
      obtain h | h | h := hn c hlt
      · exact absurd h hfree
      · exact absurd h habort
      · exact h
  · rw [ht, a5]
    rfl

end Sys2Proof.Machine
end

section
/-! Admission (R112 to R114). -/

namespace Sys2Proof.Machine

/-! ### Halt reasons and tests -/

theorem State.liveWith_halt (s : State) (k : FaultKind) (x : Nat) : s.liveWith k x Actions.halt = true ↔
    (s.fault k x).enabled = true ∧ (s.fault k x).live = true ∧ (s.fault k x).actions.halt = true := by
  simp [State.liveWith, and_assoc]

theorem Ctx.busy_iff (x : Ctx) : x.busy = true ↔ x.state ≠ .free := by
  simp [Ctx.busy]

theorem State.noContext_iff (s : State) : s.noContext = true ↔ ∀ c, c < 8 → (s.ctx c).state ≠ .free := by
  simp [State.noContext, contextNumbers, Ctx.busy_iff]

/-- The lowest FREE context. -/
theorem State.freeContext_eq_some {s : State} {c : Nat} : s.freeContext = some c ↔
    c < 8 ∧ (s.ctx c).state = .free ∧ ∀ k, k < c → (s.ctx k).state ≠ .free := by
  rw [State.freeContext, contextNumbers, List.find?_range_eq_some]
  simp only [List.mem_range, Ctx.busy, Bool.not_eq_true', bne_eq_false_iff_eq, bne_iff_ne, Bool.not_not]
  exact ⟨fun ⟨h1, h2, h3⟩ => ⟨h2, h1, h3⟩, fun ⟨h1, h2, h3⟩ => ⟨h2, h1, h3⟩⟩

theorem State.peerPresent_iff (s : State) : s.peerPresent = true ↔
    s.port.los = false ∧ s.peer.silent = false ∧ ∃ a, s.port.wordAge = some a ∧ a < s.peer.silentTime := by
  unfold State.peerPresent
  cases s.port.wordAge with
  | none => simp
  | some a => simp; tauto

theorem State.portHalt_iff (s : State) : s.portHalt = true ↔ ∃ k, k.isPort = true
    ∧ (s.fault k 0).enabled = true ∧ (s.fault k 0).live = true ∧ (s.fault k 0).actions.halt = true := by
  rw [State.portHalt, List.any_eq_true]
  exact exists_congr fun k => and_congr mem_portKinds (s.liveWith_halt k 0)

theorem State.halted_iff (s : State) : s.halted = true ↔
    ¬ (s.port.los = false ∧ s.peer.silent = false ∧ ∃ a, s.port.wordAge = some a ∧ a < s.peer.silentTime)
    ∨ (∃ k, k.isPort = true
      ∧ (s.fault k 0).enabled = true ∧ (s.fault k 0).live = true ∧ (s.fault k 0).actions.halt = true)
    ∨ (s.admitting.requireA = true ∧ s.linkA.alive = false) ∨ (s.admitting.requireB = true ∧ s.linkB.alive = false) := by
  rw [← State.peerPresent_iff, ← State.portHalt_iff]
  simp [State.halted, State.linkASilent, State.linkBSilent, or_assoc]

theorem State.spanHalt_iff (s : State) (x : Nat) : s.spanHalt x = true ↔
    s.liveWith .copperLos x Actions.halt = true ∨ s.liveWith .switchLos x Actions.halt = true
      ∨ s.liveWith .markerLoss x Actions.halt = true := by
  simp [State.spanHalt, spanKinds, List.any_cons]

theorem Direction.admits_iff (d : Direction) (st : MigState) :
    d.admits st = true ↔ (d = .toFibre ∧ (st = .copper ∨ st = .reverted)) ∨ (d = .toCopper ∧ st = .fibreProtected) := by
  cases d <;> cases st <;> decide

theorem State.abortingHolds_iff (s : State) (slot : Nat) : s.abortingHolds slot = true ↔
    ∃ k, k < 8 ∧ (s.ctx k).state = .aborting ∧ (s.ctx k).slot = slot := by
  simp [State.abortingHolds, contextNumbers]

/-- An entry passes where none of the nine tests fails. -/
theorem State.firstFailing_isNone {s : State} {e : Entry} :
    (s.firstFailing e).isNone = true ↔ ∀ t, s.passes e t = true := by
  rw [State.firstFailing, Option.isNone_iff_eq_none, List.find?_eq_none]
  constructor
  · intro h t
    have ht := h t (by cases t <;> decide)
    simpa using ht
  · intro h t _
    rw [h t]; decide

/-- The nine tests of R113. -/
theorem State.passes_iff (s : State) (e : Entry) : (∀ t, s.passes e t = true) ↔
    (s.span (e.circuit / 30)).state = .inserted
    ∧ ¬ (s.liveWith .copperLos (e.circuit / 30) Actions.halt = true
      ∨ s.liveWith .switchLos (e.circuit / 30) Actions.halt = true
      ∨ s.liveWith .markerLoss (e.circuit / 30) Actions.halt = true)
    ∧ e.direction.admits (s.circuit e.circuit).state = true
    ∧ (s.groupOf e.circuit).frozen = false ∧ (e.direction = .toFibre → (s.groupOf e.circuit).lockedOut = false)
    ∧ (s.circuit e.circuit).held = false ∧ (s.circuit e.circuit).residual = 0
    ∧ (∀ slot k, (s.circuit e.circuit).slot = some slot → k < 8 → ¬ ((s.ctx k).state = .aborting ∧ (s.ctx k).slot = slot))
    ∧ ((s.groupOf e.circuit).policy = .drain ∨ e.idleOnly = true → (s.circuit e.circuit).call = .idle) := by
  have hlock : s.passes e .lockedOut = true ↔ (e.direction = .toFibre → (s.groupOf e.circuit).lockedOut = false) := by
    show (e.direction == .toCopper || !(s.groupOf e.circuit).lockedOut) = true ↔ _
    cases e.direction <;> simp
  have hslot : s.passes e .slotBusy = true ↔ ∀ slot k, (s.circuit e.circuit).slot = some slot → k < 8 →
      ¬ ((s.ctx k).state = .aborting ∧ (s.ctx k).slot = slot) := by
    unfold State.passes
    cases hs : (s.circuit e.circuit).slot with
    | none => simp
    | some k =>
      simp only [Bool.not_eq_true', ← Bool.not_eq_true, State.abortingHolds_iff, Option.some.injEq]
      constructor
      · rintro h slot j rfl hj hc
        exact h ⟨j, hj, hc⟩
      · rintro h ⟨j, hj, hc⟩
        exact h k j rfl hj hc
  have hwait : s.passes e .idleWait = true ↔ ((s.groupOf e.circuit).policy = .drain ∨ e.idleOnly = true →
      (s.circuit e.circuit).call = .idle) := by
    show (!((s.groupOf e.circuit).policy == .drain || e.idleOnly) || (s.circuit e.circuit).call == .idle) = true ↔ _
    have hor : ((s.groupOf e.circuit).policy == .drain || e.idleOnly) = true ↔
        (s.groupOf e.circuit).policy = .drain ∨ e.idleOnly = true := by rw [Bool.or_eq_true, beq_iff_eq]
    rw [← hor]
    cases ((s.groupOf e.circuit).policy == .drain || e.idleOnly) <;> simp
  constructor
  · intro h
    refine ⟨beq_iff_eq.1 (h .span), ?_, h .state, (Bool.not_eq_true' _).mp (h .frozen), hlock.1 (h .lockedOut),
      (Bool.not_eq_true' _).mp (h .held), beq_iff_eq.1 (h .residual), hslot.1 (h .slotBusy), hwait.1 (h .idleWait)⟩
    rw [← State.spanHalt_iff, Bool.not_eq_true]
    exact (Bool.not_eq_true' _).mp (h .spanHalt)
  · rintro ⟨h1, h2, h3, h4, h5, h6, h7, h8, h9⟩ t
    rw [← State.spanHalt_iff, Bool.not_eq_true] at h2
    cases t
    case span => exact beq_iff_eq.2 h1
    case spanHalt => exact (Bool.not_eq_true' _).mpr h2
    case state => exact h3
    case frozen => exact (Bool.not_eq_true' _).mpr h4
    case lockedOut => exact hlock.2 h5
    case held => exact (Bool.not_eq_true' _).mpr h6
    case residual => exact beq_iff_eq.2 h7
    case slotBusy => exact hslot.2 h8
    case idleWait => exact hwait.2 h9

/-! ### Admission -/

/-- An admitted entry's state in front of the evaluation of conditioning. -/
def State.admitted (s : State) (e : Entry) (c : Nat) : State :=
  let slot := ((s.circuit e.circuit).slot).getD 0
  let x := { s.newCtx .initiator e.direction e.circuit slot with
    state := .request, served := some e, stepRunning := true }
  let s1 : State := { s with queue := s.queue.filter (fun y => y.circuit != e.circuit) }
  (((s1.setCtx c x).migrate e.circuit c).makeContextEntry c slot e.direction.requestStep).raise
    { cls := .admitted, subject := some (.circuit e.circuit), cause := none, value := valueOf c }

theorem State.admitEntry_eq (s : State) (e : Entry) (c : Nat) :
    s.admitEntry e c = (s.admitted e c).recondition e.circuit := rfl

theorem State.admitted_facts (s : State) (e : Entry) {c : Nat} (hc : c < 8) (hn : e.circuit < 480) :
    let old := s.circuit e.circuit
    let slot := old.slot.getD 0
    let t := s.admitted e c
    t.queue = s.queue.filter (fun y => y.circuit != e.circuit)
    ∧ t.ctx c = { Ctx.reset with
        state := .request, role := .initiator, direction := e.direction, circuit := e.circuit, slot := slot
        origin := old.state, policy := (s.group old.group).policy, served := some e, stepRunning := true }
    ∧ (∀ k, k ≠ c → t.ctx k = s.ctx k)
    ∧ t.circuit e.circuit = { old.enter .migrating with context := some c }
    ∧ (∀ n, n ≠ e.circuit → t.circuit n = s.circuit n)
    ∧ t.peer = s.peer.make { kind := .context c, slot := slot, step := e.direction.requestStep, argument := 0 }
    ∧ t = State.raise { s with queue := t.queue, contexts := t.contexts, circuits := t.circuits, peer := t.peer } {
        cls := .admitted, subject := some (.circuit e.circuit), cause := none
        value := some (BitVec.ofNat 16 c) } := by
  intro old slot t
  obtain ⟨x, hx⟩ : ∃ x : Ctx, x = { s.newCtx .initiator e.direction e.circuit slot with
    state := .request, served := some e, stepRunning := true } := ⟨_, rfl⟩
  obtain ⟨v, hv⟩ : ∃ v : State, v = State.setCtx { s with queue := s.queue.filter (fun y => y.circuit != e.circuit) } c x :=
    ⟨_, rfl⟩
  have ht : t = ((v.migrate e.circuit c).makeContextEntry c slot e.direction.requestStep).raise
      { cls := .admitted, subject := some (.circuit e.circuit), cause := none, value := valueOf c } := by
    rw [hv, hx]; rfl
  have hcontexts : t.contexts = v.contexts := by rw [ht]; rfl
  have hcircuits : t.circuits = (v.migrate e.circuit c).circuits := by rw [ht]; rfl
  have hvc (n : Nat) : v.circuit n = s.circuit n := by rw [hv]; rfl
  have hctx (k : Nat) : t.ctx k = if k = c then x else s.ctx k := by
    rw [State.ctx_congr hcontexts, hv, State.ctx_setCtx]
    by_cases hk : k = c
    · rw [if_pos ⟨hk, hc⟩, if_pos hk]
    · rw [if_neg (fun h => hk h.1), if_neg hk]; rfl
  have hcirc (n : Nat) : t.circuit n = if n = e.circuit then { old.enter .migrating with context := some c }
      else s.circuit n := by
    rw [State.circuit_congr hcircuits, State.migrate, State.circuit_modCircuit_lt _ _ hn, hvc, hvc]
  refine ⟨by rw [ht, hv]; rfl, by rw [hctx, if_pos rfl, hx]; rfl, fun k hk => by rw [hctx, if_neg hk],
    by rw [hcirc, if_pos rfl], fun n hn' => by rw [hcirc, if_neg hn'], by rw [ht, hv]; rfl, ?_⟩
  rw [ht, hv]
  rfl

/-- Settles O35: the halt reasons, the tests of the entries in front, and the admission. -/
theorem admissionTakesTheFirstThatPasses : Obligations.AdmissionTakesTheFirstThatPasses := by
  intro s hs ho u halts present halted passes
  have hhalted : u.admissionHalted = true ↔ halted := by
    rw [State.admissionHalted, Bool.or_eq_true, State.noContext_iff, State.halted_iff]
    rfl
  have hpasses (e : Entry) : (u.firstFailing e).isNone = true ↔ passes e := by
    rw [State.firstFailing_isNone, State.passes_iff, State.liveWith_halt, State.liveWith_halt, State.liveWith_halt]
    have hdir : e.direction.admits (u.circuit e.circuit).state = true ↔ (match e.direction with
          | .toFibre => (s.circuit e.circuit).state = .copper ∨ (s.circuit e.circuit).state = .reverted
          | .toCopper => (s.circuit e.circuit).state = .fibreProtected) := by
      rw [Direction.admits_iff]
      cases e.direction <;> simp [u] <;> rfl
    rw [hdir]
    rfl
  have hrun : exec .admission s = .next u.makeAdmission :=
    congrArg Host.Outcome.next (State.owedEvent_rests hs ho _)
  refine ⟨fun h => ?_, fun before e after c hgo hqueue hbefore hpass hn hunique hc hfree hlow => ?_⟩
  · rw [hrun, State.makeAdmission]
    split
    · rfl
    · next hnot =>
      have hnone : u.firstAdmissible = none := List.find?_eq_none.2 fun e he hp =>
        (h.resolve_left (fun hh => hnot (hhalted.2 hh))) e he ((hpasses e).1 hp)
      rw [hnone]
  · intro old slot step
    have hfirst : u.firstAdmissible = some e := List.find?_eq_some_iff_append.2
      ⟨(hpasses e).2 hpass, before, after, hqueue, fun x hx => by
        rw [Bool.not_eq_true', Bool.eq_false_iff]
        exact fun hp => hbefore x hx ((hpasses x).1 hp)⟩
    have hcontext : u.freeContext = some c := State.freeContext_eq_some.2 ⟨hc, hfree, hlow⟩
    have hmake : u.makeAdmission = u.admitEntry e c := by
      rw [State.makeAdmission, if_neg (mt hhalted.1 hgo), hfirst, hcontext]
    obtain ⟨z1, z2, z3, z4, z5, z6, z7⟩ := u.admitted_facts e hc hn
    rw [hmake, State.admitEntry_eq] at hrun
    generalize u.admitted e c = z at z1 z2 z3 z4 z5 z6 z7 hrun
    have hr := Rederived.recondition z e.circuit
    obtain ⟨rctx, rqueue, rpeer, -, rothers⟩ := hr.frame
    have hz := hr.circuit e.circuit
    have hkeep : s.queue.filter (fun y => y.circuit != e.circuit) = before ++ after := by
      have hall (l : List Entry) (hl : ∀ x, x ∈ l → x ∈ before ++ after) :
          l.filter (fun y => y.circuit != e.circuit) = l :=
        List.filter_eq_self.2 fun x hx => by simpa using hunique x (hl x hx)
      rw [hqueue, List.filter_append, List.filter_cons, if_neg (by simp), hall before (fun x => List.mem_append_left _),
        hall after (fun x => List.mem_append_right _)]
    have hstep : e.direction.requestStep = step := by
      show e.direction.requestStep = (match e.direction with | .toFibre => _ | .toCopper => _)
      cases e.direction <;> rfl
    refine ⟨_, hrun, by rw [rqueue, z1]; exact hkeep, by rw [rctx, z2]; rfl, fun k hk => by rw [rctx, z3 k hk]; rfl, ?_,
      fun n hn' => by rw [rothers n hn', z5 n hn']; rfl, by rw [rpeer, z6, hstep]; rfl, fun hwant => ?_⟩
    · intro new
      have hnew : new = _ := hz
      rw [hnew, z4]
      exact ⟨rfl, rfl, rfl, rfl⟩
    · rw [State.recondition_stays (hwant.trans (by rw [z4]; rfl))]
      exact z7

end Sys2Proof.Machine
end

section
/-! The Peer Exchange: valid words and the peer view (R65, R138 to R141, R146, R147). -/

namespace Sys2Proof.Machine

/-! ### Valid words -/

/-- A change of the clash's run alone, where the clash mark is known. -/
theorem PeerExchange.with_run {p : PeerExchange} {b : Bool} (h : p.clash = b) (r : Nat) :
    ({ p with clashRun := r } : PeerExchange) = { p with clash := b, clashRun := r } := by
  subst h; rfl

/-- The word's site, judged (R147). -/
theorem State.judgeSite_eq {v : State} {own run : Nat} {bad : Bool} (ho : v.ownSite = own) (hb : v.peer.clash = bad)
    (hr : v.peer.clashRun = run) (site : Nat) :
    let clash (bad : Bool) (run : Nat) : State := { v with peer := { v.peer with clash := bad, clashRun := run } }
    v.judgeSite site = if site = own then
        (if bad then clash true 0 else (clash true run).declare .siteClash 0)
      else if bad = false then v
      else if run < 2 then clash true (run + 1)
      else (clash false 0).clearFault .siteClash 0 := by
  intro clash
  subst ho hb hr
  simp only [State.judgeSite]
  by_cases hc : v.peer.clash = true
  · rw [if_pos hc, if_neg (show ¬ v.peer.clash = false by rw [hc]; decide)]
    by_cases hs : site = v.ownSite
    · rw [if_pos hs, if_pos hs, if_pos hc, PeerExchange.with_run hc]
    · rw [if_neg hs, if_neg hs]
      by_cases hr : v.peer.clashRun < 2
      · rw [if_neg (by omega), if_pos hr, PeerExchange.with_run hc]
      · rw [if_pos (by omega), if_neg hr]
  · rw [if_neg hc, if_pos (show v.peer.clash = false by simpa using hc)]
    by_cases hs : site = v.ownSite
    · rw [if_pos hs, if_pos hs, if_neg hc]
    · rw [if_neg hs, if_neg hs]

/-- The clearing of PEER_SILENT leaves what the site's judgement reads. -/
theorem State.clearSilent_same (s : State) :
    s.clearSilent.ownSite = s.ownSite ∧ s.clearSilent.peer.clash = s.peer.clash
      ∧ s.clearSilent.peer.clashRun = s.peer.clashRun := by
  unfold State.clearSilent
  split
  · have h := FaultsActed.clearFault .peerSilent 0 { s with peer := { s.peer with silent := false } }
    have hp := h.peer
    refine ⟨by rw [h.same], by rw [hp], by rw [hp]⟩
  · exact ⟨rfl, rfl, rfl⟩

theorem readStep_none {n : Nat} (h : n = 0 ∨ 8 < n) : readStep n = none := by
  obtain h | h := h
  · subst h; rfl
  · unfold readStep
    split <;> first | omega | rfl

theorem readStep_code (k : Step) : readStep k.code = some k := by cases k <;> rfl

/-! ### Dispatch -/

/-- The lowest busy context on a slot. -/
theorem State.holder_eq_some {s : State} {slot c : Nat} : s.holder slot = some c ↔
    c < 8 ∧ ((s.ctx c).state ≠ .free ∧ (s.ctx c).slot = slot)
      ∧ ∀ k, k < c → (s.ctx k).state = .free ∨ (s.ctx k).slot ≠ slot := by
  rw [State.holder, contextNumbers, List.find?_range_eq_some]
  simp only [List.mem_range, Bool.and_eq_true, Ctx.busy_iff, beq_iff_eq, Bool.not_eq_true',
    ← Bool.not_eq_true, not_and_or, not_not, ne_eq]
  exact ⟨fun ⟨h1, h2, h3⟩ => ⟨h2, h1, h3⟩, fun ⟨h1, h2, h3⟩ => ⟨h2, h1, h3⟩⟩

theorem State.holder_eq_none {s : State} {slot : Nat} : s.holder slot = none ↔
    ∀ c, c < 8 → (s.ctx c).state = .free ∨ (s.ctx c).slot ≠ slot := by
  rw [State.holder, contextNumbers, List.find?_eq_none]
  simp only [List.mem_range, Bool.and_eq_true, Ctx.busy_iff, beq_iff_eq, not_and_or, not_not, ne_eq]

/-- Settles O43: the word in the order of R138, its dispatch, and PEER_SILENT. -/
theorem validWordsAreTakenInOrder : Obligations.ValidWordsAreTakenInOrder := by
  refine ⟨?_, ?_, ?_⟩
  · intro w s u v clash j
    obtain ⟨h1, h2, h3⟩ : v.ownSite = s.ownSite ∧ v.peer.clash = s.peer.clash ∧ v.peer.clashRun = s.peer.clashRun :=
      State.clearSilent_same u
    have hj : v.judgeSite w.site = j := State.judgeSite_eq h1 h2 h3 w.site
    have hword : s.validWord w = v.exchangeWord w := rfl
    have hread : v.exchangeWord w = match readStep w.step with
        | none => j
        | some .digest => j.takeDigest w.digest
        | some step => j.takeStep step w := by
      unfold State.exchangeWord
      rw [hj] <;> rfl
    refine ⟨fun h => ?_, fun h => ?_, fun step hne h => ?_⟩
    · rw [hword, hread, h]; rfl
    · rw [hword, hread, readStep_none h]
    · rw [hword, hread, h, readStep_code]
      cases step
      case digest => exact absurd rfl hne
      all_goals rfl
  · intro slot s entry
    refine ⟨fun h => ?_, fun e he => ⟨fun hs => ?_, fun c hs hc hst hslot hlow => ?_, fun hs hnone => ?_⟩⟩
    · rw [State.dispatchSighting, show s.viewEntry slot = none from h]
    · rw [State.dispatchSighting, show s.viewEntry slot = some e from he]
      exact if_neg (fun h => absurd (of_decide_eq_true h) (Nat.not_le.2 hs))
    · rw [State.dispatchSighting, show s.viewEntry slot = some e from he]
      refine (if_pos (decide_eq_true hs)).trans ?_
      rw [State.holder_eq_some.2 ⟨hc, ⟨hst, hslot⟩, hlow⟩]
    · rw [State.dispatchSighting, show s.viewEntry slot = some e from he]
      refine (if_pos (decide_eq_true hs)).trans ?_
      rw [State.holder_eq_none.2 hnone]
  · intro s hp due
    have hrun : exec .peerSilent s = .next s.declareSilentIfDue := by
      show Host.Outcome.next (if s.powered then s.declareSilentIfDue else s) = _
      rw [if_pos hp]
    refine ⟨fun h => ?_, fun h => ?_⟩
    · rw [hrun, State.declareSilentIfDue, if_pos (s.silentDue_iff.2 h)]
    · rw [hrun, State.declareSilentIfDue, if_neg (mt s.silentDue_iff.1 h)]

/-! ### The peer view -/

/-- The view's slots after an insertion. -/
theorem insertView_splits (e : ViewEntry) (l : List ViewEntry) (h : ∀ x, x ∈ l → x.slot ≠ e.slot) :
    ∃ before after, l = before ++ after ∧ (∀ x, x ∈ before → x.slot < e.slot)
      ∧ (∀ x rest, after = x :: rest → e.slot < x.slot) ∧ insertView e l = before ++ e :: after := by
  induction l with
  | nil => exact ⟨[], [], rfl, nofun, nofun, rfl⟩
  | cons x rest ih =>
    by_cases hx : e.slot < x.slot
    · refine ⟨[], x :: rest, rfl, nofun, fun y r hy => ?_, if_pos hx⟩
      cases hy; exact hx
    · obtain ⟨before, after, hl, hb, ha, hi⟩ := ih (fun y hy => h y (List.mem_cons_of_mem x hy))
      refine ⟨x :: before, after, by rw [hl]; rfl, fun y hy => ?_, ha, ?_⟩
      · obtain rfl | hy := List.mem_cons.1 hy
        · exact lt_of_le_of_ne (Nat.le_of_not_lt hx) (h y List.mem_cons_self)
        · exact hb y hy
      · rw [insertView, if_neg hx, hi]; rfl

theorem State.viewEntry_isSome (s : State) (slot : Nat) :
    (s.viewEntry slot).isSome = true ↔ ∃ e, e ∈ s.peer.view ∧ e.slot = slot := by
  simp [State.viewEntry, List.find?_isSome]

/-- Settles O44: the sighting, the new entry, the full table and the age-out. -/
theorem peerViewFollowsTheWords : Obligations.PeerViewFollowsTheWords := by
  refine ⟨?_, ?_⟩
  · intro step w s t
    have hnone (h : ∀ e, e ∈ s.peer.view → e.slot ≠ w.slot) : ¬ (s.viewEntry w.slot).isSome = true := fun hs =>
      let ⟨e, he, hslot⟩ := (s.viewEntry_isSome w.slot).1 hs
      h e he hslot
    refine ⟨fun h => ?_, fun h hl => ?_, fun h hl => ?_⟩
    · exact if_pos ((s.viewEntry_isSome w.slot).2 h)
    · obtain ⟨before, after, hv, hb, ha, hi⟩ := insertView_splits (ViewEntry.first step w) s.peer.view h
      refine ⟨before, after, hv, hb, ha, ?_⟩
      have ht : t = { s with peer := { s.peer with view := insertView (ViewEntry.first step w) s.peer.view } } :=
        (if_neg (hnone h)).trans (if_pos hl)
      rw [ht, hi]
      rfl
    · exact (if_neg (hnone h)).trans (if_neg (Nat.not_lt.2 hl))
  · intro slot s hs old u
    have hrun : exec (.ageOut slot) s = .next (s.ageOut slot) :=
      congrArg Host.Outcome.next (State.event_rests hs _)
    refine ⟨fun h => ?_, fun e he hage => ?_⟩
    · rw [hrun, State.ageOut]
      cases hv : s.viewEntry slot with
      | none => rfl
      | some e => exact congrArg Host.Outcome.next (if_neg fun hd =>
          absurd (of_decide_eq_true hd) (Nat.not_le.2 (h e hv)))
    · have hout : s.ageOut slot = match u.holder slot with
          | some c => u.modCtx c (fun x => { x with peerEntry := false })
          | none => u := by
        rw [State.ageOut, show s.viewEntry slot = some e from he]
        exact if_pos (decide_eq_true hage)
      refine ⟨fun hnone => ?_, fun c hc hst hslot hlow => ?_⟩
      · rw [hrun, hout, State.holder_eq_none (s := u) |>.2 hnone]
      · rw [hrun, hout, State.holder_eq_some (s := u) |>.2 ⟨hc, ⟨hst, hslot⟩, hlow⟩]
        rfl

end Sys2Proof.Machine
end

section
/-! The advertisement table (R135 to R137). -/

namespace Sys2Proof.Machine

/-! ### Leaving -/

/-- What stands at a place after an entry has left. -/
theorem PeerExchange.removeAt_adverts (p : PeerExchange) (i : Nat) :
    (p.removeAt i).adverts = p.adverts.take i ++ p.adverts.drop (i + 1) := List.eraseIdx_eq_take_drop_succ _ _

theorem PeerExchange.removeAt_position (p : PeerExchange) (i : Nat) : (p.removeAt i).position = match p.position with
    | none => none
    | some k => if i < k then some (k - 1) else if k < (p.adverts.eraseIdx i).length then some k else none := rfl

theorem PeerExchange.removeAt_get (p : PeerExchange) (i j : Nat) :
    (p.removeAt i).adverts[j]? = if j < i then p.adverts[j]? else p.adverts[j + 1]? := List.getElem?_eraseIdx

/-! ### Making -/

theorem Advert.isLinger_iff (a : Advert) : a.isLinger = true ↔ ∃ n k, a.kind = .linger n k := by
  unfold Advert.isLinger
  split
  · next h => simp [h]
  · next h => simp [h]

theorem Advert.serial_eq_some {a : Advert} {k : Nat} : a.serial? = some k ↔ ∃ n, a.kind = .linger n k := by
  unfold Advert.serial?
  split
  · next h => simp [h]
  · next h => simp [h]

/-- An oldest linger found so far stays where none in the rest is older. -/
theorem oldestLinger_keeps {b m : Nat} {l : List Advert} (i : Nat) (h : ∀ x, x ∈ l → ∀ o, x.serial? = some o → m ≤ o) :
    oldestLinger i (some (b, m)) l = some b := by
  induction l generalizing i with
  | nil => rfl
  | cons x rest ih =>
    have hrest := ih (i + 1) (fun y hy => h y (List.mem_cons_of_mem x hy))
    cases hx : x.serial? with
    | none => simp only [oldestLinger, hx, hrest]
    | some o =>
      have ho : ¬ o < m := Nat.not_lt.2 (h x List.mem_cons_self o hx)
      simp only [oldestLinger, hx, if_neg ho, hrest]

/-- The oldest linger is found: older than all in front of it, no younger than any behind it. -/
theorem oldestLinger_finds {x : Advert} {k : Nat} {before after : List Advert} (hx : x.serial? = some k)
    (hb : ∀ y, y ∈ before → ∀ o, y.serial? = some o → k < o) (ha : ∀ y, y ∈ after → ∀ o, y.serial? = some o → k ≤ o)
    (i : Nat) (best : Option (Nat × Nat)) (hbest : ∀ b, best = some b → k < b.2) :
    oldestLinger i best (before ++ x :: after) = some (i + before.length) := by
  induction before generalizing i best with
  | nil =>
    rw [List.nil_append]
    cases hbe : best with
    | none => simp only [oldestLinger, hx]; exact oldestLinger_keeps _ ha
    | some b => simp only [oldestLinger, hx, if_pos (hbest b hbe)]; exact oldestLinger_keeps _ ha
  | cons y rest ih =>
    have hrest := fun i best => ih (fun z hz => hb z (List.mem_cons_of_mem y hz)) i best
    have hlen (j : Nat) : i + 1 + j = i + (j + 1) := by omega
    rw [List.cons_append, List.length_cons, ← hlen]
    cases hy : y.serial? with
    | none => simp only [oldestLinger, hy]; exact hrest _ _ hbest
    | some o =>
      have ho := hb y List.mem_cons_self o hy
      cases hbe : best with
      | none => simp only [oldestLinger, hy]; exact hrest _ _ (fun b h => by cases h; exact ho)
      | some b =>
        simp only [oldestLinger, hy]
        refine hrest _ _ (fun c h => ?_)
        by_cases hlt : o < b.2
        · rw [if_pos hlt] at h; cases h; exact ho
        · rw [if_neg hlt] at h; cases h; exact hbest b hbe

/-- The place of the first element that a test accepts. -/
theorem findIdx_splits {α : Type} {p : α → Bool} {x : α} {before after : List α} (hx : p x = true)
    (hb : ∀ y, y ∈ before → p y = false) : (before ++ x :: after).findIdx? p = some before.length := by
  rw [List.findIdx?_append, List.findIdx?_eq_none_iff.2 hb, List.findIdx?_cons, hx]
  simp

/-- Settles O47: leaving, making, the rotation's next position, and expiry. -/
theorem advertisementsKeepTheirPlaces : Obligations.AdvertisementsKeepTheirPlaces := by
  refine ⟨?_, ?_, ?_, ?_⟩
  · intro i p hi q
    have hlen : (p.adverts.eraseIdx i).length = p.adverts.length - 1 := List.length_eraseIdx_of_lt hi
    refine ⟨p.removeAt_adverts i, fun h => ?_, fun k a hp hk ha => ?_, fun hp a ha => ?_, fun hp ha => ?_⟩
    · rw [p.removeAt_position, h]
    · have hkl : k < p.adverts.length := (List.getElem?_eq_some_iff.1 ha).1
      by_cases hik : i < k
      · refine ⟨k - 1, by rw [p.removeAt_position, hp]; exact if_pos hik, ?_⟩
        rw [p.removeAt_get, if_neg (by omega), show k - 1 + 1 = k by omega, ha]
      · refine ⟨k, ?_, by rw [p.removeAt_get, if_pos (by omega), ha]⟩
        rw [p.removeAt_position, hp]
        exact (if_neg hik).trans (if_pos (by rw [hlen]; omega))
    · have hil : i + 1 < p.adverts.length := (List.getElem?_eq_some_iff.1 ha).1
      refine ⟨?_, by rw [p.removeAt_get, if_neg (Nat.lt_irrefl i), ha]⟩
      rw [p.removeAt_position, hp]
      exact (if_neg (Nat.lt_irrefl i)).trans (if_pos (by rw [hlen]; omega))
    · have hil : p.adverts.length ≤ i + 1 := List.getElem?_eq_none_iff.1 ha
      rw [p.removeAt_position, hp]
      exact (if_neg (Nat.lt_irrefl i)).trans (if_neg (by rw [hlen]; omega))
  · intro a p same
    have hsame (x : Advert) : (x.isLinger && x.slot == a.slot) = true ↔ same x := by
      rw [Bool.and_eq_true, Advert.isLinger_iff, beq_iff_eq]
      exact and_comm
    have hnone (h : ∀ x, x ∈ p.adverts → ¬ same x) :
        p.adverts.findIdx? (fun x => x.isLinger && x.slot == a.slot) = none :=
      List.findIdx?_eq_none_iff.2 fun x hx => Bool.eq_false_iff.2 fun hs => h x hx ((hsame x).1 hs)
    refine ⟨fun before x after hp hx hb => ?_, fun h hl => ?_, fun i n k x h hl hi hx hold => ?_⟩
    · have hfind : p.adverts.findIdx? (fun x => x.isLinger && x.slot == a.slot) = some before.length := by
        rw [hp]
        exact findIdx_splits ((hsame x).2 hx) fun y hy => Bool.eq_false_iff.2 fun hs => hb y hy ((hsame y).1 hs)
      rw [PeerExchange.make, hfind]
      simp only [hp, List.set_append_right _ _ (Nat.le_refl _), Nat.sub_self, List.set_cons_zero]
    · rw [PeerExchange.make, hnone h]
      exact if_pos hl
    · have hil : i < p.adverts.length := (List.getElem?_eq_some_iff.1 hi).1
      have hsplit : p.adverts = p.adverts.take i ++ x :: p.adverts.drop (i + 1) := by
        have hget : p.adverts[i] = x := (List.getElem?_eq_some_iff.1 hi).2
        rw [← hget, List.cons_getElem_drop_succ, List.take_append_drop]
      have holdest : oldestLinger 0 none p.adverts = some i := by
        have hfound := oldestLinger_finds (x := x) (k := k) (before := p.adverts.take i) (after := p.adverts.drop (i + 1))
          (Advert.serial_eq_some.2 ⟨n, hx⟩) (fun y hy o ho => ?_) (fun y hy o ho => ?_) 0 none nofun
        · rw [← hsplit, List.length_take_of_le (Nat.le_of_lt hil), Nat.zero_add] at hfound
          exact hfound
        · obtain ⟨m, hm⟩ := Advert.serial_eq_some.1 ho
          obtain ⟨j, hj, hy⟩ := List.mem_take_iff_getElem.1 hy
          have := hold j m o y (by rw [← hy]; exact List.getElem?_eq_getElem _) hm
          omega
        · obtain ⟨m, hm⟩ := Advert.serial_eq_some.1 ho
          obtain ⟨j, hj, hy⟩ := List.mem_drop_iff_getElem.1 hy
          have := hold (i + 1 + j) m o y (by rw [← hy]; exact List.getElem?_eq_getElem _) hm
          omega
      rw [PeerExchange.make, hnone h]
      refine (if_neg (Nat.not_lt.2 hl)).trans ?_
      rw [holdest]
  · intro p
    unfold PeerExchange.nextPosition
    cases p.position with
    | some k => rfl
    | none => cases p.adverts <;> rfl
  · intro slot s hs ho u ended
    have hended (a : Advert) : (a.slot == slot && a.expired) = true ↔ ended a := by
      rw [Bool.and_eq_true, beq_iff_eq]
      refine and_congr_right fun _ => ?_
      unfold Advert.expired
      split
      · next m k h =>
          rw [h, beq_iff_eq]
          exact ⟨fun he => ⟨k, by rw [he]⟩, fun ⟨_, he⟩ => by cases he; rfl⟩
      · next h => rw [h]; simp
    have hrun : exec (.lingerExpiry slot) s = .next (u.expireLinger slot) :=
      congrArg Host.Outcome.next (State.owedEvent_rests hs ho _)
    refine ⟨fun h => ?_, fun before a after hl ha hb => ?_⟩
    · rw [hrun, State.expireLinger, show u.peer = s.peer from rfl,
        List.findIdx?_eq_none_iff.2 fun x hx => Bool.eq_false_iff.2 fun he => h x hx ((hended x).1 he)]
    · have hfind : (before ++ a :: after).findIdx? (fun x => x.slot == slot && x.expired) = some before.length :=
        findIdx_splits ((hended a).2 ha) fun y hy => Bool.eq_false_iff.2 fun he => hb y hy ((hended y).1 he)
      rw [hrun, State.expireLinger, show u.peer = s.peer from rfl, hl, hfind]

end Sys2Proof.Machine
end

section
/-! What a confirmed peer step does by a context's state (R116, R117, R121, R126, R145). -/

namespace Sys2Proof.Machine

/-! ### A deferral -/

/-- A deferral of a context whose switch is made leaves the return for the boundary. -/
theorem State.defer_switched {s : State} {c : Nat} (hc : c < 8) (hsw : (s.ctx c).switched = true)
    (hbusy : ¬ ((s.ctx c).state = .free ∨ (s.ctx c).state = .aborting)) :
    let t := s.defer c
    t.ctx c = { (s.ctx c).abortWith .deferredData none true with returnPending := true }
    ∧ t.peer.adverts = s.peer.adverts.map (fun a =>
        if a.kind = .context c then { a with step := .abort, argument := 0x0E } else a)
    ∧ t.circuits = s.circuits ∧ t.queue = s.queue ∧ t.linkA = s.linkA ∧ t.linkB = s.linkB := by
  intro t
  have ht : t = s.abortMarked c .deferredData none true := by
    refine (if_neg hbusy).trans ?_
    rw [State.abortWith_eq, if_pos hsw]
  have hw : s.abortSettled c = (s.leaveWaitList c).forgetContext c := if_pos hsw
  obtain ⟨-, w3, -⟩ := s.abortSettled_same hc
  obtain ⟨v1, v2, -, v4, v5⟩ := s.abortMarked_facts .deferredData none true hc rfl
  rw [← ht] at v1 v2 v4 v5
  refine ⟨?_, by rw [v4]; rfl, by rw [v1, hw]; rfl, by rw [v1, hw]; rfl, v5 .a, v5 .b⟩
  rw [v2, w3, hsw]
  simp only [Ctx.abortWith, hsw, if_true]

/-- A deferral of a context before its switch returns the circuit at once. -/
theorem State.defer_unswitched {s : State} {c : Nat} (hc : c < 8) (hsw : (s.ctx c).switched = false)
    (hbusy : ¬ ((s.ctx c).state = .free ∨ (s.ctx c).state = .aborting)) :
    let t := s.defer c
    let n := (s.ctx c).circuit
    (t.ctx c).state = .aborting ∧ (t.ctx c).abortCause = some .deferredData
    ∧ t.peer.adverts = s.peer.adverts.map (fun a =>
        if a.kind = .context c then { a with step := .abort, argument := 0x0E } else a)
    ∧ (∀ y, (s.ctx c).served = some y → (s.ctx c).parked = none → n < 480 →
        t.queue = (s.reenter { y with idleOnly := true }).1.queue
        ∧ (t.circuit n).context = none ∧ (t.circuit n).lastAbort = some .deferredData) := by
  intro t n
  have ht : t = (s.abortMarked c .deferredData none true).leaveContext c := by
    refine (if_neg hbusy).trans ?_
    rw [State.abortWith_eq, if_neg (by rw [hsw]; decide)]
  obtain ⟨w1, w3, -⟩ := s.abortSettled_same hc
  obtain ⟨v1, v2, -, v4, -⟩ := s.abortMarked_facts .deferredData none true hc rfl
  rw [w1] at v1
  rw [w3] at v2
  generalize s.abortMarked c .deferredData none true = v at v1 v2 v4 ht
  have vx : (v.ctx c).circuit = n := by rw [v2]; rfl
  rw [State.leaveContext_left, vx] at ht
  obtain ⟨z1, z2, -, -⟩ := v.left_same hc
  obtain ⟨rctx, rqueue, rpeer, -, -⟩ := (Rederived.recondition (v.left c) n).frame
  rw [← ht] at rctx rqueue rpeer
  rw [rctx, rpeer, rqueue, z2]
  refine ⟨by rw [v2]; rfl, by rw [v2]; rfl, by rw [z1]; show v.peer.adverts = _; rw [v4]; rfl,
    fun y hserved hparked hn => ?_⟩
  obtain ⟨-, -, -, z4, -⟩ := v.left_facts hc hn vx
  have hz := (Rederived.recondition (v.left c) n).circuit n
  rw [← ht] at hz
  refine ⟨?_, by rw [hz, z4], by rw [hz, z4]; show (v.ctx c).abortCause = _; rw [v2]; rfl⟩
  rw [(State.left_deferred_some (by rw [v2]; rfl) (by rw [v2]; exact hserved) (by rw [v2]; exact hparked)).1]
  exact (State.reenter_congr (by rw [v1]) (by rw [v1]) _).1

/-! ### Steps by state -/

theorem State.setCtx_setCtx (s : State) (c : Nat) (x y : Ctx) : (s.setCtx c x).setCtx c y = s.setCtx c y :=
  congrArg (fun l => { s with contexts := l }) (Table.put_put s.contexts x y c)

/-- Entry to MEASURE: the context's timers and its advertisement. -/
theorem State.enterMeasure_eq (s : State) (c : Nat) : s.enterMeasure c =
    { s.setCtx c { s.ctx c with state := .measure, stepRunning := false, bridgeTimer := 0, begun := false } with
      peer := { s.peer with adverts := s.peer.adverts.map (fun a =>
        if a.kind = .context c then { a with step := .bridged, argument := 0 } else a) } } := by
  simp only [State.enterMeasure, State.advertise, Advert.isOf_iff]
  rfl

/-- A context that moves hears ABORT and REJECT, in whichever state it is. -/
theorem State.actOn_ends {s : State} {c : Nat} (b : Byte) (site : Nat)
    (h : (s.ctx c).state ≠ .free ∧ (s.ctx c).state ≠ .aborting) :
    s.actOn c .abort b site = s.peerAborts c b ∧ s.actOn c .reject b site = s.abort c .peerReject (some b) := by
  obtain ⟨hfree, habort⟩ := h
  unfold State.actOn
  cases hst : (s.ctx c).state
  case free => exact absurd hst hfree
  case aborting => exact absurd hst habort
  all_goals exact ⟨rfl, rfl⟩

/-- The steps that a context's state ignores (log entry 13). -/
theorem State.actOn_ignored {s : State} {c : Nat} {k : Step} (b : Byte) (site : Nat)
    (h : (s.ctx c).state = .free ∨ (s.ctx c).state = .aborting ∨ k = .digest
      ∨ ((s.ctx c).state ≠ .request ∧ (k = .bridged ∨ k = .reqFibre ∨ k = .reqCopper))
      ∨ ((s.ctx c).state ≠ .ready ∧ (s.ctx c).state ≠ .switched ∧ (k = .ready ∨ k = .switched))
      ∨ ((s.ctx c).state = .switched ∧ (k = .ready ∨ k = .switched))) : s.actOn c k b site = s := by
  unfold State.actOn
  split <;> simp_all

/-- Settles O45, by the confirmed step; each effect is that of the operation the table of R116 names. -/
theorem confirmedStepsActByState : Obligations.ConfirmedStepsActByState := by
  intro c e s hc x u t moves asks shows measuring
  have hux : u.ctx c = x := (State.ctx_setCtx s c c x).trans (if_pos ⟨rfl, hc⟩)
  have ht : t = u.actOn c e.step e.argument e.site := rfl
  have hbusy : moves → (u.ctx c).state ≠ .free ∧ (u.ctx c).state ≠ .aborting := by
    rw [hux]
    rintro (h | h | h | h | h | h) <;> rw [h] <;> exact ⟨nofun, nofun⟩
  have hends (hm : moves) := State.actOn_ends e.argument e.site (hbusy hm)
  have hmeasure : u.enterMeasure c = measuring x := by rw [State.enterMeasure_eq, hux]
  have hstate : (u.ctx c).state = x.state := congrArg Ctx.state hux
  refine ⟨fun hm hs ha hserved => ?_, fun hm hs hno => ?_, fun hm hs => ?_, fun hst hs => ?_, fun d hst hs => ?_,
    fun hst hs => ?_, fun hst hs => ?_, fun h => ?_⟩
  · have hdefer : t = u.defer c := by
      rw [ht, hs, (hends hm).1, State.peerAborts, if_pos ⟨ha, by rw [hux]; exact Option.isSome_iff_ne_none.2 hserved⟩]
    have hgo := not_or.2 (hbusy hm)
    by_cases hsw : x.switched = true
    · obtain ⟨z1, z2, z3⟩ := State.defer_switched hc (by rw [hux]; exact hsw) hgo
      rw [← hdefer, hux] at z1
      rw [← hdefer] at z2 z3
      rw [z1]
      exact ⟨hdefer, rfl, rfl, z2, fun _ => ⟨rfl, rfl, rfl, z3⟩, fun y h => absurd (hsw.symm.trans h) (by decide)⟩
    · obtain ⟨z1, z2, z3, z4⟩ := State.defer_unswitched hc (by rw [hux]; exact Bool.not_eq_true _ ▸ hsw) hgo
      rw [← hdefer] at z1 z2 z3 z4
      rw [hux] at z4
      refine ⟨hdefer, z1, z2, z3, fun h => absurd h hsw, fun y _ hy hp hn _ => ?_⟩
      obtain ⟨q1, q2, q3⟩ := z4 y hy hp hn
      exact ⟨q1.trans (State.reenter_congr (s := s) (t := u) rfl rfl _).1, q2, q3⟩
  · rw [ht, hs, (hends hm).1, State.peerAborts, if_neg]
    rw [hux]
    rintro ⟨ha, hserved⟩
    exact hno.elim (fun h => h ha) (fun h => absurd hserved (by rw [h]; decide))
  · rw [ht, hs, (hends hm).2]
  · rw [ht, hs]
    unfold State.actOn
    simp only [hstate, hst]
    exact hmeasure
  · have hglare : t = u.glare c d e.site := by
      rw [ht, show e.step = _ from hs]
      unfold State.actOn
      simp only [hstate, hst]
      cases d <;> rfl
    rw [hglare, State.glare, hux, show u.ownSite = s.ownSite from rfl]
    refine ⟨fun h => if_pos h, fun h => ?_, fun h hd => ?_⟩
    · rw [if_neg (by rcases h with h | h; exacts [Nat.not_lt.2 (Nat.le_of_eq h.symm), Nat.not_lt.2 (Nat.le_of_lt h.1)]), if_neg]
      rintro ⟨h1, h2⟩
      exact h.elim (fun h => absurd h1 (Nat.not_lt.2 (Nat.le_of_eq h))) (fun h => h.2 h2)
    · rw [if_neg (Nat.not_lt.2 (Nat.le_of_lt h)), if_pos ⟨h, hd⟩]
      have hv : u.modCtx c (fun x => { x with role := .responder }) = u.setCtx c { x with role := .responder } :=
        congrArg (fun y : Ctx => u.setCtx c { y with role := .responder }) hux
      rw [State.becomeResponder, hv, State.enterMeasure_eq, State.setCtx_setCtx, State.ctx_setCtx, if_pos ⟨rfl, hc⟩]
      rfl
  · have hdue : u.makeDue c = u.setCtx c { x with switchDue := true, stepRunning := false } :=
      congrArg (fun y : Ctx => u.setCtx c { y with switchDue := true, stepRunning := false }) hux
    rw [ht, ← hdue]
    unfold State.actOn
    rcases hs with hs | hs <;> rw [hs] <;> simp only [hstate, hst]
  · have htu : t = u := by
      rw [ht, hs]
      unfold State.actOn
      simp only [hstate, hst]
    refine ⟨htu, ?_⟩
    rw [htu, hux, Ctx.completionDue, Bool.and_eq_true, beq_iff_eq]
    exact ⟨hst, by rw [show x.peerSwitched = _ from rfl, Ctx.peerSwitched]; rw [show x.lastStep = some (e.step, e.argument) from rfl, hs]⟩
  · rw [ht]
    refine State.actOn_ignored e.argument e.site ?_
    rw [hux]
    rcases h with h | h | h | h | ⟨h1, h2, h⟩ | ⟨h1, h2⟩
    exacts [.inl h, .inr (.inl h), .inr (.inr (.inl h)), .inr (.inr (.inr (.inl h))),
      .inr (.inr (.inr (.inr (.inl ⟨h1, h2, h⟩)))), .inr (.inr (.inr (.inr (.inr ⟨h1, .inl h2⟩))))]

end Sys2Proof.Machine
end

section
/-! Confirmed steps for slots that no context holds (R118, R141, R142, R144). -/

namespace Sys2Proof.Machine

/-! ### Lingers and the responder checks -/

theorem State.lingerFor_iff (s : State) (slot : Nat) (q : Step → Bool) : s.lingerFor slot q = true ↔
    ∃ a n k, a ∈ s.peer.adverts ∧ a.kind = .linger n k ∧ a.slot = slot ∧ q a.step = true := by
  simp only [State.lingerFor, List.any_eq_true, Bool.and_eq_true, Advert.isLinger_iff, beq_iff_eq]
  constructor
  · rintro ⟨a, ha, ⟨⟨n, k, hk⟩, hs⟩, hq⟩
    exact ⟨a, n, k, ha, hk, hs, hq⟩
  · rintro ⟨a, n, k, ha, hk, hs, hq⟩
    exact ⟨a, ha, ⟨⟨n, k, hk⟩, hs⟩, hq⟩

theorem State.notReady_iff (s : State) (n : Nat) : (!(s.circuit n).equipped || !s.spanInserted n) = true ↔
    ¬ ((s.circuit n).equipped = true ∧ (s.span (n / 30)).state = .inserted) := by
  show (!(s.circuit n).equipped || !((s.span (n / 30)).state == .inserted)) = true ↔ _
  simp [imp_iff_not_or]

theorem State.heldBack_iff (s : State) (d : Direction) (n : Nat) :
    ((s.circuit n).held || (s.groupOf n).frozen || (d == .toFibre && (s.groupOf n).lockedOut)) = true ↔
      ¬ ((s.circuit n).held = false ∧ (s.group (s.circuit n).group).frozen = false
        ∧ (d = .toFibre → (s.group (s.circuit n).group).lockedOut = false)) := by
  simp only [Bool.or_eq_true, Bool.and_eq_true, beq_iff_eq, not_and_or, Bool.not_eq_false, Classical.not_imp, or_assoc,
    State.groupOf]

/-- The checks after the slot's, each with its cause and in their order (R142). -/
theorem State.circuitRejects_cases (s : State) (d : Direction) (n : Nat) :
    let c := s.circuit n
    let g := s.group c.group
    let ready := c.equipped = true ∧ (s.span (n / 30)).state = .inserted
    let unheld := c.held = false ∧ g.frozen = false ∧ (d = .toFibre → g.lockedOut = false)
    let fits := d.admits c.state = true
    (¬ ready → s.circuitRejects d n = some .notReady)
    ∧ (ready → ¬ unheld → s.circuitRejects d n = some .held)
    ∧ (ready → unheld → (¬ fits ∨ c.residual ≠ 0) → s.circuitRejects d n = some .state)
    ∧ (ready → unheld → fits → c.residual = 0 → s.halted = true → s.circuitRejects d n = some .halted)
    ∧ (ready → unheld → fits → c.residual = 0 → s.halted = false → s.circuitRejects d n =
        if s.noContext then some .noContext else none) := by
  intro c g ready unheld fits
  have hgo (h : ready) := mt (s.notReady_iff n).1 (not_not.2 h)
  have hfree (h : unheld) := mt (s.heldBack_iff d n).1 (not_not.2 h)
  unfold State.circuitRejects
  refine ⟨fun h1 => if_pos ((s.notReady_iff n).2 h1), fun h1 h2 => ?_, fun h1 h2 h3 => ?_, fun h1 h2 h3 h4 h5 => ?_,
    fun h1 h2 h3 h4 h5 => ?_⟩
  · exact (if_neg (hgo h1)).trans (if_pos ((s.heldBack_iff d n).2 h2))
  · refine (if_neg (hgo h1)).trans ((if_neg (hfree h2)).trans ?_)
    by_cases ha : d.admits c.state = true
    · refine (if_neg (by rw [ha]; decide)).trans (if_pos ?_)
      exact bne_iff_ne.2 (h3.resolve_left (fun h => h ha))
    · exact if_pos ((Bool.not_eq_true' _).mpr (Bool.not_eq_true _ ▸ ha))
  all_goals
    refine (if_neg (hgo h1)).trans ((if_neg (hfree h2)).trans ((if_neg ?_).trans ((if_neg ?_).trans ?_)))
    · rw [show d.admits _ = true from h3]; decide
    · rw [show (s.circuit n).residual = 0 from h4]; decide
  · exact if_pos h5
  · exact if_neg (by rw [h5]; decide)

/-! ### Acceptance -/

/-- An accepted request's state in front of the evaluation of conditioning. -/
def State.accepted (s : State) (d : Direction) (slot n c : Nat) : State :=
  let entry := s.queue.find? (fun e => e.circuit == n)
  let s1 := { s with queue := s.queue.filter (fun e => e.circuit != n) }
  let s2 := s1.setCtx c { s.newCtx .responder d n slot with
    served := entry.filter (fun e => e.direction == d), parked := entry.filter (fun e => e.direction != d) }
  (((s2.migrate n c).makeContextEntry c slot .bridged).enterMeasure c).raise
    { cls := .admitted, subject := some (.circuit n), cause := none, value := valueOf (c + 8) }

theorem State.accept_eq (s : State) (d : Direction) (slot n c : Nat) :
    s.accept d slot n c = (s.accepted d slot n c).recondition n := rfl

theorem State.accepted_facts (s : State) (d : Direction) (slot : Nat) {n c : Nat} (hn : n < 480) (hc : c < 8) :
    let old := s.circuit n
    let entry := s.queue.find? (fun e => e.circuit == n)
    let t := s.accepted d slot n c
    t.queue = s.queue.filter (fun e => e.circuit != n)
    ∧ t.ctx c = { Ctx.reset with
        state := .measure, role := .responder, direction := d, circuit := n, slot := slot
        origin := old.state, policy := (s.group old.group).policy
        served := entry.filter (fun e => e.direction == d), parked := entry.filter (fun e => e.direction != d)
        stepRunning := false, bridgeTimer := 0, begun := false }
    ∧ (∀ k, k ≠ c → t.ctx k = s.ctx k)
    ∧ t.circuit n = { old.enter .migrating with context := some c }
    ∧ (∀ m, m ≠ n → t.circuit m = s.circuit m)
    ∧ t.peer = (let p := s.peer.make { kind := .context c, slot := slot, step := .bridged, argument := 0 }
        { p with adverts := p.adverts.map (fun a =>
          if a.kind = .context c then { a with step := .bridged, argument := 0 } else a) })
    ∧ t = State.raise { s with queue := t.queue, contexts := t.contexts, circuits := t.circuits, peer := t.peer } {
        cls := .admitted, subject := some (.circuit n), cause := none
        value := some (BitVec.ofNat 16 (c + 8)) } := by
  intro old entry t
  obtain ⟨x, hx⟩ : ∃ x : Ctx, x = { s.newCtx .responder d n slot with
    served := entry.filter (fun e => e.direction == d), parked := entry.filter (fun e => e.direction != d) } := ⟨_, rfl⟩
  obtain ⟨v, hv⟩ : ∃ v : State, v = State.setCtx { s with queue := s.queue.filter (fun e => e.circuit != n) } c x := ⟨_, rfl⟩
  obtain ⟨w, hw⟩ : ∃ w : State, w = (v.migrate n c).makeContextEntry c slot .bridged := ⟨_, rfl⟩
  have ht : t = (w.enterMeasure c).raise
      { cls := .admitted, subject := some (.circuit n), cause := none, value := valueOf (c + 8) } := by
    rw [hw, hv, hx]; rfl
  have hvc (m : Nat) : v.circuit m = s.circuit m := by rw [hv]; rfl
  have hvx (k : Nat) : w.ctx k = if k = c then x else s.ctx k := by
    have hwv : w.contexts = v.contexts := by rw [hw]; rfl
    rw [State.ctx_congr hwv, hv, State.ctx_setCtx]
    by_cases hk : k = c
    · rw [if_pos ⟨hk, hc⟩, if_pos hk]
    · rw [if_neg (fun h => hk h.1), if_neg hk]; rfl
  have hctx (k : Nat) : t.ctx k = if k = c then
      { x with state := .measure, stepRunning := false, bridgeTimer := 0, begun := false } else s.ctx k := by
    have htw : t.contexts = (w.setCtx c { w.ctx c with
      state := .measure, stepRunning := false, bridgeTimer := 0, begun := false }).contexts := by
      rw [ht, State.enterMeasure_eq]; rfl
    rw [State.ctx_congr htw, State.ctx_setCtx, hvx, hvx]
    by_cases hk : k = c
    · rw [if_pos ⟨hk, hc⟩, if_pos hk, if_pos rfl]
    · rw [if_neg (fun h => hk h.1), if_neg hk, if_neg hk]
  have hcirc (m : Nat) : t.circuit m = if m = n then { old.enter .migrating with context := some c } else s.circuit m := by
    have htv : t.circuits = (v.migrate n c).circuits := by rw [ht, hw]; rfl
    rw [State.circuit_congr htv, State.migrate, State.circuit_modCircuit_lt _ _ hn, hvc, hvc]
  refine ⟨by rw [ht, hw, hv]; rfl, by rw [hctx, if_pos rfl, hx]; rfl, fun k hk => by rw [hctx, if_neg hk],
    by rw [hcirc, if_pos rfl], fun m hm => by rw [hcirc, if_neg hm], ?_, ?_⟩
  · rw [ht, State.enterMeasure_eq, hw, hv]; rfl
  · have hws : w = { s with queue := w.queue, contexts := w.contexts, circuits := w.circuits, peer := w.peer } := by
      rw [hw, hv]; rfl
    have hm : w.enterMeasure c = { s with queue := t.queue, contexts := t.contexts, circuits := t.circuits, peer := t.peer } := by
      rw [ht, State.enterMeasure_eq]
      clear hw ht hctx hcirc hvx
      rw [hws]; rfl
    rw [← hm]; exact ht

/-! ### The answer -/

/-- Settles O46: lingers first, then the seven checks in order, then the acceptance into the lowest free context. -/
theorem peerStepsAreAnswered : Obligations.PeerStepsAreAnswered := by
  intro slot s linger stands
  have hlinger (k : Step) (b : Byte) : s.makeLinger slot k b = linger k b := rfl
  have hany : s.lingerFor slot (fun _ => true) = true ↔ stands (fun _ => True) := by
    simp only [State.lingerFor_iff, stands]
  have habort : s.lingerFor slot (fun x => x == .abort) = true ↔ stands (fun q => q = .abort) := by
    simp only [State.lingerFor_iff, stands, beq_iff_eq]
  refine ⟨fun k hk => ?_, fun k hk => ?_, fun d => ?_⟩
  · have hrun : s.answerStep slot k = State.answerStep.stale s slot := by
      rcases hk with rfl | rfl | rfl <;> rfl
    rw [hrun, State.answerStep.stale]
    exact ⟨fun h => if_pos (hany.2 h), fun h => if_neg (mt hany.1 h)⟩
  · rcases hk with rfl | rfl | rfl <;> rfl
  · intro k
    have hrun : s.answerStep slot k = if s.lingerFor slot (fun x => x == .abort) then s else s.judgeRequest d slot := by
      cases d <;> rfl
    refine ⟨fun h => hrun.trans (if_pos (habort.2 h)), fun hno => ?_⟩
    have hjudge : s.answerStep slot k = s.judgeRequest d slot := hrun.trans (if_neg (mt habort.1 hno))
    have hrejects (cause : Cause) (h : s.rejects d slot = some cause) :
        s.answerStep slot k = linger .reject cause.byte := by
      rw [hjudge, State.judgeRequest, h]; rfl
    refine ⟨fun h => hrejects .unmapped (by rw [State.rejects, h]), fun n hslot hn => ?_⟩
    intro c g ready unheld fits
    have hcheck : s.rejects d slot = s.circuitRejects d n := by rw [State.rejects, hslot]
    have hfits : d.admits (s.circuit n).state = true ↔ fits := Direction.admits_iff d _
    have hcases := s.circuitRejects_cases d n
    rw [← hcheck] at hcases
    obtain ⟨r1, r2, r3, r4, r5⟩ := hcases
    refine ⟨fun h1 => hrejects _ (r1 h1), fun h1 h2 => hrejects _ (r2 h1 h2),
      fun h1 h2 h3 => hrejects _ (r3 h1 h2 (h3.imp_left (mt hfits.1))),
      fun h1 h2 h3 h4 h5 => hrejects _ (r4 h1 h2 (hfits.2 h3) h4 h5),
      fun h1 h2 h3 h4 h5 h6 => hrejects _ ((r5 h1 h2 (hfits.2 h3) h4 h5).trans (if_pos ((s.noContext_iff).2 h6))),
      fun j h1 h2 h3 h4 h5 hj hfree hlow => ?_⟩
    intro t
    have hnone : s.rejects d slot = none := (r5 h1 h2 (hfits.2 h3) h4 h5).trans
      (if_neg (fun h => (s.noContext_iff).1 h j hj hfree))
    have ht : t = (s.accepted d slot n j).recondition n := by
      rw [show t = s.answerStep slot k from rfl, hjudge, State.judgeRequest, hnone, hslot,
        State.freeContext_eq_some.2 ⟨hj, hfree, hlow⟩]
      rfl
    obtain ⟨z1, z2, z3, z4, z5, z6, z7⟩ := s.accepted_facts d slot hn hj
    generalize s.accepted d slot n j = z at z1 z2 z3 z4 z5 z6 z7 ht
    obtain ⟨rctx, rqueue, rpeer, -, rothers⟩ := (Rederived.recondition z n).frame
    have hz := (Rederived.recondition z n).circuit n
    rw [← ht] at rctx rqueue rpeer rothers hz
    rw [rctx, rqueue, rpeer, hz, z1, z2, z4]
    refine ⟨rfl, rfl, rfl, rfl, rfl, rfl, rfl, rfl, rfl, rfl, rfl, rfl, rfl, rfl, rfl, fun e he => ?_,
      fun i hi => by rw [rctx, z3 i hi], fun m hm => by rw [rothers m hm, z5 m hm], z6, fun hwant l => ?_⟩
    · rw [he]
      by_cases hd : e.direction = d
      · rw [if_pos hd]; simp [Option.filter, hd]
      · rw [if_neg hd]; simp [Option.filter, hd]
    · have htz : t = z := by
        rw [ht] at hwant ⊢
        exact State.recondition_stays (hwant.trans (by rw [z4]; rfl))
      rw [htz, z7, State.link_raise]
      cases l <;> rfl

end Sys2Proof.Machine
end

section
/-! Attempts, ALLOCATE, READY and the service of the cell pool (R90 to R101, R119). -/

namespace Sys2Proof.Machine

theorem State.modCtx_eq (s : State) (c : Nat) (f : Ctx → Ctx) : s.modCtx c f = s.setCtx c (f (s.ctx c)) := rfl

theorem State.ctx_setCtx_same (s : State) {c : Nat} (hc : c < 8) (x : Ctx) : (s.setCtx c x).ctx c = x :=
  (State.ctx_setCtx s c c x).trans (if_pos ⟨rfl, hc⟩)

theorem State.enterReady_eq (s : State) (c : Nat) : s.enterReady c =
    { s.setCtx c { s.ctx c with
        state := .ready, stepTimer := 0, stepRunning := !(s.ctx c).peerReady, switchDue := (s.ctx c).peerReady } with
      peer := { s.peer with adverts := s.peer.adverts.map (fun a =>
        if a.kind = .context c then { a with step := .ready, argument := 0 } else a) } } := by
  simp only [State.enterReady, State.advertise, Advert.isOf_iff]
  rfl

theorem Ctx.peerReady_iff (x : Ctx) : x.peerReady = true ↔
    ∃ b, x.lastStep = some (.ready, b) ∨ x.lastStep = some (.switched, b) := by
  unfold Ctx.peerReady
  split
  · next b h => rw [h]; simp
  · next b h => rw [h]; simp
  · next h1 h2 =>
    simp only [Bool.false_eq_true, false_iff]
    rintro ⟨b, h | h⟩
    exacts [h1 b h, h2 b h]

theorem State.attemptDue_iff (s : State) (c : Nat) : s.attemptDue c = true ↔
    (s.ctx c).state = .measure ∧ (s.ctx c).begun = false ∧ s.slotLive (s.ctx c).slot = true := by
  simp [State.attemptDue, and_assoc]

theorem Ctx.measurementDue_iff (x : Ctx) : x.measurementDue = true ↔
    x.state = .measure ∧ x.running = true ∧ x.attemptN ≤ x.n := by
  simp [Ctx.measurementDue, and_assoc]

/-- Settles O30: the rows of the start and the end of an attempt, the entries to READY and ALLOCATE, and the service. -/
theorem attemptsEndAndThePoolServes : Obligations.AttemptsEndAndThePoolServes := by
  refine ⟨fun c s hp hd hc hst => ?_, fun c s hc => ?_, fun s hp => ?_⟩
  · intro x started
    have hstart : exec (.attemptStart c) s = .next (s.startIfDue c) := by
      show Host.Outcome.next (if s.powered then s.serviceAll.startIfDue c else s) = _
      rw [if_pos hp, State.serviceAll_of_not_due hd]
    have hend : exec (.measurementComplete c) s = .next (s.measureIfDue c) := by
      show Host.Outcome.next (if s.powered then s.serviceAll.measureIfDue c else s) = _
      rw [if_pos hp, State.serviceAll_of_not_due hd]
    refine ⟨fun hb hlive => ?_, fun h => ?_, fun hr hn => ?_, fun h => ?_⟩
    · intro u
      rw [hstart, State.startIfDue, if_pos ((s.attemptDue_iff c).2 ⟨hst, hb, hlive⟩), State.startAttempt]
      rfl
    · rw [hstart, State.startIfDue, if_neg]
      rw [State.attemptDue_iff]
      rintro ⟨-, hb, hlive⟩
      rcases h with h | h
      · exact absurd (hb.symm.trans h) (by decide)
      · exact absurd (hlive.symm.trans h) (by decide)
    · intro e data u
      have hdue : s.measureIfDue c = s.endAttempt c := if_pos ((Ctx.measurementDue_iff _).2 ⟨hst, hr, hn⟩)
      have hux : u.ctx c = { x with running := false, lead := some e } := s.ctx_setCtx_same hc _
      refine ⟨fun hs => ?_, fun hs ha => ?_, fun hs ha => ?_⟩
      · rw [hend, hdue, State.endAttempt, if_pos hs]
        show Host.Outcome.next (u.prepareSwitch c) = _
        have hidle : u.modCtx c (fun y => { y with idleOnly := true }) =
            s.setCtx c { x with running := false, lead := some e, idleOnly := true } := by
          rw [State.modCtx_eq, hux, State.setCtx_setCtx]
        rw [State.prepareSwitch, hux, hidle]
        rfl
      · rw [hend, hdue, State.endAttempt, if_neg (Int.not_le.2 hs), if_pos ha]
        rfl
      · rw [hend, hdue, State.endAttempt, if_neg (Int.not_le.2 hs), if_neg (Nat.not_lt.2 ha)]
    · rw [hend, State.measureIfDue, if_neg]
      rw [Ctx.measurementDue_iff]
      rintro ⟨-, hr, hn⟩
      rcases h with h | h
      · exact absurd (hr.symm.trans h) (by decide)
      · exact absurd h (Nat.not_lt.2 hn)
  · intro x heard ready need waits
    have henter : s.enterAllocate c = if s.pool.waitList.isEmpty ∧ need ≤ s.pool.free then waits
        else waits.raise { cls := .poolWait, subject := some (.context c), cause := none, value := valueOf need } := by
      have hwait : (if s.pool.waitList.isEmpty then 0 else s.pool.waitCount)
          = if s.pool.waitList = [] then 0 else s.pool.waitCount := by simp only [List.isEmpty_iff]
      have hwaits : ({ s.modCtx c (fun y => { y with state := .allocate }) with pool := { s.pool with
          waitList := s.pool.waitList ++ [c]
          waitCount := if s.pool.waitList.isEmpty then 0 else s.pool.waitCount } } : State) = waits := by rw [hwait]; rfl
      rw [← hwaits]
      rfl
    refine ⟨fun h => ?_, fun h => ?_, fun h => ?_, fun h => ?_⟩
    · rw [State.enterReady_eq, (Ctx.peerReady_iff _).2 h]
    · rw [State.enterReady_eq, Bool.eq_false_iff.2 (mt (Ctx.peerReady_iff _).1 h)]
    · rw [henter, if_pos ⟨List.isEmpty_iff.2 h.1, h.2⟩]
    · rw [henter, if_neg (fun hw => h ⟨List.isEmpty_iff.1 hw.1, hw.2⟩)]
      rfl
  · have hrun : exec .poolService s = .next s.serviceAll := by
      show Host.Outcome.next (if s.powered then s.serviceAll else s) = _
      rw [if_pos hp]
    refine ⟨fun h => ?_, fun c rest e hwait hc he => ?_⟩
    · rw [hrun, State.serviceAll_of_not_due]
      rw [State.poolDue, h]
    · intro need x u served
      have hneed : (s.ctx c).need = need := by rw [Ctx.need, he]; rfl
      refine ⟨fun h => ?_, fun h hd => ?_⟩
      · rw [hrun, State.serviceAll_of_not_due]
        rw [State.poolDue, hwait]
        exact decide_eq_false (Nat.not_le.2 (by rw [hneed]; exact h))
      · have hdue : s.poolDue = true := by
          rw [State.poolDue, hwait]
          exact decide_eq_true (by rw [hneed]; exact h)
        have hserve : s.serve c = served := by
          obtain ⟨v, hv⟩ : ∃ v : State, v = { s with pool := {
              free := s.pool.free - need, waitList := rest, waitCount := 0 } } := ⟨_, rfl⟩
          have hvx : v.ctx c = x := by rw [hv]; rfl
          have hux : u = v.setCtx c { x with cells := need } := by rw [hv]
          have hu : u = State.modCtx { s with pool := {
              free := s.pool.free - (s.ctx c).need, waitList := s.pool.waitList.tail, waitCount := 0 } } c
                (fun y => { y with cells := (s.ctx c).need }) := by
            rw [hneed, hwait]
            rfl
          have hlead : x.lead.getD 0 = e := by rw [show x.lead = _ from he]; rfl
          rw [State.serve, ← hu]
          show (if 0 < x.lead.getD 0 then _ else _) = _
          rw [hlead]
          refine if_congr Iff.rfl rfl ?_
          rw [State.modCtx_eq, hux, State.ctx_setCtx_same v hc]
        rw [hrun, State.serviceAll, State.servicePool, hwait]
        show Host.Outcome.next (if s.poolDue then (s.serve c).servicePool 7 else s) = _
        rw [if_pos hdue, hserve, State.servicePool_of_not_due hd]

end Sys2Proof.Machine
end

section
/-! Walk slots (R87, R97, R98, R104, R105). -/

namespace Sys2Proof.Machine

theorem State.align_walkSlip (s : State) (n : Nat) : (s.walkSlip n).align = s.align := by
  rw [State.walkSlip]
  simp only
  split <;> rfl

theorem State.walkCircuit_none {s : State} {n : Nat} (h : (s.circuit n).context = none) :
    s.walkCircuit n = if 0 < (s.circuit n).residual ∧ (s.circuit n).cls = .voice then s.walkSlip n else s := by
  simp only [State.walkCircuit, h]

theorem State.walkCircuit_some {s : State} {n k : Nat} (h : (s.circuit n).context = some k) :
    s.walkCircuit n = if (s.ctx k).state = .walkUp then s.walkInsert n k
      else if 0 < (s.circuit n).residual ∧ (s.circuit n).cls = .voice then s.walkSlip n else s := by
  simp only [State.walkCircuit, h]

theorem State.align_walkCircuit (s : State) (n : Nat) : (s.walkCircuit n).align = s.align := by
  have hslip : (if 0 < (s.circuit n).residual ∧ (s.circuit n).cls = .voice then s.walkSlip n else s).align = s.align := by
    split
    · exact s.align_walkSlip n
    · rfl
  cases hk : (s.circuit n).context with
  | none => rw [State.walkCircuit_none hk]; exact hslip
  | some k =>
    rw [State.walkCircuit_some hk]
    split
    · rw [State.walkInsert]
      split <;> rfl
    · exact hslip

theorem State.align_foldl_walkCircuit (l : List Nat) (s : State) : (l.foldl State.walkCircuit s).align = s.align := by
  induction l generalizing s with
  | nil => rfl
  | cons n rest ih => rw [List.foldl_cons, ih, State.align_walkCircuit]

/-- A circuit with no context in WALK_UP is stepped by its residual alone. -/
theorem State.walkCircuit_idle {s : State} {n : Nat}
    (h : ¬ ∃ k, (s.circuit n).context = some k ∧ (s.ctx k).state = .walkUp) :
    s.walkCircuit n = if 0 < (s.circuit n).residual ∧ (s.circuit n).cls = .voice then s.walkSlip n else s := by
  cases hk : (s.circuit n).context with
  | none => exact State.walkCircuit_none hk
  | some k => exact (State.walkCircuit_some hk).trans (if_neg (fun hw => h ⟨k, hk, hw⟩))

theorem Circuit.delay_setLine (c : Circuit) (p : Path) (l : List (Option Byte)) : (c.setLine p l).delay p = l.length := by
  cases p <;> rfl

/-- Settles O31: the slot's circuits in turn; a walk-up inserts, a VOICE residual slips. -/
theorem walkSlotsStepTheirCircuits : Obligations.WalkSlotsStepTheirCircuits := by
  refine ⟨fun s hs ho => ?_, fun n s hn => ?_⟩
  · intro u w
    refine (congrArg Host.Outcome.next (State.owedEvent_rests hs ho _)).trans (congrArg Host.Outcome.next ?_)
    have halign : w.align = s.align := State.align_foldl_walkCircuit _ u
    show ({ w with align := { w.align with walkCounter := _ } } : State) = _
    rw [halign]
    rfl
  · intro c walksUp
    refine ⟨fun k hk hk8 hst => ?_, fun hno hr hv => ?_, fun hno hr hv => ?_, fun hno h => ?_⟩
    · intro path u e
      have hwalk : s.walkCircuit n = s.walkInsert n k := (State.walkCircuit_some hk).trans (if_pos hst)
      have hdelay : (u.circuit n).delay path = c.delay path + 1 := by
        have hu : u.circuit n = c.insertOn path :=
          (s.circuit_modCircuit_lt (fun c => c.insertOn path) hn n).trans (if_pos rfl)
        rw [hu, Circuit.insertOn, Circuit.delay_setLine]
        rfl
      rw [hwalk]
      show (if e ≤ (u.circuit n).delay path then u.enterReady k else u) = _
      rw [hdelay]
    · intro u
      rw [State.walkCircuit_idle hno, if_pos ⟨Nat.lt_of_lt_of_le Nat.zero_lt_one (Nat.le_of_lt hr), hv⟩]
      have hne : ¬ c.residual = 1 := Nat.ne_of_gt hr
      rw [State.walkSlip]
      simp only [show ¬ (s.circuit n).residual = 1 from hne, if_false]
      rfl
    · intro u
      rw [State.walkCircuit_idle hno, if_pos ⟨by rw [show (s.circuit n).residual = 1 from hr]; decide, hv⟩]
      rw [State.walkSlip]
      simp only [show (s.circuit n).residual = 1 from hr, State.modCircuit, if_true, Nat.sub_self]
      rfl
    · rw [State.walkCircuit_idle hno, if_neg]
      rintro ⟨hr, hv⟩
      rcases h with h | h
      · exact absurd hr (by rw [show (s.circuit n).residual = 0 from h]; decide)
      · exact absurd (hv.symm.trans h) (by decide)

end Sys2Proof.Machine
end

section
/-! Good and errored carriage frames (R63 to R65, R68). -/

namespace Sys2Proof.Machine

/-! ### The port while a word is taken

The Peer Exchange, the contexts and the Fault Unit leave the port as it is. -/

theorem port_ite {p : Prop} [Decidable p] {s t : State} {f : FibrePort} (h : s.port = f) (k : t.port = f) :
    (if p then s else t).port = f := by
  split
  · exact h
  · exact k

theorem Worked.port {c : Nat} {s t : State} (h : Worked c s t) : t.port = s.port := by rw [h.same]

theorem State.port_clearSilent (s : State) : s.clearSilent.port = s.port :=
  port_ite (FaultsActed.clearFault _ _ _).port rfl

theorem State.port_judgeSite (s : State) (site : Nat) : (s.judgeSite site).port = s.port :=
  port_ite (port_ite rfl (port_ite (FaultsActed.clearFault _ _ _).port rfl))
    (port_ite (FaultsActed.declare _ _ _).port rfl)

theorem State.port_takeDigest (s : State) (d : BitVec 16) : (s.takeDigest d).port = s.port :=
  port_ite (port_ite (port_ite (FaultsActed.clearFault _ _ _).port rfl) rfl)
    (port_ite rfl (port_ite (FaultsActed.declare _ _ _).port rfl))

theorem State.port_peerAborts (s : State) (c : Nat) (b : Byte) : (s.peerAborts c b).port = s.port :=
  port_ite (Worked.defer c s).port (Worked.abort c _ _ s).port

theorem State.port_glare (s : State) (c : Nat) (d : Direction) (site : Nat) : (s.glare c d site).port = s.port :=
  port_ite rfl (port_ite (Worked.enterMeasure c _).port (Worked.abort c _ _ s).port)

theorem State.port_actOn (s : State) (c : Nat) (step : Step) (b : Byte) (site : Nat) :
    (s.actOn c step b site).port = s.port := by
  unfold State.actOn
  split
  case h_1 => exact (Worked.enterMeasure c s).port
  case h_4 | h_5 => exact s.port_glare c _ site
  case h_2 | h_6 | h_8 | h_10 | h_14 | h_16 => exact s.port_peerAborts c b
  case h_3 | h_7 | h_9 | h_11 | h_15 | h_17 => exact (Worked.abort c _ _ s).port
  case h_12 | h_13 | h_18 => rfl

theorem State.port_accept (s : State) (d : Direction) (slot n c : Nat) : (s.accept d slot n c).port = s.port := by
  rw [State.accept_eq, (FaultsActed.of_rederived (Rederived.recondition _ n)).port]
  exact (Worked.enterMeasure c _).port

theorem State.port_answerStep (s : State) (slot : Nat) (step : Step) : (s.answerStep slot step).port = s.port := by
  have hjudge (d : Direction) : (s.judgeRequest d slot).port = s.port := by
    unfold State.judgeRequest
    split
    · rfl
    · exact s.port_accept d slot _ _
    · rfl
  have hstale : (State.answerStep.stale s slot).port = s.port := port_ite rfl rfl
  cases step
  case reqFibre => exact port_ite rfl (hjudge .toFibre)
  case reqCopper => exact port_ite rfl (hjudge .toCopper)
  case bridged | ready | switched => exact hstale
  case abort | reject | digest => rfl

theorem State.port_takeStep (s : State) (step : Step) (w : ExchangeWord) : (s.takeStep step w).port = s.port := by
  have hview : (s.updateView step w).port = s.port := port_ite rfl (port_ite rfl rfl)
  rw [State.takeStep, ← hview]
  unfold State.dispatchSighting
  split
  · refine port_ite ?_ rfl
    split
    · exact State.port_actOn _ _ _ _ _
    · exact State.port_answerStep _ _ _
  · rfl

/-- A valid word sets the word age to 0 and leaves the rest of the port. -/
theorem State.port_validWord (s : State) (w : ExchangeWord) : (s.validWord w).port = { s.port with wordAge := some 0 } := by
  have hexchange (v : State) : (v.exchangeWord w).port = v.port := by
    rw [← v.port_judgeSite w.site]
    unfold State.exchangeWord
    split
    · rfl
    · exact State.port_takeDigest _ _
    · exact State.port_takeStep _ _ _
  rw [State.validWord, hexchange, State.port_clearSilent]

/-! ### The bytes of a frame -/

theorem frameSamples_getD {bytes : List Byte} {k : Nat} (d : Byte) (hl : bytes.length = 538) (hk : k < 512) :
    (frameSamples bytes).getD k d = bytes.getD (24 + k) 0 := by
  have h : 24 + k < bytes.length := by omega
  rw [frameSamples, List.getD_eq_getElem?_getD, List.getD_eq_getElem?_getD, List.getElem?_take, if_pos hk,
    List.getElem?_drop, List.getElem?_eq_getElem h]
  rfl

theorem unpackCodes_getD (l : List Byte) (c : Code) {k : Nat} (hk : k / 2 < l.length) : (unpackCodes l).getD k c =
    if k % 2 = 0 then ((l.getD (k / 2) 0) >>> 4).setWidth 4 else (l.getD (k / 2) 0).setWidth 4 := by
  induction l generalizing k with
  | nil => exact absurd hk (Nat.not_lt_zero _)
  | cons b rest ih =>
    match k with
    | 0 => rfl
    | 1 => rfl
    | k + 2 =>
      have hdiv : (k + 2) / 2 = k / 2 + 1 := by omega
      have hmod : (k + 2) % 2 = k % 2 := by omega
      rw [hdiv] at hk ⊢
      rw [hmod]
      exact ih (by simpa using hk)

theorem frameCodes_getD {bytes : List Byte} {k : Nat} (c : Code) (hl : bytes.length = 538) (hk : k < 32) :
    (frameCodes bytes).getD k c = if k % 2 = 0 then ((bytes.getD (8 + k / 2) 0) >>> 4).setWidth 4
      else (bytes.getD (8 + k / 2) 0).setWidth 4 := by
  have hget : ((bytes.drop 8).take 16).getD (k / 2) 0 = bytes.getD (8 + k / 2) 0 := by
    rw [List.getD_eq_getElem?_getD, List.getD_eq_getElem?_getD, List.getElem?_take, if_pos (by omega), List.getElem?_drop]
  rw [frameCodes, unpackCodes_getD _ _ (by simp; omega), hget]

theorem frameCheckGood_iff {bytes : List Byte} (hl : bytes.length = 538) : frameCheckGood bytes = true ↔
    (crc16 (bytes.take 536)).toNat = 256 * (bytes.getD 536 0).toNat + (bytes.getD 537 0).toNat := by
  simp [frameCheckGood, hl, word16, byteAt]

/-- The port of a good frame, before its word. -/
theorem FibrePort.good_eq (p : FibrePort) (bytes : List Byte) (now : Nat) :
    let m := ((p.deliver bytes).refresh bytes).mark bytes now
    m = { p with
      samples := m.samples, codes := m.codes
      tf := if frameSequence bytes % 512 = 0 then some now else p.tf }
    ∧ m.samples = (p.deliver bytes).samples ∧ m.codes = ((p.deliver bytes).refresh bytes).codes := by
  intro m
  by_cases h : frameSequence bytes % 512 = 0
  · rw [show m = { (p.deliver bytes).refresh bytes with tf := some now } from if_pos h, if_pos h]
    exact ⟨rfl, rfl, rfl⟩
  · rw [show m = (p.deliver bytes).refresh bytes from if_neg h, if_neg h]
    exact ⟨rfl, rfl, rfl⟩

theorem State.samples_deliver (p : FibrePort) {bytes : List Byte} {k : Nat} (hl : bytes.length = 538) (hk : k < 512) :
    Table.at (p.deliver bytes).samples 0 k = bytes.getD (24 + k) 0 :=
  (Table.at_mapIdx p.samples (fun i x => (frameSamples bytes).getD i x) 0 0 hk).trans (frameSamples_getD _ hl hk)

/-- Settles O22: an errored frame's samples and counts, and a good frame's samples, codes, marker and word. -/
theorem framesAreJudged : Obligations.FramesAreJudged := by
  intro bytes s hl b q good t
  by_cases hg : good
  · obtain ⟨m, hm⟩ : ∃ m, m = ((s.port.deliver bytes).refresh bytes).mark bytes s.frameCount := ⟨_, rfl⟩
    obtain ⟨h1, h2, h3⟩ := s.port.good_eq bytes s.frameCount
    rw [← hm] at h1 h2 h3
    obtain ⟨u, hu⟩ : ∃ u, u = State.reconditionAll { s with port := m }
        ((List.range 480).filter (fun n => (s.circuit n).state == .fibreOnly)) := ⟨_, rfl⟩
    have huport : u.port = m := by rw [hu, (FaultsActed.reconditionAll _ _).port]
    have ht : t = u.checkWord bytes := by
      rw [show t = s.goodFrame bytes from if_pos ((frameCheckGood_iff hl).2 hg), hu, hm]
      rfl
    have hword : (bytes.drop 4).take 3 = [b 4, b 5, b 6] := by
      have hget (i : Nat) (hi : i < 538) : b i = bytes[i] := List.getD_eq_getElem _ _ (hl.symm ▸ hi)
      rw [hget 4 (by decide), hget 5 (by decide), hget 6 (by decide), List.drop_eq_getElem_cons (by omega),
        List.drop_eq_getElem_cons (by omega), List.drop_eq_getElem_cons (by omega)]
      rfl
    have hcheck : t = if crc8 [b 4, b 5, b 6] = b 7 then u.validWord {
            step := (b 4).toNat / 16, site := (b 4).toNat / 2 % 8
            slot := 256 * ((b 4).toNat % 2) + (b 5).toNat, argument := b 6 }
        else { u with port := { u.port with wordChecks := min 65535 (u.port.wordChecks + 1) } } := by
      rw [ht, State.checkWord, hword]
      rfl
    have htport : t.port.samples = m.samples ∧ t.port.codes = m.codes := by
      rw [hcheck]
      split
      · rw [State.port_validWord, huport]; exact ⟨rfl, rfl⟩
      · rw [← huport]; exact ⟨rfl, rfl⟩
    refine ⟨fun k hk => ?_, fun h => absurd hg h, fun _ => ⟨fun k hk => ?_, ?_⟩⟩
    · rw [htport.1, h2]
      exact State.samples_deliver s.port hl hk
    · rw [State.slotCode, htport.2, h3]
      refine (Table.at_mapIdx _ _ Config.vacant Config.vacant hk).trans ?_
      refine if_congr Iff.rfl ((frameCodes_getD _ hl (Nat.mod_lt _ (by decide))).trans ?_) rfl
      rw [show k % 32 % 2 = k % 2 by omega]
    · intro wordGood port w
      have hsame (x : Vector Byte 512) (y : Vector Code 512) (hx : x = m.samples) (hy : y = m.codes) : ({ s.port with
          samples := x, codes := y, tf := if q % 512 = 0 then some s.frameCount else s.port.tf } : FibrePort) = m := by
        rw [hx, hy]; exact h1.symm
      have hport : port = m := hsame _ _ htport.1 htport.2
      have hw : w = u := (congrArg (fun p => State.reconditionAll { s with port := p }
        ((List.range 480).filter (fun n => (s.circuit n).state == .fibreOnly))) hport).trans hu.symm
      rw [hw, hport]
      refine ⟨fun h => hcheck.trans (if_pos h), fun h => ?_⟩
      rw [hcheck, if_neg h, huport, show m.wordChecks = s.port.wordChecks by rw [h1]]
  · have ht : t = s.erroredFrame bytes := if_neg (mt (frameCheckGood_iff hl).1 hg)
    refine ⟨fun k hk => ?_, fun _ => by rw [ht]; rfl, fun h => absurd h hg⟩
    rw [ht]
    exact State.samples_deliver s.port hl hk

end Sys2Proof.Machine
end

section
/-! The fibre receiver (R61, R62, R66). -/

namespace Sys2Proof.Machine

/-- Inside a table the default does not matter. -/
theorem Table.at_default {α : Type} {n : Nat} (t : Vector α n) (d e : α) {i : Nat} (h : i < n) :
    Table.at t d i = Table.at t e i := by
  simp [Table.at, List.getD_eq_getElem?_getD, h]

/-! ### The bits of the stream -/

theorem joinBits_getMsbD (a b : Byte) {r m : Nat} (hr : r < 8) (hm : m < 8) :
    (joinBits r a b).getMsbD m = if r + m < 8 then a.getMsbD (r + m) else b.getMsbD (r + m - 8) := by
  have hbit (j : Nat) : (256 * a.toNat + b.toNat).testBit j
      = if j < 8 then b.toNat.testBit j else a.toNat.testBit (j - 8) :=
    Nat.testBit_two_pow_mul_add a.toNat b.isLt j
  rw [joinBits, BitVec.getMsbD_eq_getLsbD, BitVec.getLsbD_ofNat, Nat.testBit_shiftRight, hbit, decide_eq_true hm,
    decide_eq_true (by omega : 8 - 1 - m < 8), Bool.true_and, Bool.true_and]
  by_cases h : r + m < 8
  · rw [if_neg (by omega), if_pos h, BitVec.getMsbD_eq_getLsbD, decide_eq_true h, Bool.true_and,
      show 8 - r + (8 - 1 - m) - 8 = 8 - 1 - (r + m) by omega]
    rfl
  · rw [if_pos (by omega), if_neg h, BitVec.getMsbD_eq_getLsbD, decide_eq_true (by omega : r + m - 8 < 8), Bool.true_and,
      show 8 - r + (8 - 1 - m) = 8 - 1 - (r + m - 8) by omega]
    rfl

theorem shiftBits_length (r : Nat) (l : List Byte) : (shiftBits r l).length = l.length := by
  induction l with
  | nil => rfl
  | cons a rest ih =>
    cases rest with
    | nil => rfl
    | cons b rest => exact congrArg (· + 1) ih

theorem shiftBits_getD (r : Nat) (l : List Byte) {j : Nat} (hj : j < l.length) :
    (shiftBits r l).getD j 0 = joinBits r (l.getD j 0) (l.getD (j + 1) 0) := by
  induction l generalizing j with
  | nil => exact absurd hj (Nat.not_lt_zero _)
  | cons a rest ih =>
    cases rest with
    | nil =>
      obtain rfl : j = 0 := by simpa using hj
      rfl
    | cons b rest =>
      cases j with
      | zero => rfl
      | succ j => exact ih (by simpa using hj)

theorem frameAt_length {stream : List Byte} {i : Nat} (h : i + 4304 ≤ 8 * stream.length) :
    (frameAt stream i).length = 538 := by
  rw [frameAt, List.length_take, shiftBits_length, List.length_drop]
  omega

theorem frameAt_getMsbD {stream : List Byte} {i k : Nat} (h : i + 4304 ≤ 8 * stream.length) (hk : k < 4304) :
    ((frameAt stream i).getD (k / 8) 0).getMsbD (k % 8) = (stream.getD ((i + k) / 8) 0).getMsbD ((i + k) % 8) := by
  have hdrop (j : Nat) : (stream.drop (i / 8)).getD j 0 = stream.getD (i / 8 + j) 0 := by
    rw [List.getD_eq_getElem?_getD, List.getD_eq_getElem?_getD, List.getElem?_drop]
  have htake : (frameAt stream i).getD (k / 8) 0 = (shiftBits (i % 8) (stream.drop (i / 8))).getD (k / 8) 0 := by
    rw [frameAt, List.getD_eq_getElem?_getD, List.getD_eq_getElem?_getD, List.getElem?_take, if_pos (by omega)]
  rw [htake, shiftBits_getD _ _ (by rw [List.length_drop]; omega), hdrop, hdrop,
    joinBits_getMsbD _ _ (Nat.mod_lt _ (by decide)) (Nat.mod_lt _ (by decide))]
  split
  · rw [show (i + k) / 8 = i / 8 + k / 8 by omega, show (i + k) % 8 = i % 8 + k % 8 by omega]
  · rw [show (i + k) / 8 = i / 8 + (k / 8 + 1) by omega, show (i + k) % 8 = i % 8 + k % 8 - 8 by omega]

/-! ### The hunt -/

theorem alignmentGood_iff (bytes : List Byte) : alignmentGood bytes = true ↔
    256 * (bytes.getD 0 0).toNat + (bytes.getD 1 0).toNat = 0x3AC5 := by
  simp [alignmentGood, word16, byteAt, Config.alignmentWord]

theorem State.hunt_found {s : State} {stream : List Byte} {first k : Nat} (hf : first ≤ k)
    (hk : k + 4304 ≤ 8 * stream.length) (hw : alignmentGood (frameAt stream k) = true)
    (hlow : ∀ j, first ≤ j → j < k → ¬ alignmentGood (frameAt stream j) = true) :
    s.hunt stream first = { s with port := { s.port with trial := some (k % 4304), run := 1 } } := by
  have hfind : (arrivalsFrom stream first).find? (fun k => alignmentGood (frameAt stream k)) = some k := by
    refine List.find?_range'_eq_some.2 ⟨hw, ?_, fun j h1 h2 => by simpa using hlow j h1 h2⟩
    rw [List.mem_range'_1, frameBits]
    omega
  rw [State.hunt, hfind]
  rfl

theorem State.hunt_lost {s : State} {stream : List Byte} {first : Nat}
    (h : ∀ k, first ≤ k → k + 4304 ≤ 8 * stream.length → ¬ alignmentGood (frameAt stream k) = true) :
    s.hunt stream first = { s with port := { s.port with trial := none, run := 0 } } := by
  have hfind : (arrivalsFrom stream first).find? (fun k => alignmentGood (frameAt stream k)) = none := by
    refine List.find?_range'_eq_none.2 fun k h1 h2 => ?_
    rw [frameBits] at h2
    simpa using h k h1 (by omega)
  rw [State.hunt, hfind]
  rfl

/-- The receiver by its status: hunting, with a trial position, without a position, and aligned. -/
theorem State.receiveCarriage_cases {s u : State} (position : Nat) (bytes : List Byte)
    (hu : u = { s with port := { s.port with stream := frameAt bytes position } }) :
    let before := s.port.stream
    let stream := before ++ frameAt bytes position
    let t := s.receiveCarriage position bytes
    (s.port.los = true → s.port.trial = none → t = u.hunt stream (firstArrival before))
    ∧ (∀ q, s.port.los = true → s.port.trial = some q → t = u.receiveTrial stream q (arrivalAt before q))
    ∧ (s.port.los = false → s.port.position = none → t = u)
    ∧ (∀ q, s.port.los = false → s.port.position = some q → t = u.receiveAligned stream (arrivalAt before q)) := by
  intro before stream t
  have ht : t = if s.port.los then
        (match s.port.trial with
        | none => u.hunt stream (firstArrival before)
        | some q => u.receiveTrial stream q (arrivalAt before q))
      else match s.port.position with
        | none => u
        | some q => u.receiveAligned stream (arrivalAt before q) := by
    rw [hu]; rfl
  refine ⟨fun hl h => ?_, fun q hl h => ?_, fun hl h => ?_, fun q hl h => ?_⟩
  · rw [ht, if_pos hl, h]
  · rw [ht, if_pos hl, h]
  · rw [ht, if_neg (by rw [hl]; decide), h]
  · rw [ht, if_neg (by rw [hl]; decide), h]

/-- Settles O21: the bits of a frame, the receiver by its status, and the declaration of FIBRE_LOS. -/
theorem carriageFramesAreFound : Obligations.CarriageFramesAreFound := by
  refine ⟨fun stream i h => ⟨frameAt_length h, fun k hk => frameAt_getMsbD h hk⟩, fun position bytes s hs => ?_, fun s => ?_⟩
  · intro run before stream u word place hunts p
    have hrun : run = .next (s.receiveCarriage position bytes) := congrArg Host.Outcome.next (State.event_rests hs _)
    have hword (i : Nat) : alignmentGood (frameAt stream i) = true ↔ word i := alignmentGood_iff _
    have hhunts {v : State} {first : Nat} (h : run = .next (v.hunt stream first)) : hunts v first := by
      refine ⟨fun k h1 h2 h3 h4 => ?_, fun h1 => ?_⟩
      · rw [h, State.hunt_found h1 h2 ((hword k).2 h3) (fun j h5 h6 => mt (hword j).1 (h4 j h5 h6))]
      · rw [h, State.hunt_lost (fun k h2 h3 => mt (hword k).1 (h1 k h2 h3))]
    have hplace (q : Nat) : arrivalAt before q = place q := rfl
    obtain ⟨c1, c2, c3, c4⟩ := State.receiveCarriage_cases (s := s) (u := u) position bytes rfl
    refine ⟨fun hl ht => hhunts (hrun.trans (congrArg Host.Outcome.next (c1 hl ht))), fun q hl ht => ?_,
      fun hl hq => hrun.trans (congrArg Host.Outcome.next (c3 hl hq)), fun q hl hq => ?_⟩
    · have htrial : run = .next (u.receiveTrial stream q (place q)) :=
        hrun.trans (congrArg Host.Outcome.next (c2 q hl ht))
      refine ⟨fun hw => hhunts (htrial.trans (congrArg Host.Outcome.next (if_neg (mt (hword _).1 hw)))),
        fun hw hr => ?_, fun hw hr => ?_⟩
      · rw [htrial, State.receiveTrial, if_pos ((hword _).2 hw), if_neg (by rw [show u.port.run = p.run from rfl]; omega)]
      · rw [htrial, State.receiveTrial, if_pos ((hword _).2 hw), if_pos (by rw [show u.port.run = p.run from rfl]; omega)]
        rfl
    · have haligned : run = .next (u.receiveAligned stream (place q)) :=
        hrun.trans (congrArg Host.Outcome.next (c4 q hl hq))
      refine ⟨fun hw => haligned.trans (congrArg Host.Outcome.next (if_pos ((hword _).2 hw))), fun hw hr => ?_,
        fun hw hr => hhunts (haligned.trans (congrArg Host.Outcome.next ?_))⟩
      · rw [haligned, State.receiveAligned, if_neg (mt (hword _).1 hw),
          if_neg (by rw [show u.port.run = p.run from rfl]; omega)]
      · rw [State.receiveAligned, if_neg (mt (hword _).1 hw), if_pos (by rw [show u.port.run = p.run from rfl]; omega)]
  · intro t
    obtain ⟨v, hv⟩ : ∃ v : State, v = { s with port := { s.port with
        los := true, run := 0, trial := none, position := none, heldCodes := s.port.codes
        codes := Table.fill 512 Config.vacant, samples := Table.fill 512 0xFF, tf := none, lossMark := true } } := ⟨_, rfl⟩
    have ht : t = (v.declare .fibreLos 0).reconditionAll (v.declare .fibreLos 0).fibreOnly := by rw [hv]; rfl
    have hport : t.port = v.port := by
      rw [ht, (FaultsActed.reconditionAll _ _).port, (FaultsActed.declare _ _ _).port]
    have hfault : t.fault .fibreLos 0 = (v.declare .fibreLos 0).fault .fibreLos 0 :=
      State.fault_congr (by rw [ht, State.faults_reconditionAll]) _ _
    have hrecord : v.fault .fibreLos 0 = s.fault .fibreLos 0 := State.fault_congr (by rw [hv]) _ _
    rw [State.fault_declare v .fibreLos (by decide), hrecord] at hfault
    have hcode (k : Nat) (hk : k < 512) : t.slotCode k = 15 := by
      rw [State.slotCode, hport, hv]
      exact Table.at_fill _ _ hk
    rw [hport]
    refine ⟨by rw [hv], by rw [hv], by rw [hv], by rw [hv], by rw [hv], fun k hk => ⟨hcode k hk, ?_, ?_, ?_⟩, by rw [hfault],
      fun he => ?_, by rw [hv]⟩
    · rw [State.slotLive, hcode k hk]; decide
    · rw [hv]; exact Table.at_fill _ _ hk
    · rw [hv]; exact Table.at_default _ _ _ hk
    · rw [hfault, he]
      exact ⟨Bool.or_true _, Bool.or_true _⟩

end Sys2Proof.Machine
end

section
/-! Received copper frames (R42 to R48, R88). -/

namespace Sys2Proof.Machine

/-! ### The records of a frame -/

/-- The span's record after a frame at one side, before the marker test. -/
def Span.recorded (x : Span) (side : Side) (correct spare : Bool) : Span :=
  let f := (x.framing side).examine correct
  match side with
  | .line => { x.setFraming .line f with history := historyAfter x.history correct spare (!x.line.los && f.los) }
  | .switch => x.setFraming .switch f

theorem State.recordCopper_facts (s : State) (side : Side) {x : Nat} (hx : x < 16) (correct spare : Bool)
    (samples : List Byte) (codes : List CodeArrival) :
    let f := ((s.span x).framing side).examine correct
    let t := s.recordCopper side x correct spare samples codes
    t = { s with spans := t.spans, channels := t.channels }
    ∧ (∀ y, t.span y = if y = x then (s.span x).recorded side correct spare else s.span y)
    ∧ ∀ n, t.channel n = if n / 30 = x then (s.channel n).modSide side (fun r =>
        r.step f correct (!((s.span x).framing side).los && f.los) samples codes (n % 30 + 1)) else s.channel n := by
  intro f t
  refine ⟨rfl, fun y => ?_, fun n => ?_⟩
  · refine (State.span_modSpan _ x y _).trans ?_
    by_cases hy : y = x
    · rw [if_pos ⟨hy, hx⟩, if_pos hy]
      cases side <;> rfl
    · rw [if_neg (fun h => hy h.1), if_neg hy]
      rfl
  · by_cases hn : n < 480
    · exact Table.at_mapIdx s.channels (fun n c => if spanOf n = x then c.modSide side (fun r =>
        r.step f correct (!((s.span x).framing side).los && f.los) samples codes (channelOf n)) else c)
        Channel.reset Channel.reset hn
    · rw [if_neg (by omega), State.channel, State.channel, Table.at_of_le _ _ (Nat.le_of_not_lt hn),
        Table.at_of_le _ _ (Nat.le_of_not_lt hn)]

/-- The run count and the status of a receiver (R44). -/
theorem Framing.examine_cases (f : Framing) (correct : Bool) :
    let g := f.examine correct
    g.good = (correct :: f.good).take 16
    ∧ (f.los = false → correct = true → g.los = false ∧ g.run = 0)
    ∧ (f.los = false → correct = false → f.run < 3 → g.los = false ∧ g.run = f.run + 1)
    ∧ (f.los = false → correct = false → 3 ≤ f.run → g.los = true ∧ g.run = 0)
    ∧ (f.los = true → correct = false → g.los = true ∧ g.run = 0)
    ∧ (f.los = true → correct = true → f.run < 2 → g.los = true ∧ g.run = f.run + 1)
    ∧ (f.los = true → correct = true → 2 ≤ f.run → g.los = false ∧ g.run = 0) := by
  intro g
  have hg : g = f.examine correct := rfl
  refine ⟨?_, fun hl hc => ?_, fun hl hc hr => ?_, fun hl hc hr => ?_, fun hl hc => ?_, fun hl hc hr => ?_,
    fun hl hc hr => ?_⟩
  · rw [hg, Framing.examine]
    split
    · split
      · split <;> rfl
      · rfl
    · split
      · rfl
      · split <;> rfl
  · simp [hg, Framing.examine, hl, hc]
  · simp [hg, Framing.examine, hl, hc, show ¬ 3 ≤ f.run by omega]
  · simp [hg, Framing.examine, hl, hc, show 3 ≤ f.run by omega]
  · simp [hg, Framing.examine, hl, hc]
  · simp [hg, Framing.examine, hl, hc, show ¬ 2 ≤ f.run by omega]
  · simp [hg, Framing.examine, hl, hc, show 2 ≤ f.run by omega]

/-! ### Codes -/

theorem arrivalComplete_iff (a : CodeArrival) (f : Framing) :
    arrivalComplete a f = true ↔ ∀ k, k ∈ a.parts → f.good[k]? = some true := by
  rw [arrivalComplete, List.all_eq_true]
  refine forall₂_congr fun k _ => ?_
  rw [List.getD_eq_getElem?_getD]
  cases f.good[k]? <;> simp

/-- The code a frame completes for a channel is that of the last arrival that is complete. -/
theorem completedCode_eq {f : Framing} {channel : Nat} {pre post : List CodeArrival} {a : CodeArrival}
    (ha : a.channel = channel ∧ ∀ k, k ∈ a.parts → f.good[k]? = some true)
    (hpost : ∀ b, b ∈ post → ¬ (b.channel = channel ∧ ∀ k, k ∈ b.parts → f.good[k]? = some true)) :
    completedCode f (pre ++ a :: post) channel = some a.code := by
  have hiff (b : CodeArrival) : (b.channel == channel && arrivalComplete b f) = true ↔
      b.channel = channel ∧ ∀ k, k ∈ b.parts → f.good[k]? = some true := by
    rw [Bool.and_eq_true, beq_iff_eq, arrivalComplete_iff]
  have hfind : (pre ++ a :: post).reverse.find? (fun b => b.channel == channel && arrivalComplete b f) = some a := by
    refine List.find?_eq_some_iff_append.2 ⟨(hiff a).2 ha, post.reverse, pre.reverse, by simp, fun b hb => ?_⟩
    rw [Bool.not_eq_true']
    exact Bool.eq_false_iff.2 (mt (hiff b).1 (hpost b (List.mem_reverse.1 hb)))
  rw [completedCode, hfind]
  rfl

theorem completedCode_none {f : Framing} {channel : Nat} {codes : List CodeArrival}
    (h : ∀ a, a ∈ codes → ¬ (a.channel = channel ∧ ∀ k, k ∈ a.parts → f.good[k]? = some true)) :
    completedCode f codes channel = none := by
  have hfind : codes.reverse.find? (fun b => b.channel == channel && arrivalComplete b f) = none := by
    refine List.find?_eq_none.2 fun b hb he => h b (List.mem_reverse.1 hb) ?_
    rwa [Bool.and_eq_true, beq_iff_eq, arrivalComplete_iff] at he
  rw [completedCode, hfind]
  rfl

/-- What a frame makes of one channel at its side. -/
theorem Recovered.step_cases (r : Recovered) (f : Framing) (correct lost : Bool) {samples : List Byte}
    (codes : List CodeArrival) {n : Nat} (hs : samples.length = 30) :
    let completes (a : CodeArrival) : Prop := a.channel = n % 30 + 1 ∧ ∀ k, k ∈ a.parts → f.good[k]? = some true
    let now := r.step f correct lost samples codes (n % 30 + 1)
    now.sample = (if correct then samples.getD (n % 30) 0 else r.sample)
    ∧ (correct = false ∨ (∀ a, a ∈ codes → ¬ completes a) → now.code = r.code)
    ∧ (correct = true → ∀ pre a post, codes = pre ++ a :: post → completes a → (∀ b, b ∈ post → ¬ completes b) →
        now.code = a.code)
    ∧ now.held = (if lost then now.code else r.held) := by
  intro completes now
  obtain ⟨r1, hr1⟩ : ∃ r1, r1 = if correct then r.recover f samples codes (n % 30 + 1) else r := ⟨_, rfl⟩
  have hnow : now = if lost then { r1 with held := r1.code } else r1 := by rw [hr1]; rfl
  have hsample : now.sample = r1.sample := by rw [hnow]; split <;> rfl
  have hcode : now.code = r1.code := by rw [hnow]; split <;> rfl
  have hheld : r1.held = r.held := by rw [hr1]; split <;> rfl
  refine ⟨?_, fun h => ?_, fun hc pre a post hl ha hpost => ?_, ?_⟩
  · rw [hsample, hr1]
    split
    · have hlt : n % 30 < samples.length := by rw [hs]; exact Nat.mod_lt _ (by decide)
      exact (List.getD_eq_getElem _ _ hlt).trans (List.getD_eq_getElem _ _ hlt).symm
    · rfl
  · rw [hcode, hr1]
    rcases h with h | h
    · rw [if_neg (by rw [h]; decide)]
    · split
      · show (completedCode f codes (n % 30 + 1)).getD r.code = _
        rw [completedCode_none h]
        rfl
      · rfl
  · rw [hcode, hr1, if_pos hc, hl]
    show (completedCode f (pre ++ a :: post) (n % 30 + 1)).getD r.code = _
    rw [completedCode_eq ha hpost]
    rfl
  · rw [hcode, hnow]
    split
    · rfl
    · exact hheld

/-! ### The hand-over of a loss -/

theorem State.fault_clearFault (s : State) (k : FaultKind) {x : Nat} (hx : x < 16) :
    ((s.clearFault k x).fault k x).declared = false := by
  cases he : (s.fault k x).enabled
  · rw [State.clearFault_disabled he, State.fault_setFault_same _ _ _ hx]
  · rw [State.clearFault_enabled he, State.fault_congr (State.records_ceaseLive _ _ _)]
    show ((s.setFault k x _).fault k x).declared = false
    rw [State.fault_setFault_same _ _ _ hx]

theorem FaultsActed.handLoss (s : State) (side : Side) (x : Nat) (before after : Bool) :
    FaultsActed s (s.handLoss side x before after) :=
  FaultsActed.ite (FaultsActed.refl s) (FaultsActed.ite (FaultsActed.declare _ _ s) (FaultsActed.clearFault _ _ s))

theorem State.fault_handLoss (s : State) (side : Side) {x : Nat} (hx : x < 16) (before after : Bool) :
    ((s.handLoss side x before after).fault (lossKind side) x).declared
      = if before = after then (s.fault (lossKind side) x).declared else after := by
  unfold State.handLoss
  by_cases h : before = after
  · rw [if_pos h, if_pos h]
  · rw [if_neg h, if_neg h]
    cases after
    · exact State.fault_clearFault _ _ hx
    · rw [if_pos rfl, State.fault_declare _ _ hx]

/-! ### The marker -/

theorem isCopperMarker_iff (history : List Bool) (correct spare : Bool) : isCopperMarker history correct spare
    = (correct && spare && history == List.replicate 7 false) := by
  have h : (decide (history.length = 7) && history.all (fun b => !b)) = (history == List.replicate 7 false) := by
    rw [Bool.eq_iff_iff, Bool.and_eq_true, decide_eq_true_iff, List.all_eq_true, beq_iff_eq, List.eq_replicate_iff]
    simp
  rw [isCopperMarker, Bool.and_assoc, h]

/-- The Fault Unit does not read the records of spans and channels to clear MARKER_LOSS. -/
theorem State.clearFault_markerLoss_copper (s : State) (x : Nat) (sp : Vector Span 16) (ch : Vector Channel 480) :
    State.clearFault { s with spans := sp, channels := ch } .markerLoss x
      = { s.clearFault .markerLoss x with spans := sp, channels := ch } := by
  rw [State.clearFault_markerLoss, State.clearFault_markerLoss]
  show (if (s.fault .markerLoss x).enabled then _ else _) = _
  split <;> rfl

theorem State.markSpan_facts (s : State) {x : Nat} (hx : x < 16) :
    let t := s.markSpan x
    t.span x = { s.span x with tc := some s.frameCount, tested := true, lossCount := 0, markerLoss := false }
    ∧ (∀ y, y ≠ x → t.span y = s.span y)
    ∧ t = { (if (s.span x).markerLoss then s.clearFault .markerLoss x else s) with spans := t.spans } := by
  intro t
  obtain ⟨v, hv⟩ : ∃ v, v = s.modSpan x (fun y => { y with tc := some s.frameCount, tested := true, lossCount := 0 }) :=
    ⟨_, rfl⟩
  have hvx (y : Nat) : v.span y = if y = x then
      { s.span x with tc := some s.frameCount, tested := true, lossCount := 0 } else s.span y := by
    rw [hv, State.span_modSpan]
    by_cases hy : y = x
    · rw [if_pos ⟨hy, hx⟩, if_pos hy]
    · rw [if_neg (fun h => hy h.1), if_neg hy]
  have ht : t = v.clearMarkerLoss x := by rw [hv]; rfl
  have hloss : (v.span x).markerLoss = (s.span x).markerLoss := by rw [hvx, if_pos rfl]
  by_cases hm : (s.span x).markerLoss = true
  · obtain ⟨w, hw⟩ : ∃ w, w = v.modSpan x (fun y => { y with markerLoss := false }) := ⟨_, rfl⟩
    have ht' : t = w.clearFault .markerLoss x := by rw [ht, State.clearMarkerLoss, if_pos (hloss.trans hm), hw]
    have hts : t.spans = w.spans := by rw [ht', (FaultsActed.clearFault _ _ _).same]
    have hwx (y : Nat) : w.span y = if y = x then { v.span x with markerLoss := false } else v.span y := by
      rw [hw, State.span_modSpan]
      by_cases hy : y = x
      · rw [if_pos ⟨hy, hx⟩, if_pos hy]
      · rw [if_neg (fun h => hy h.1), if_neg hy]
    refine ⟨?_, fun y hy => ?_, ?_⟩
    · rw [State.span_congr hts, hwx, if_pos rfl, hvx, if_pos rfl]
    · rw [State.span_congr hts, hwx, if_neg hy, hvx, if_neg hy]
    · rw [if_pos hm, hts, ht', show w = { s with spans := w.spans } by rw [hw, hv]; rfl]
      exact State.clearFault_markerLoss_spans s x _
  · have ht' : t = v := by rw [ht, State.clearMarkerLoss, if_neg (by rw [hloss]; exact hm)]
    rw [if_neg hm, ht']
    refine ⟨?_, fun y hy => ?_, by rw [hv]; rfl⟩
    · rw [hvx, if_pos rfl]
      have : (s.span x).markerLoss = false := Bool.not_eq_true _ ▸ hm
      rw [← this]
    · rw [hvx, if_neg hy]

theorem State.formD_facts (s : State) (x : Nat) :
    let t := s.formD x
    t = { s with contexts := t.contexts }
    ∧ ∀ c, c < 8 → t.ctx c = match s.port.tf with
      | some tf =>
        if (s.ctx c).state = .measure ∧ (s.ctx c).running = true ∧ (s.ctx c).n < (s.ctx c).attemptN
            ∧ (s.ctx c).circuit / 30 = x then
          (s.ctx c).takeD (differentialDelay s.frameCount tf)
        else s.ctx c
      | none => s.ctx c := by
  intro t
  have ht : t = s.formD x := rfl
  unfold State.formD at ht
  cases htf : s.port.tf with
  | none =>
    rw [htf] at ht
    rw [ht]
    exact ⟨rfl, fun _ _ => rfl⟩
  | some tf =>
    rw [htf] at ht
    refine ⟨by rw [ht]; rfl, fun c hc => ?_⟩
    rw [ht]
    refine (Table.at_mapIdx s.contexts (fun _ y => if y.measuresOn x then y.takeD (differentialDelay s.frameCount tf)
      else y) Ctx.reset Ctx.reset hc).trans ?_
    refine if_congr ?_ rfl rfl
    simp [Ctx.measuresOn, spanOf, and_assoc, State.ctx]

end Sys2Proof.Machine
end

section
/-! COPPER_FRAME_RECEIVE in full (R42 to R48, R88). -/

namespace Sys2Proof.Machine

/-- The spare-bit history after a frame (R47). -/
theorem historyAfter_eq (history : List Bool) (correct spare lost : Bool) : historyAfter history correct spare lost
    = if lost || !correct then [] else (history ++ [spare]).drop (if history.length < 7 then 0 else 1) := by
  unfold historyAfter
  cases lost <;> cases correct
  · rfl
  · by_cases h : history.length < 7
    · simp [h]
    · cases history with
      | nil => simp at h
      | cons b rest => simp only [h, if_false]; rfl
  · rfl
  · rfl

/-- What a copper frame comes to: the state in front of the hand-over, and after it. -/
theorem State.receiveCopper_switch (s : State) (x : Nat) (pattern : BitVec 7) (spare : Bool) (samples : List Byte)
    (codes : List CodeArrival) :
    let v := s.recordCopper .switch x (pattern == 0b1010110#7) spare samples codes
    s.receiveCopper .switch x pattern spare samples codes
      = v.handLoss .switch x (s.span x).switch.los (v.span x).switch.los := rfl

theorem State.receiveCopper_line (s : State) (x : Nat) (pattern : BitVec 7) (spare : Bool) (samples : List Byte)
    (codes : List CodeArrival) :
    let v := s.recordCopper .line x (pattern == 0b1010110#7) spare samples codes
    s.receiveCopper .line x pattern spare samples codes
      = if isCopperMarker (s.span x).history (pattern == 0b1010110#7) spare then
          ((v.handLoss .line x (s.span x).line.los (v.span x).line.los).markSpan x).formD x
        else (v.missMarker x).handLoss .line x (s.span x).line.los (v.span x).line.los := rfl

/-- The span's record that a frame leaves. -/
def Span.after (x : Span) (side : Side) (correct spare marker present : Bool) (now : Nat) : Span :=
  let r := x.recorded side correct spare
  match side with
  | .switch => r
  | .line =>
    if marker then { r with tc := some now, tested := true, lossCount := 0, markerLoss := false } else r.missMarker present

/-- The hand-over of a loss behind a change of the records of spans and channels. -/
theorem State.handLoss_facts {s w : State} (hw : w = { s with spans := w.spans, channels := w.channels }) (side : Side)
    {x : Nat} (hx : x < 16) (before after : Bool) :
    let t := w.handLoss side x before after
    t.spans = w.spans ∧ t.channels = w.channels
    ∧ (t.fault (lossKind side) x).declared
        = (if before = after then (s.fault (lossKind side) x).declared else after)
    ∧ t = State.handLoss { s with spans := t.spans, channels := t.channels } side x before after
    ∧ (before = after → t = w) := by
  intro t
  have h := FaultsActed.handLoss w side x before after
  have hs : t.spans = w.spans := by rw [show t = _ from h.same]
  have hc : t.channels = w.channels := by rw [show t = _ from h.same]
  have hf : w.fault (lossKind side) x = s.fault (lossKind side) x := State.fault_congr (by rw [hw]) _ _
  refine ⟨hs, hc, ?_, ?_, fun he => if_pos he⟩
  · rw [← hf]; exact State.fault_handLoss w side hx before after
  · rw [hs, hc, ← hw]

theorem State.fault_clearMarker (s : State) {x : Nat} (hx : x < 16) :
    (s.clearFault .markerLoss x).fault .copperLos x = s.fault .copperLos x := by
  rw [State.clearFault_markerLoss]
  split
  · exact State.fault_setFault_other s _ hx hx (.inl (by decide))
  · exact State.fault_setFault_other s _ hx hx (.inl (by decide))

/-- The records of spans and channels, the declared mark and the state that a frame leaves. -/
theorem State.receiveCopper_facts (s : State) (side : Side) {x : Nat} (hx : x < 16) (pattern : BitVec 7) (spare : Bool)
    (samples : List Byte) (codes : List CodeArrival) :
    let correct := pattern == 0b1010110#7
    let old := s.span x
    let f := (old.framing side).examine correct
    let marker := side == .line && correct && spare && old.history == List.replicate 7 false
    let t := s.receiveCopper side x pattern spare samples codes
    t.span x = old.after side correct spare marker s.peerPresent s.frameCount
    ∧ (∀ y, y ≠ x → t.span y = s.span y)
    ∧ (∀ n, t.channel n = if n / 30 = x then (s.channel n).modSide side (fun r =>
        r.step f correct (!(old.framing side).los && f.los) samples codes (n % 30 + 1)) else s.channel n)
    ∧ (t.fault (lossKind side) x).declared
        = (if (old.framing side).los = f.los then (s.fault (lossKind side) x).declared else f.los)
    ∧ (marker = false → t = State.handLoss { s with spans := t.spans, channels := t.channels } side x
        (old.framing side).los f.los)
    ∧ (marker = true → (old.framing side).los = f.los →
        t = { (if old.markerLoss then s.clearFault .markerLoss x else s) with
          spans := t.spans, channels := t.channels, contexts := t.contexts }
        ∧ ∀ c, c < 8 → t.ctx c = match s.port.tf with
          | some tf =>
            if (s.ctx c).state = .measure ∧ (s.ctx c).running = true ∧ (s.ctx c).n < (s.ctx c).attemptN
                ∧ (s.ctx c).circuit / 30 = x then
              (s.ctx c).takeD (differentialDelay s.frameCount tf)
            else s.ctx c
          | none => s.ctx c) := by
  intro correct old f marker t
  obtain ⟨v, hv⟩ : ∃ v, v = s.recordCopper side x correct spare samples codes := ⟨_, rfl⟩
  obtain ⟨v1, v2, v3⟩ := s.recordCopper_facts side hx correct spare samples codes
  rw [← hv] at v1 v2 v3
  have hlos : ((v.span x).framing side).los = f.los := by
    rw [v2, if_pos rfl]
    cases side <;> rfl
  have hchannels {u : State} (hu : u.channels = v.channels) (n : Nat) : u.channel n = v.channel n :=
    congrArg (fun l => Table.at l Channel.reset n) hu
  cases side
  case switch =>
    have ht : t = v.handLoss .switch x (old.framing .switch).los f.los := by
      rw [← hlos, hv]
      exact s.receiveCopper_switch x pattern spare samples codes
    obtain ⟨h1, h2, h3, h4, -⟩ := State.handLoss_facts v1 .switch hx (old.framing .switch).los f.los
    rw [← ht] at h1 h2 h3 h4
    exact ⟨by rw [State.span_congr h1, v2, if_pos rfl]; rfl, fun y hy => by rw [State.span_congr h1, v2, if_neg hy],
      fun n => (hchannels h2 n).trans (v3 n), h3, fun _ => h4, fun h => absurd (show false = true from h) (by decide)⟩
  case line =>
    have ht : t = if marker then ((v.handLoss .line x (old.framing .line).los f.los).markSpan x).formD x
        else (v.missMarker x).handLoss .line x (old.framing .line).los f.los := by
      have hmarker : marker = isCopperMarker old.history correct spare := (isCopperMarker_iff _ _ _).symm
      rw [← hlos, hv, hmarker]
      exact s.receiveCopper_line x pattern spare samples codes
    by_cases hm : marker = true
    · rw [if_pos hm] at ht
      obtain ⟨h1, h2, h3, -, h5⟩ := State.handLoss_facts v1 .line hx (old.framing .line).los f.los
      have hacted := (FaultsActed.handLoss v .line x (old.framing .line).los f.los).same
      obtain ⟨a, ha⟩ : ∃ a, a = v.handLoss .line x (old.framing .line).los f.los := ⟨_, rfl⟩
      rw [← ha] at h1 h2 h3 h5 hacted ht
      obtain ⟨m1, m2, m3⟩ := a.markSpan_facts hx
      obtain ⟨d1, d2⟩ := (a.markSpan x).formD_facts x
      obtain ⟨m, hmdef⟩ : ∃ m, m = a.markSpan x := ⟨_, rfl⟩
      rw [← hmdef] at m1 m2 m3 d1 d2 ht
      rw [← ht] at d1 d2
      have ax (y : Nat) : a.span y = v.span y := State.span_congr h1 y
      have hts : t.spans = m.spans := by rw [d1]
      have hmc : m.channels = v.channels := by
        rw [m3, ← h2]
        show (if _ then _ else _ : State).channels = _
        split
        · rw [(FaultsActed.clearFault _ _ _).same]
        · rfl
      have htc : t.channels = v.channels := by rw [d1]; exact hmc
      have hmf : m.fault .copperLos x = a.fault .copperLos x := by
        refine (State.fault_congr (s := if (a.span x).markerLoss then a.clearFault .markerLoss x else a)
          (by rw [m3]) _ _).trans ?_
        split
        · exact State.fault_clearMarker a hx
        · rfl
      have hnow : a.frameCount = s.frameCount := by rw [hacted, v1]
      have hold : (v.span x).markerLoss = old.markerLoss := by rw [v2, if_pos rfl]; rfl
      have hfault : t.fault .copperLos x = m.fault .copperLos x := State.fault_congr (by rw [d1]) _ _
      refine ⟨?_, fun y hy => ?_, fun n => (hchannels htc n).trans (v3 n), ?_, fun h => absurd hm (by rw [h]; decide),
        fun _ he => ?_⟩
      · rw [State.span_congr hts, m1, ax, v2, if_pos rfl, hnow, Span.after]
        exact (if_pos hm).symm
      · rw [State.span_congr hts, m2 y hy, ax, v2, if_neg hy]
      · rw [show lossKind .line = .copperLos from rfl, hfault, hmf]
        exact h3
      · have hav : a = v := h5 he
        rw [hav, hold] at m3
        have hmclear : (if old.markerLoss then v.clearFault .markerLoss x else v)
            = { (if old.markerLoss then s.clearFault .markerLoss x else s) with
              spans := v.spans, channels := v.channels } := by
          split
          · exact (congrArg (fun u => State.clearFault u .markerLoss x) v1).trans
              (State.clearFault_markerLoss_copper s x _ _)
          · exact v1
        rw [hmclear] at m3
        refine ⟨?_, fun c hc => ?_⟩
        · rw [hts, htc]
          refine d1.trans ?_
          rw [m3]
        · have hctx (k : Nat) : m.ctx k = s.ctx k := by
            refine State.ctx_congr ?_ k
            rw [m3]
            show (if _ then _ else _ : State).contexts = _
            split
            · rw [State.clearFault_markerLoss]; split <;> rfl
            · rfl
          have hport : m.port = s.port ∧ m.frameCount = s.frameCount := by
            rw [m3]
            show (if _ then _ else _ : State).port = _ ∧ (if _ then _ else _ : State).frameCount = _
            split
            · rw [(FaultsActed.clearFault _ _ _).same]; exact ⟨rfl, rfl⟩
            · exact ⟨rfl, rfl⟩
          rw [d2 c hc, hctx, hport.1, hport.2] <;> rfl
    · rw [if_neg hm] at ht
      obtain ⟨w, hw⟩ : ∃ w, w = v.missMarker x := ⟨_, rfl⟩
      have hwc : w.channels = v.channels := by rw [hw]; rfl
      have hwv : w = { v with spans := w.spans } := by rw [hw]; rfl
      have hws : w = { s with spans := w.spans, channels := w.channels } :=
        hwv.trans (by rw [hwc]; exact congrArg (fun u : State => { u with spans := w.spans }) v1)
      have hpresent : v.peerPresent = s.peerPresent := by rw [v1]; rfl
      have hwx (y : Nat) : w.span y = if y = x then (v.span x).missMarker s.peerPresent else v.span y := by
        rw [hw, State.missMarker, State.span_modSpan, hpresent]
        by_cases hy : y = x
        · rw [if_pos ⟨hy, hx⟩, if_pos hy]
        · rw [if_neg (fun h => hy h.1), if_neg hy]
      obtain ⟨h1, h2, h3, h4, -⟩ := State.handLoss_facts hws .line hx (old.framing .line).los f.los
      rw [← hw] at ht
      rw [← ht] at h1 h2 h3 h4
      refine ⟨?_, fun y hy => ?_, fun n => (hchannels (h2.trans hwc) n).trans (v3 n), h3, fun _ => h4,
        fun h => absurd h hm⟩
      · rw [State.span_congr h1, hwx, if_pos rfl, v2, if_pos rfl, Span.after]
        exact (if_neg hm).symm
      · rw [State.span_congr h1, hwx, if_neg hy, v2, if_neg hy]

/-- The fields of the span's record that a frame leaves. -/
theorem Span.after_fields (x : Span) (side : Side) (correct spare marker present : Bool) (now : Nat)
    (hside : marker = true → side = .line) :
    let f := (x.framing side).examine correct
    let lost := !(x.framing side).los && f.los
    let misses := side = .line ∧ x.tested = false ∧ x.state.cut = true ∧ present = true
    let y := x.after side correct spare marker present now
    y.framing side = f
    ∧ y.history = (if side = .switch then x.history else if lost || !correct then []
        else (x.history ++ [spare]).drop (if x.history.length < 7 then 0 else 1))
    ∧ y.tc = (if marker then some now else x.tc)
    ∧ (marker = true → y.lossCount = 0)
    ∧ (marker = false → misses → y.lossCount = min 1024 (x.lossCount + 1))
    ∧ (marker = false → ¬ misses → y.lossCount = x.lossCount)
    ∧ y.tested = (side == .line || x.tested)
    ∧ y.markerLoss = (!marker && x.markerLoss)
    ∧ y.state = x.state ∧ y.relay = x.relay := by
  intro f lost misses y
  cases side
  case switch =>
    obtain rfl : marker = false := Bool.eq_false_iff.2 fun h => absurd (hside h) (by decide)
    exact ⟨rfl, rfl, rfl, nofun, fun _ h => absurd h.1 (by decide), fun _ _ => rfl, rfl, rfl, rfl, rfl⟩
  case line =>
    obtain ⟨r, hr⟩ : ∃ r, r = x.recorded .line correct spare := ⟨_, rfl⟩
    have hhistory : r.history = if lost || !correct then []
        else (x.history ++ [spare]).drop (if x.history.length < 7 then 0 else 1) := by
      rw [hr]
      exact historyAfter_eq _ _ _ _
    cases marker
    case true =>
      have hy : y = { r with tc := some now, tested := true, lossCount := 0, markerLoss := false } := by rw [hr]; rfl
      refine ⟨by rw [hy, hr]; rfl, by rw [hy]; exact hhistory, by rw [hy]; rfl, fun _ => by rw [hy], nofun, nofun,
        by rw [hy]; rfl, by rw [hy]; rfl, by rw [hy, hr]; rfl, by rw [hy, hr]; rfl⟩
    case false =>
      have hy : y = r.missMarker present := by rw [hr]; rfl
      by_cases htest : x.tested = true
      · have hstay : y = r := hy.trans (if_pos (by rw [hr]; exact htest))
        refine ⟨by rw [hstay, hr]; rfl, by rw [hstay]; exact hhistory, by rw [hstay, hr]; rfl, nofun,
          fun _ h => absurd (htest.symm.trans h.2.1) (by decide), fun _ _ => by rw [hstay, hr]; rfl,
          by rw [hstay, hr]; exact htest, by rw [hstay, hr]; rfl, by rw [hstay, hr]; rfl, by rw [hstay, hr]; rfl⟩
      · have hmiss : y = { r with
            tested := true
            lossCount := if r.state.cut ∧ present then min Config.markerLossLimit (r.lossCount + 1) else r.lossCount } :=
          hy.trans (if_neg (by rw [hr]; exact htest))
        have hcount : y.lossCount = if x.state.cut = true ∧ present = true then min 1024 (x.lossCount + 1)
            else x.lossCount := by rw [hmiss, hr]; rfl
        refine ⟨by rw [hmiss, hr]; rfl, by rw [hmiss]; exact hhistory, by rw [hmiss, hr]; rfl, nofun,
          fun _ h => hcount.trans (if_pos h.2.2), fun _ h => hcount.trans (if_neg ?_),
          by rw [hmiss]; rfl, by rw [hmiss, hr]; rfl, by rw [hmiss, hr]; rfl, by rw [hmiss, hr]; rfl⟩
        exact fun hc => h ⟨rfl, Bool.not_eq_true _ ▸ htest, hc⟩

/-- Settles O20: the receiver's count and status, and the frame's records by side and marker. -/
theorem copperFramesAreReceived : Obligations.CopperFramesAreReceived := by
  refine ⟨Framing.examine_cases, fun side x pattern spare samples codes s hs hx hsamples => ?_⟩
  intro correct old f lost marker present misses
  obtain ⟨t, ht⟩ : ∃ t, t = s.receiveCopper side x pattern spare samples codes := ⟨_, rfl⟩
  obtain ⟨t1, t2, t3, t4, t5, t6⟩ := s.receiveCopper_facts side hx pattern spare samples codes
  rw [← ht] at t1 t2 t3 t4 t5 t6
  have hrun : exec (.copperFrameReceive side x pattern spare samples codes) s = .next t := by
    refine (congrArg Host.Outcome.next (State.event_rests hs _)).trans (congrArg Host.Outcome.next ?_)
    rw [ht]
    exact if_pos hx
  have hpresent : s.peerPresent = true ↔ present := s.peerPresent_iff
  have hside (hm : marker = true) : side = .line := by
    cases side
    · rfl
    · exact absurd (show false = true from hm) (by decide)
  obtain ⟨a1, a2, a3, a4, a5, a6, a7, a8, a9, a10⟩ :=
    old.after_fields side correct spare marker s.peerPresent s.frameCount hside
  rw [← t1] at a1 a2 a3 a4 a5 a6 a7 a8 a9 a10
  rw [hpresent] at a5 a6
  refine ⟨t, hrun, a1, a2, a3, a4, a5, a6, a7, a8, a9, a10, t2, fun n hn hnx => ?_,
    fun n hnx => by rw [t3, if_neg hnx], ?_, fun he hm => ?_, fun hne hm => ?_, fun he hm => ?_⟩
  · intro here there before now completes
    have hnow := t3 n
    rw [if_pos hnx] at hnow
    have hstep : now = before.step f correct lost samples codes (n % 30 + 1) := by
      show here (t.channel n) = _
      rw [hnow]
      cases side <;> rfl
    have hthere : there (t.channel n) = there (s.channel n) := by
      rw [hnow]
      cases side <;> rfl
    rw [hstep]
    exact ⟨hthere, before.step_cases f correct lost codes hsamples⟩
  · cases side <;> exact t4
  · exact (t5 hm).trans (if_pos he)
  · cases side <;> exact (t5 hm).trans (if_neg hne)
  · exact t6 hm he

end Sys2Proof.Machine
end

section
/-! Characters and line events of a control link (R169 to R171, R174). -/

namespace Sys2Proof.Machine

/-! ### Bytes on the line -/

theorem byteOfLine_lineBits (b : Byte) : byteOfLine (lineBits b) = b := by
  revert b
  decide

/-- The code form of a byte as a number (R171). -/
theorem isCodeByte_iff (b : Byte) : isCodeByte b = true ↔ 128 ≤ b.toNat ∧ b.toNat < 192 := by
  have h7 : b.getLsbD 7 = decide (128 ≤ b.toNat) := by
    have := BitVec.msb_eq_decide b
    rw [BitVec.msb_eq_getLsbD_last] at this
    exact this
  have h6 : b.getLsbD 6 = decide (b.toNat / 64 % 2 = 1) := by
    rw [BitVec.getLsbD, Nat.testBit_eq_decide_div_mod_eq]
  have hlt := b.isLt
  rw [isCodeByte, h7, h6, Bool.and_eq_true, Bool.not_eq_true', decide_eq_true_iff, decide_eq_false_iff_not]
  omega

/-! ### A link on which nothing waits -/

theorem frameComplete_iff (buffer : List Byte) : frameComplete buffer = true ↔
    3 ≤ buffer.length ∧ buffer.length = (buffer.getD 2 0).toNat + 5 := by
  simp [frameComplete, par, byteAt]

theorem State.settleLink_quiet {s : State} {l : Link} (hh : (s.link l).handed = none)
    (hb : ¬ (3 ≤ (s.link l).buffer.length ∧ (s.link l).buffer.length = ((s.link l).buffer.getD 2 0).toNat + 5)) :
    s.settleLink l = s := by
  have hj : s.judgeCommand l = s := if_neg (mt (frameComplete_iff _).1 hb)
  unfold State.settleLink
  simp only [hj, hh]

/-- A received character, by the receive state and the bytes that wait. -/
theorem LinkRec.character_eq (k : LinkRec) (b : Byte) : k.character b =
    if k.rx = .hunt ∧ 128 ≤ b.toNat ∧ b.toNat < 192 then { k with rx := .inFrame, buffer := [b] }
    else if k.rx = .inFrame ∧ k.buffer.length = 2 ∧ 40 < b.toNat then k.abandon
    else if k.rx = .inFrame then { k with buffer := k.buffer ++ [b] }
    else k := by
  unfold LinkRec.character
  simp only [← isCodeByte_iff]
  cases hrx : k.rx
  case hunt => simp
  case inFrame => simp
  case unsynced | syncWait | answering => simp

/-- Settles O53: each line event on a link on which neither a frame nor a command waits. -/
theorem lineEventsFollowTheReceiveState : Obligations.LineEventsFollowTheReceiveState := by
  intro l s hs k hh hb abandoned assembling bits
  have hquiet : s.settleLink l = s := State.settleLink_quiet hh hb
  have hline (act : LinkRec → LinkRec) : s.lineEvent l act = s.setLink l (act k) :=
    (State.event_rests hs _).trans (by rw [hquiet]; rfl)
  have hsame : s.setLink l k = s := s.setLink_same l
  have hite {p : Prop} [Decidable p] (a b : LinkRec) :
      s.setLink l (if p then a else b) = if p then s.setLink l a else s.setLink l b := apply_ite _ _ _ _
  have habandon : k.abandon = abandoned := rfl
  refine ⟨fun r => rfl, fun b => ?_, ?_, ?_, ?_, fun t ht => ?_, fun rate sampled stop => ?_⟩
  · refine congrArg Host.Outcome.next ((hline _).trans ?_)
    rw [show bits b = lineBits b from rfl, byteOfLine_lineBits, LinkRec.character_eq, hite, hite, hite, hsame,
      habandon]
  · refine congrArg Host.Outcome.next ((hline _).trans ?_)
    have hk : k.characterError = if assembling then abandoned else k := by
      unfold LinkRec.characterError
      simp only [assembling]
      cases hrx : k.rx <;> simp [habandon]
    rw [hk, hite, hsame]
  · refine congrArg Host.Outcome.next ((hline _).trans ?_)
    rw [LinkRec.gap, hite, hsame, habandon]
  · refine congrArg Host.Outcome.next ((hline _).trans ?_)
    have hk : k.responseSent = if k.response = none then k
        else { k with response := none, rx := if k.rx = .answering then .hunt else k.rx } := by
      unfold LinkRec.responseSent
      cases k.response <;> rfl
    rw [hk, hite, hsame]
  · have hrun : exec (.lineReset l) s = .next (s.resetLine l) :=
      congrArg Host.Outcome.next ((State.event_rests hs _).trans (by rw [hquiet]))
    rw [hrun, ht]
    cases l <;> rfl
  · intro good
    have hrun : exec (.syncCharacter l rate (bits sampled) stop) s
        = .next (s.setLink l (k.sync (s.closed l) rate sampled stop)) := by
      refine congrArg Host.Outcome.next ((State.event_rests hs _).trans ?_)
      rw [hquiet, show bits sampled = lineBits sampled from rfl, byteOfLine_lineBits]
      rfl
    have hgood : syncGood rate sampled stop = true ↔ good := by
      simp [syncGood, good, and_assoc]
    have hclosed : s.closed l = true ↔ l = .b ∧ s.map.applyPending = true := by
      simp [State.closed]
    have hk : k.sync (s.closed l) rate sampled stop = if k.rx ≠ .syncWait then k
        else if good then { k with
          rate := some rate, rx := if l = .b ∧ s.map.applyPending = true then .answering else .hunt }
        else { k with rx := .unsynced, framingErrors := min 65535 (k.framingErrors + 1) } := by
      unfold LinkRec.sync
      simp only [hgood, hclosed, ne_eq, ite_not]
    rw [hrun, hk, hite, hite, hsame]

end Sys2Proof.Machine
end

section
/-! Command frames: the catalogue reads back what a controller sends, and how a complete frame is judged (R172, R173). -/

namespace Sys2Proof.Machine

/-! ### The catalogue -/

theorem byteNat {n : Nat} (h : fitsByte n = true) : n % 256 = n :=
  Nat.mod_eq_of_lt (of_decide_eq_true h)

theorem wordNat {n : Nat} (h : fitsWord n = true) : 256 * (n / 256 % 256) + n % 256 = n := by
  have : n < 65536 := of_decide_eq_true h
  omega

/-- The level bytes, and the threshold behind them. -/
theorem levels_bytes {levels : List Nat} (threshold : Nat) (hl : levels.length = 18) (h : levels.all fitsByte = true) :
    let p := levels.flatMap u8 ++ u8 threshold
    p.length = 19 ∧ (p.take 18).map BitVec.toNat = levels ∧ byteAt p 18 = BitVec.ofNat 8 threshold := by
  intro p
  have hbytes : levels.flatMap u8 = levels.map (BitVec.ofNat 8) := by
    rw [List.map_eq_flatMap]; rfl
  have hlen : (levels.map (BitVec.ofNat 8)).length = 18 := by rw [List.length_map, hl]
  have hp : p = levels.map (BitVec.ofNat 8) ++ [BitVec.ofNat 8 threshold] := by rw [← hbytes]; rfl
  rw [hp]
  refine ⟨by rw [List.length_append, hlen]; rfl, ?_, ?_⟩
  · rw [← hlen, List.take_left, List.map_map]
    refine (List.map_congr_left fun n hn => ?_).trans (List.map_id levels)
    exact byteNat (List.all_eq_true.1 h n hn)
  · rw [byteAt, List.getD_eq_getElem?_getD, List.getElem?_append_right (by omega), hlen]
    rfl

/-- The catalogue reads back the command that a controller sends. -/
theorem catalogue_sentCommand {i : Instr} {l : Link} {role : CommandRole} {code : Nat} {p : List Byte}
    (hw : i.wellFormed = true) (hi : sentCommand i = some (l, role, code, p)) :
    p.length ≤ 40 ∧ code < 256 ∧ catalogue l p code = some (role, p.length, i) := by
  cases i
  case setNoticeLevels k levels threshold =>
    simp only [sentCommand, Option.some.injEq, Prod.mk.injEq] at hi
    obtain ⟨rfl, rfl, rfl, rfl⟩ := hi
    simp only [Instr.wellFormed, Bool.and_eq_true, decide_eq_true_iff] at hw
    obtain ⟨⟨hl, hall⟩, hthreshold⟩ := hw
    obtain ⟨h1, h2, h3⟩ := levels_bytes threshold hl hall
    have hcat : catalogue k (levels.flatMap u8 ++ u8 threshold) 0xAB = some (.either, 19, .setNoticeLevels k
        (((levels.flatMap u8 ++ u8 threshold).take 18).map BitVec.toNat) (par (levels.flatMap u8 ++ u8 threshold) 18)) := rfl
    rw [hcat, h1, h2, par, h3, BitVec.toNat_ofNat, show threshold % 2 ^ 8 = threshold from byteNat hthreshold]
    exact ⟨by decide, by decide, rfl⟩
  all_goals
    simp only [sentCommand, Option.some.injEq, Prod.mk.injEq, reduceCtorEq] at hi
  all_goals
    obtain ⟨rfl, rfl, rfl, rfl⟩ := hi
    simp only [Instr.wellFormed, Bool.and_eq_true, List.all_cons, List.all_nil] at hw
    simp [catalogue, par, par16, byteAt, word16, u8, u16, byteNat, wordNat, hw]

/-- There is no command below code 0x80 and above 0xAB. -/
theorem catalogue_unknown (l : Link) (p : List Byte) {n : Nat} (h : ¬ (0x80 ≤ n ∧ n ≤ 0xAB)) : catalogue l p n = none := by
  unfold catalogue
  split
  case h_45 => rfl
  all_goals exact absurd (by decide) h

/-- Only FREEZE, THAW and SET_NOTICE_LEVELS do anything as a broadcast. -/
theorem carryOut_other {l : Link} {p : List Byte} {n : Nat} {role : CommandRole} {length : Nat} {i : Instr}
    (hn : n ≠ 0x86 ∧ n ≠ 0x87 ∧ n ≠ 0xAB) (hi : catalogue l p n = some (role, length, i)) (s : State) : s.carryOut i = s := by
  obtain ⟨h1, h2, h3⟩ := hn
  unfold catalogue at hi
  split at hi
  case h_7 => exact absurd rfl h1
  case h_8 => exact absurd rfl h2
  case h_44 => exact absurd rfl h3
  case h_45 => exact absurd hi nofun
  all_goals
    cases hi
    rfl

/-! ### A complete frame -/

theorem commandCheck_iff {buffer : List Byte} (h : buffer.length = (buffer.getD 2 0).toNat + 5) :
    let n := (buffer.getD 2 0).toNat
    commandCheck buffer = true ↔ (crc16 (buffer.take (n + 3))).toNat
      = 256 * (buffer.getD (n + 3) 0).toNat + (buffer.getD (n + 4) 0).toNat := by
  intro n
  rw [commandCheck, show buffer.length - 2 = n + 3 by omega, beq_iff_eq]
  rfl

/-- The watchdog's refresh behind the emptied buffer. -/
theorem State.refreshWatchdog_setLink (s : State) (l : Link) (k : LinkRec) :
    (s.setLink l k).refreshWatchdog l = s.refreshed l k := by
  rw [State.refreshWatchdog_eq, State.link_setLink_same]
  cases l <;> rfl

/-- An answer of a frame's judgement. -/
theorem State.answer_answering (u : State) (l : Link) (status : Status) (data : List Byte) :
    (u.modLink l (fun k => { k with rx := .answering })).answer l status data
      = u.setLink l { u.link l with rx := .answering, response := some (u.responseTo l status data) } := by
  cases l <;> rfl

/-- How COMMAND_FRAME judges: completeness, check, address (R172). -/
theorem exec_commandFrame {l : Link} {s : State} (hs : s.rests) :
    let k := s.link l
    let b (i : Nat) : Nat := (k.buffer.getD i 0).toNat
    let complete := 3 ≤ k.buffer.length ∧ k.buffer.length = b 2 + 5
    let check := (crc16 (k.buffer.take (b 2 + 3))).toNat = 256 * b (b 2 + 3) + b (b 2 + 4)
    let emptied : LinkRec := { k with rx := .hunt, buffer := [] }
    let u := s.refreshed l emptied
    (¬ complete → exec (.commandFrame l) s = .next s)
    ∧ (complete → ¬ check → exec (.commandFrame l) s
        = .next (s.setLink l { emptied with crcErrors := min 65535 (k.crcErrors + 1) }))
    ∧ (complete → check → b 1 = 63 → exec (.commandFrame l) s = .next (u.broadcastFrame l k.buffer))
    ∧ (complete → check → b 1 ≠ 63 → b 1 = s.ownAddress → exec (.commandFrame l) s = .next (u.dispatchFrame l k.buffer))
    ∧ (complete → check → b 1 ≠ 63 → b 1 ≠ s.ownAddress → exec (.commandFrame l) s = .next (s.setLink l emptied)) := by
  intro k b complete check emptied u
  have hrun : exec (.commandFrame l) s = .next (s.judgeCommand l) := congrArg Host.Outcome.next (State.event_rests hs _)
  have hcomplete (h : complete) : s.judgeCommand l = if commandCheck k.buffer then (s.setLink l emptied).addressFrame l k.buffer
      else (s.setLink l emptied).modLink l (fun k => { k with crcErrors := min 65535 (k.crcErrors + 1) }) :=
    if_pos ((frameComplete_iff _).2 h)
  have hgood (h : complete) (hc : check) : s.judgeCommand l = (s.setLink l emptied).addressFrame l k.buffer :=
    (hcomplete h).trans (if_pos ((commandCheck_iff h.2).2 hc))
  have hown : (s.setLink l emptied).ownAddress = s.ownAddress := State.setLink_ownAddress _ _ _
  have hu : (s.setLink l emptied).refreshWatchdog l = u := s.refreshWatchdog_setLink l emptied
  have hb1 : par k.buffer 1 = b 1 := rfl
  refine ⟨fun h => ?_, fun h hc => ?_, fun h hc h1 => ?_, fun h hc h1 h2 => ?_, fun h hc h1 h2 => ?_⟩
  · rw [hrun, State.judgeCommand, if_neg (mt (frameComplete_iff _).1 h)]
  · rw [hrun, hcomplete h, if_neg (mt (commandCheck_iff h.2).1 hc)]
    cases l <;> rfl
  · rw [hrun, hgood h hc, State.addressFrame, hb1, if_pos h1, hu]
  · rw [hrun, hgood h hc, State.addressFrame, hb1, if_neg h1, hown, if_pos h2, hu]
  · rw [hrun, hgood h hc, State.addressFrame, hb1, if_neg h1, hown, if_neg h2]

/-! ### Command frames of the catalogue -/

/-- The frame that a controller sends is complete, its check good, and its fields are those it was made of. -/
theorem commandBytes_fields {address code : Nat} {p : List Byte} (ha : address < 256) (hc : code < 256)
    (hp : p.length < 256) :
    let buffer := commandBytes address code p
    let b (i : Nat) : Nat := (buffer.getD i 0).toNat
    buffer.length = p.length + 5 ∧ b 0 = code ∧ b 1 = address ∧ b 2 = p.length
    ∧ commandParameters buffer = p
    ∧ (crc16 (buffer.take (b 2 + 3))).toNat = 256 * b (b 2 + 3) + b (b 2 + 4) := by
  intro buffer b
  obtain ⟨body, hbody⟩ : ∃ body, body = u8 code ++ u8 address ++ u8 p.length ++ p := ⟨_, rfl⟩
  have hbuffer : buffer = body ++ u16 (crc16 body).toNat := by rw [hbody]; rfl
  have hlen : body.length = p.length + 3 := by
    rw [hbody]
    simp [u8]
  have h0 : b 0 = code := by
    show (BitVec.ofNat 8 code).toNat = code
    rw [BitVec.toNat_ofNat, Nat.mod_eq_of_lt hc]
  have h1 : b 1 = address := by
    show (BitVec.ofNat 8 address).toNat = address
    rw [BitVec.toNat_ofNat, Nat.mod_eq_of_lt ha]
  have h2 : b 2 = p.length := by
    show (BitVec.ofNat 8 p.length).toNat = p.length
    rw [BitVec.toNat_ofNat, Nat.mod_eq_of_lt hp]
  have hcrc (i : Nat) : buffer.getD (p.length + 3 + i) 0 = (u16 (crc16 body).toNat).getD i 0 := by
    rw [hbuffer, List.getD_eq_getElem?_getD, List.getElem?_append_right (by omega), hlen, Nat.add_sub_cancel_left]
    rfl
  refine ⟨by rw [hbuffer, List.length_append, hlen]; rfl, h0, h1, h2, ?_, ?_⟩
  · rw [commandParameters, show par buffer 2 = p.length from h2, hbuffer, hbody]
    exact List.take_left
  · have htake : buffer.take (p.length + 3) = body := by rw [hbuffer, ← hlen, List.take_left]
    rw [h2, htake]
    show (crc16 body).toNat = 256 * (buffer.getD (p.length + 3 + 0) 0).toNat + (buffer.getD (p.length + 3 + 1) 0).toNat
    rw [hcrc 0, hcrc 1]
    have hlt := (crc16 body).isLt
    show _ = 256 * (BitVec.ofNat 8 _).toNat + (BitVec.ofNat 8 _).toNat
    rw [BitVec.toNat_ofNat, BitVec.toNat_ofNat]
    omega

/-- Settles O54, through `catalogue_sentCommand`: the frame is judged and its parameters give the command back. -/
theorem commandFramesHandOverTheirCommand : Obligations.CommandFramesHandOverTheirCommand := by
  intro i l role code p s hw hi hs ha hbuffer u
  obtain ⟨hp, hc, hcat⟩ := catalogue_sentCommand hw hi
  obtain ⟨hlen, h0, h1, h2, hparams, hcheck⟩ := commandBytes_fields (p := p) (by omega : s.ownAddress < 256) hc (by omega)
  obtain ⟨-, -, -, hrun, -⟩ := exec_commandFrame (l := l) hs
  rw [hbuffer] at hrun
  have hdispatch : exec (.commandFrame l) s = .next (u.dispatchFrame l (commandBytes s.ownAddress code p)) :=
    hrun ⟨by omega, by rw [hlen, h2]⟩ hcheck (by rw [h1]; omega) h1
  have hlength : par (commandBytes s.ownAddress code p) 2 = p.length := h2
  have hcode : par (commandBytes s.ownAddress code p) 0 = code := h0
  have hdone : u.dispatchFrame l (commandBytes s.ownAddress code p)
      = if !role.permits l then (u.modLink l (fun k => { k with rx := .answering })).answer l .notPermitted []
        else if p.length ≠ p.length then (u.modLink l (fun k => { k with rx := .answering })).answer l .badParam []
        else (u.modLink l (fun k => { k with rx := .answering })).modLink l (fun k => { k with handed := some i }) := by
    unfold State.dispatchFrame
    rw [hparams, hcode, hcat, hlength]
  refine ⟨hp, fun hr => ?_, fun hr => ?_⟩
  · rw [hdispatch, hdone, if_neg (by rw [hr]; decide), if_neg (not_not.2 rfl)]
    cases l <;> rfl
  · rw [hdispatch, hdone, if_pos (by rw [hr]; rfl), State.answer_answering]

end Sys2Proof.Machine
end

section
/-! Frames that carry no command to the part: broadcasts and refusals (R172, R173). -/

namespace Sys2Proof.Machine

/-! ### The parameters of a complete frame -/

theorem commandParameters_getD {buffer : List Byte} {i : Nat} (h : i < (buffer.getD 2 0).toNat) :
    (commandParameters buffer).getD i 0 = buffer.getD (3 + i) 0 := by
  rw [commandParameters, List.getD_eq_getElem?_getD, List.getD_eq_getElem?_getD, List.getElem?_take,
    if_pos (show i < par buffer 2 from h), List.getElem?_drop]

theorem commandParameters_eq (buffer : List Byte) :
    commandParameters buffer = (buffer.take ((buffer.getD 2 0).toNat + 3)).drop 3 := by
  rw [commandParameters, List.drop_take]
  rfl

/-! ### Broadcasts -/

/-- A broadcast of any other code changes nothing. -/
theorem State.broadcast_other {u : State} {l : Link} {buffer : List Byte}
    (h : (buffer.getD 0 0).toNat ≠ 0x86 ∧ (buffer.getD 0 0).toNat ≠ 0x87 ∧ (buffer.getD 0 0).toNat ≠ 0xAB) :
    u.broadcastFrame l buffer = u := by
  unfold State.broadcastFrame
  split
  · rfl
  · next role length i hcat =>
    split
    · exact carryOut_other h hcat u
    · rfl

/-- A broadcast of FREEZE or THAW. -/
theorem State.broadcast_frozen {u : State} {l : Link} {buffer : List Byte} (frozen : Bool)
    (hcode : (buffer.getD 0 0).toNat = if frozen then 0x86 else 0x87) :
    let b (i : Nat) : Nat := (buffer.getD i 0).toNat
    ((l = .b ∨ b 2 ≠ 1 ∨ (16 ≤ b 3 ∧ b 3 ≠ 0xFF)) → u.broadcastFrame l buffer = u)
    ∧ (l = .a → b 2 = 1 → (b 3 < 16 ∨ b 3 = 0xFF) →
      u.broadcastFrame l buffer = u.modGroups (targetsOf (b 3)) (fun g => { g with frozen := frozen })) := by
  intro b
  have hrun : u.broadcastFrame l buffer = if CommandRole.switch.permits l ∧ b 2 = 1 then
      (u.bodySetFrozen (par (commandParameters buffer) 0) frozen).state else u := by
    unfold State.broadcastFrame
    rw [show par buffer 0 = _ from hcode]
    cases frozen <;> rfl
  have htarget (h : b 2 = 1) : par (commandParameters buffer) 0 = b 3 :=
    congrArg BitVec.toNat (commandParameters_getD (show 0 < (buffer.getD 2 0).toNat by
      rw [show (buffer.getD 2 0).toNat = 1 from h]; decide))
  refine ⟨fun h => ?_, fun ha h1 ht => ?_⟩
  · rw [hrun]
    split
    · next hp =>
      obtain ⟨hpermit, h1⟩ := hp
      have hbad : 16 ≤ b 3 ∧ b 3 ≠ 0xFF := by
        rcases h with rfl | h | h
        · exact absurd hpermit (by decide)
        · exact absurd h1 h
        · exact h
      rw [htarget h1, State.bodySetFrozen, readTarget_none (by omega)]
      rfl
    · rfl
  · subst ha
    rw [hrun, if_pos ⟨rfl, h1⟩, htarget h1, State.bodySetFrozen_eq _ ht]
    rfl

/-- A broadcast of SET_NOTICE_LEVELS. -/
theorem State.broadcast_levels {u : State} {l : Link} {buffer : List Byte} (hcode : (buffer.getD 0 0).toNat = 0xAB)
    (hlen : buffer.length = (buffer.getD 2 0).toNat + 5) :
    let b (i : Nat) : Nat := (buffer.getD i 0).toNat
    ((b 2 ≠ 19 ∨ ∃ i, i < 18 ∧ 4 ≤ b (3 + i)) → u.broadcastFrame l buffer = u)
    ∧ (b 2 = 19 → (∀ i, i < 18 → b (3 + i) < 4) → ∃ levels : List Nat, levels.length = 18
      ∧ (∀ i, i < 18 → levels.getD i 0 = b (3 + i))
      ∧ u.broadcastFrame l buffer = u.modLink l (fun k => k.withLevels levels (max 1 (min 3 (b 21))))) := by
  intro b
  obtain ⟨levels, hlevels⟩ : ∃ levels, levels = ((commandParameters buffer).take 18).map BitVec.toNat := ⟨_, rfl⟩
  have hrun : u.broadcastFrame l buffer = if CommandRole.either.permits l ∧ b 2 = 19 then
      (u.bodySetNoticeLevels l levels (par (commandParameters buffer) 18)).state else u := by
    unfold State.broadcastFrame
    rw [show par buffer 0 = _ from hcode, hlevels]
    rfl
  have hlength (h : b 2 = 19) : levels.length = 18 := by
    have h2 : (buffer.getD 2 0).toNat = 19 := h
    rw [hlevels, List.length_map, List.length_take, commandParameters, List.length_take, List.length_drop,
      show par buffer 2 = 19 from h]
    omega
  have hget (h : b 2 = 19) (i : Nat) (hi : i < 18) : levels.getD i 0 = b (3 + i) := by
    have h2 : (buffer.getD 2 0).toNat = 19 := h
    have hparam := commandParameters_getD (buffer := buffer) (i := i) (by omega)
    show _ = (buffer.getD (3 + i) 0).toNat
    rw [← hparam, hlevels, List.getD_eq_getElem?_getD, List.getD_eq_getElem?_getD, List.getElem?_map, List.getElem?_take,
      if_pos hi]
    cases (commandParameters buffer)[i]? <;> rfl
  have hthreshold (h : b 2 = 19) : par (commandParameters buffer) 18 = b 21 :=
    congrArg BitVec.toNat (commandParameters_getD (by rw [show (buffer.getD 2 0).toNat = 19 from h]; decide))
  have hmem (h : b 2 = 19) (n : Nat) : n ∈ levels ↔ ∃ i, i < 18 ∧ b (3 + i) = n := by
    rw [List.mem_iff_getElem]
    constructor
    · rintro ⟨i, hi, rfl⟩
      have hi' : i < 18 := hlength h ▸ hi
      exact ⟨i, hi', by rw [← hget h i hi', List.getD_eq_getElem _ _ hi]⟩
    · rintro ⟨i, hi, rfl⟩
      have hi' : i < levels.length := (hlength h).symm ▸ hi
      exact ⟨i, hi', by rw [← hget h i hi, List.getD_eq_getElem _ _ hi']⟩
  refine ⟨fun h => ?_, fun h2 hv => ⟨levels, hlength h2, hget h2, ?_⟩⟩
  · rw [hrun]
    split
    · next hp =>
      obtain ⟨-, h2⟩ := hp
      obtain ⟨i, hi, hbig⟩ := h.resolve_left (fun hne => hne h2)
      rw [State.bodySetNoticeLevels, if_neg]
      · rfl
      · rintro ⟨-, hall⟩
        have := of_decide_eq_true (List.all_eq_true.1 hall _ ((hmem h2 _).2 ⟨i, hi, rfl⟩))
        omega
    · rfl
  · rw [hrun, if_pos ⟨by cases l <;> rfl, h2⟩, State.bodySetNoticeLevels_eq _ _ _ (hlength h2), hthreshold h2]
    · rfl
    · intro n hn
      obtain ⟨i, hi, rfl⟩ := (hmem h2 n).1 hn
      exact hv i hi

/-- The watchdog's refresh leaves the groups. -/
theorem State.groups_refreshed (s : State) (l : Link) (k : LinkRec) : (s.refreshed l k).groups = s.groups := by
  have hite {p : Prop} [Decidable p] {a b : State} (ha : a.groups = s.groups) (hb : b.groups = s.groups) :
      (if p then a else b).groups = s.groups := by
    split
    · exact ha
    · exact hb
  unfold State.refreshed
  refine hite ?_ ?_
  all_goals
    simp only [State.raise_groups, State.setLink_groups]
    exact hite (by simp) (by simp)

/-- A frame whose code the catalogue does not hold, and one whose length is not that of its code. -/
theorem State.dispatchFrame_refused (u : State) (l : Link) (buffer : List Byte) :
    let refused (st : Status) : State :=
      u.setLink l { u.link l with rx := .answering, response := some (u.responseTo l st []) }
    let n := (buffer.getD 0 0).toNat
    (catalogue l (commandParameters buffer) n = none → u.dispatchFrame l buffer = refused .badCommand)
    ∧ (∀ role length i, catalogue l (commandParameters buffer) n = some (role, length, i) → role.permits l = true →
        (buffer.getD 2 0).toNat ≠ length → u.dispatchFrame l buffer = refused .badParam) := by
  intro refused n
  have hcode : par buffer 0 = n := rfl
  refine ⟨fun h => ?_, fun role length i h hr hne => ?_⟩
  · rw [State.dispatchFrame, hcode, h]
    exact u.answer_answering l .badCommand []
  · unfold State.dispatchFrame
    rw [hcode, h]
    simp only [hr, Bool.not_true, Bool.false_eq_true, if_false]
    exact (if_pos hne).trans (u.answer_answering l .badParam [])

/-- Settles O55: the judgement by completeness, check and address, then by code and length. -/
theorem otherFramesAreJudged : Obligations.OtherFramesAreJudged := by
  intro l s hs k b complete body check emptied u refused known
  obtain ⟨r1, r2, r3, r4, r5⟩ := exec_commandFrame (l := l) hs
  refine ⟨r1, r2, fun hcomp hcheck => ⟨r5 hcomp hcheck, fun h63 => ?_, fun hown h63 => ?_⟩⟩
  · have hrun : exec (.commandFrame l) s = .next (u.broadcastFrame l k.buffer) := r3 hcomp hcheck h63
    have hfrozen : (b 0 = 0x86 ∨ b 0 = 0x87) → b 0 = if decide (b 0 = 0x86) then 0x86 else 0x87 := by
      rintro (h | h) <;> rw [h] <;> rfl
    refine ⟨fun h => ?_, fun hcode ha h2 h3 => ?_, fun hcode h => ?_, fun hcode h2 hv => ?_⟩
    · rw [hrun]
      rcases h with h | ⟨hcode, h⟩
      · rw [State.broadcast_other h]
      · rw [(State.broadcast_frozen _ (hfrozen hcode)).1 h]
    · refine ⟨_, hrun, ?_⟩
      rw [(State.broadcast_frozen _ (hfrozen hcode)).2 ha h2 h3]
      obtain ⟨h4, h5⟩ := u.modGroups_written h3 (fun g => { g with frozen := decide (b 0 = 0x86) })
      refine ⟨h4, fun g hg => (h5 g hg).trans ?_⟩
      rw [State.group_congr (s.groups_refreshed l emptied)]
    · rw [hrun, (State.broadcast_levels hcode hcomp.2).1 h]
    · obtain ⟨levels, hlen, hget, hb⟩ := (State.broadcast_levels (u := u) (l := l) hcode hcomp.2).2 h2 hv
      refine ⟨_, hrun, ?_⟩
      rw [hb, State.link_modLink_same]
      have hlevels : (u.link l).withLevels levels (max 1 (min 3 (b 21))) = { u.link l with
          levels := Table.ofList 18 0 levels, threshold := max 1 (min 3 (b 21))
          attention := (u.link l).overflow
            || (u.link l).notices.any (fun x => decide (max 1 (min 3 (b 21)) ≤ x.level)) } := rfl
      refine ⟨fun i hi => ?_, congrArg (u.setLink l) hlevels⟩
      rw [hlevels, at_ofList hlen i hi]
      exact hget i hi
  · have hrun : exec (.commandFrame l) s = .next (u.dispatchFrame l k.buffer) := r4 hcomp hcheck h63 hown
    obtain ⟨d1, d2⟩ := u.dispatchFrame_refused l k.buffer
    refine ⟨fun h => ?_, fun role length i hcat hr hne => ?_⟩
    · rw [hrun, d1 (catalogue_unknown _ _ h)]
    · rw [hrun, d2 role length i (by rw [commandParameters_eq]; exact hcat) hr hne]

end Sys2Proof.Machine
end

section
/-! A frame with nothing of the present frame left: what it delivers, builds and counts (R42, R43, R58, R59, R87, R137). -/

namespace Sys2Proof.Machine

theorem foldl_same {α β : Type} {f : β → α → β} {s : β} {l : List α} (h : ∀ x, x ∈ l → f s x = s) : l.foldl f s = s := by
  induction l with
  | nil => rfl
  | cons x rest ih =>
    rw [List.foldl_cons, h x (by simp)]
    exact ih (fun y hy => h y (List.mem_cons_of_mem _ hy))

/-- A table made of a list over its own indices reads as the list's function. -/
theorem Table.at_ofList_range {α : Type} {n : Nat} (d : α) (f : Nat → α) {i : Nat} (hi : i < n) :
    Table.at (Table.ofList n d ((List.range n).map f)) d i = f i := by
  simp [Table.at, Table.ofList, List.getD_eq_getElem?_getD, hi]

/-! ### The marker test at the end of a frame (R48) -/

theorem Span.missMarker_eq (x : Span) (present : Bool) : x.missMarker present = { x with
    tested := true
    lossCount := if x.tested = false ∧ x.state.cut = true ∧ present = true then min 1024 (x.lossCount + 1)
      else x.lossCount } := by
  unfold Span.missMarker
  by_cases ht : x.tested = true
  · have hx : x = { x with tested := true } := by rw [← ht]
    rw [if_pos ht, if_neg (by simp [ht])]
    exact hx
  · have hf : x.tested = false := eq_false_of_ne_true ht
    simp only [hf, Bool.false_eq_true, if_false, true_and]

theorem State.span_missMarkers (s : State) {x : Nat} (h : x < 16) :
    s.missMarkers.span x = (s.span x).missMarker s.peerPresent :=
  Table.at_mapIdx s.spans _ Span.reset Span.reset h

/-- The marker test leaves what the frames of a span are built from. -/
theorem State.span_missMarkers_fields (s : State) (x : Nat) : (s.missMarkers.span x).line = (s.span x).line
    ∧ (s.missMarkers.span x).switch = (s.span x).switch ∧ (s.missMarkers.span x).sending = (s.span x).sending
    ∧ (s.missMarkers.span x).marking = (s.span x).marking := by
  by_cases h : x < 16
  · rw [s.span_missMarkers h, Span.missMarker_eq]
    exact ⟨rfl, rfl, rfl, rfl⟩
  · have hle : 16 ≤ x := Nat.le_of_not_lt h
    rw [show s.missMarkers.span x = Span.reset from Table.at_of_le _ _ hle,
      show s.span x = Span.reset from Table.at_of_le _ _ hle]
    exact ⟨rfl, rfl, rfl, rfl⟩

/-! ### What is left of a frame that rests -/

theorem State.quiet_missMarkers (s : State) : s.missMarkers.quiet = s.quiet := rfl

theorem State.takeOwedEvents_none {s : State} (h : s.owed = []) : s.takeOwedEvents = s := by
  have hs : ({ s with owed := [] } : State) = s := by rw [← h]
  unfold State.takeOwedEvents
  simp only [h, List.foldl_nil]
  exact hs

theorem State.agedSlots_eq_nil {s : State} (h : ∀ e, e ∈ s.peer.view → e.age < 96) : s.agedSlots = [] := by
  refine List.map_eq_nil_iff.2 (List.filter_eq_nil_iff.2 fun e he hd => ?_)
  have := h e he
  simp only [ViewEntry.agedOut, decide_eq_true_eq, Config.ageLimit] at hd
  omega

/-- Where no marker loss, no marker timeout and no age-out falls due, the events of the frame are its marker tests. -/
theorem State.takeFrameEvents_quiet {s : State} (hq : s.quiet = true)
    (hloss : ∀ x, x < 16 → (s.missMarkers.span x).lossDue = false)
    (htime : ∀ c, c < 8 → (s.ctx c).markerTimeoutDue = false) (hage : s.agedSlots = []) :
    s.takeFrameEvents = s.missMarkers := by
  have hsettle : s.missMarkers.settle = s.missMarkers := State.settle_of_quiet (s.quiet_missMarkers ▸ hq)
  have h1 : (List.range 16).foldl (fun t x => (t.declareMarkerLoss x).settle) s.missMarkers = s.missMarkers :=
    foldl_same fun x hx => by
      rw [State.declareMarkerLoss, if_neg (by simp [hloss x (List.mem_range.1 hx)]), hsettle]
  have h2 : contextNumbers.foldl (fun t c => (t.markerTimeoutIfDue c).settle) s.missMarkers = s.missMarkers :=
    foldl_same fun c hc => by
      rw [State.markerTimeoutIfDue, if_neg (by
        rw [show s.missMarkers.ctx c = s.ctx c from rfl, htime c (List.mem_range.1 hc)]; decide), hsettle]
  have h3 : s.missMarkers.agedSlots = [] := hage
  unfold State.takeFrameEvents
  simp only [h1, h2, h3, List.foldl_nil]

/-- A frame at rest, with no frame and no command waiting on a link, no boundary and no event due, closes with the marker
tests alone. -/
theorem State.closeFrame_quiet {s : State} (hq : s.quiet = true) (hb : s.boundaryDue = false) (ho : s.owed = [])
    (hl : ∀ l, s.settleLink l = s) (hevents : s.takeFrameEvents = s.missMarkers) : s.closeFrame = s.missMarkers := by
  have hsettle : s.settle = s := State.settle_of_quiet hq
  have hbound : s.boundary [] = s := if_neg (by simp [hb])
  unfold State.closeFrame
  simp only [hl, hsettle, hbound, State.takeOwedEvents_none ho, hevents]

/-! ### The receive paths (R87) -/

theorem Circuit.deliver_line (c : Circuit) (quiet copper fibre : Byte) (p : Path) :
    ((c.deliver quiet copper fibre).lastOn p, (c.deliver quiet copper fibre).line p)
      = deliverLine (c.line p) quiet (match p with | .copper => copper | .fibre => fibre) := by
  cases p <;> rfl

theorem State.circuit_deliverAll (s : State) {n : Nat} (h : n < 480) : s.deliverAll.circuit n =
    (s.circuit n).deliver (s.group (s.circuit n).group).quiet (s.arriving n .copper) (s.arriving n .fibre) :=
  Table.at_mapIdx s.circuits _ Circuit.reset Circuit.reset h

/-- A delivery changes nothing of a circuit but its delay lines and the samples delivered last. -/
theorem State.circuit_deliverAll_same (s : State) (n : Nat) : s.deliverAll.circuit n = { s.circuit n with
    copperLine := (s.deliverAll.circuit n).copperLine, fibreLine := (s.deliverAll.circuit n).fibreLine
    copperLast := (s.deliverAll.circuit n).copperLast, fibreLast := (s.deliverAll.circuit n).fibreLast } := by
  by_cases h : n < 480
  · rw [s.circuit_deliverAll h]
    rfl
  · have hle : 480 ≤ n := Nat.le_of_not_lt h
    rw [show s.deliverAll.circuit n = Circuit.reset from Table.at_of_le _ _ hle,
      show s.circuit n = Circuit.reset from Table.at_of_le _ _ hle]

theorem deliverLine_nil (quiet arriving : Byte) : deliverLine [] quiet arriving = (arriving, []) := rfl

theorem deliverLine_cons (x : Option Byte) (rest : List (Option Byte)) (quiet arriving : Byte) :
    deliverLine (x :: rest) quiet arriving = (x.getD quiet, rest ++ [some arriving]) := rfl

/-- A path of a circuit after a delivery: the oldest sample of its line, and the arriving sample at the line's end. -/
theorem State.path_deliverAll (s : State) {n : Nat} (h : n < 480) (p : Path) :
    ((s.deliverAll.circuit n).lastOn p, (s.deliverAll.circuit n).line p)
      = deliverLine ((s.circuit n).line p) (s.group (s.circuit n).group).quiet (s.arriving n p) := by
  rw [s.circuit_deliverAll h, Circuit.deliver_line]
  cases p <;> rfl

/-! ### The frames that are built (R42, R43, R58, R59) -/

theorem CarriageFrame.bits_eq (w : CarriageFrame) : w.bits = w.bytes.flatMap (fun b =>
    [b.getLsbD 7, b.getLsbD 6, b.getLsbD 5, b.getLsbD 4, b.getLsbD 3, b.getLsbD 2, b.getLsbD 1, b.getLsbD 0]) := rfl

theorem Ctx.tickFrame_eq (x : Ctx) : x.tickFrame = { x with elapsed :=
    if x.state = .measure ∧ x.running = true then x.elapsed + 1 else x.elapsed } := by
  unfold Ctx.tickFrame
  split
  · next h => rfl
  · next h => rfl


/-- The state a frame leaves where its closing is the marker tests alone. -/
def State.framed (s : State) : State := s.missMarkers.sendFrames.nextFrame

theorem State.framed_circuit (s : State) (n : Nat) : s.framed.circuit n = s.missMarkers.deliverAll.circuit n := rfl

theorem State.arriving_missMarkers (s : State) (n : Nat) (p : Path) : s.missMarkers.arriving n p = s.arriving n p := by
  obtain ⟨hline, -⟩ := s.span_missMarkers_fields (spanOf n)
  cases p with
  | copper => simp only [State.arriving, hline]; rfl
  | fibre => rfl

/-- What a frame makes of a circuit's paths, from the state before it. -/
theorem State.path_framed (s : State) {n : Nat} (h : n < 480) (p : Path) :
    ((s.framed.circuit n).lastOn p, (s.framed.circuit n).line p)
      = deliverLine ((s.circuit n).line p) (s.groupOf n).quiet (s.arriving n p) := by
  rw [s.framed_circuit, s.missMarkers.path_deliverAll h, s.arriving_missMarkers]
  rfl

theorem State.circuit_framed_same (s : State) (n : Nat) : s.framed.circuit n = { s.circuit n with
    copperLine := (s.framed.circuit n).copperLine, fibreLine := (s.framed.circuit n).fibreLine
    copperLast := (s.framed.circuit n).copperLast, fibreLast := (s.framed.circuit n).fibreLast } :=
  s.missMarkers.circuit_deliverAll_same n

theorem State.span_framed (s : State) {x : Nat} (h : x < 16) :
    s.framed.span x = ((s.span x).missMarker s.peerPresent).tickFrame :=
  (Table.at_mapIdx s.missMarkers.spans _ Span.reset Span.reset h).trans (congrArg _ (s.span_missMarkers h))

theorem State.ctx_framed (s : State) {c : Nat} (h : c < 8) : s.framed.ctx c = (s.ctx c).tickFrame :=
  Table.at_mapIdx s.contexts _ Ctx.reset Ctx.reset h

theorem State.framed_same (s : State) : s.framed = { s with
    frameCount := (s.frameCount + 1) % 4096
    boundaryDue := decide ((s.frameCount + 1) % 16 = 0)
    circuits := s.framed.circuits, spans := s.framed.spans, contexts := s.framed.contexts, out := s.framed.out
    peer := { s.peer with
      position := s.peer.nextPosition
      view := s.peer.view.map (fun e => { e with age := e.age + 1 }) } } := rfl

/-! What the frames are built from is read as it stood before the frame. -/

/-- The state whose frames are built: the marker tests made and the samples delivered. -/
def State.built (s : State) : State := s.missMarkers.deliverAll

theorem State.circuit_built_fields (s : State) (n : Nat) : (s.built.circuit n).transmit = (s.circuit n).transmit
    ∧ (s.built.circuit n).receive = (s.circuit n).receive ∧ (s.built.circuit n).slot = (s.circuit n).slot
    ∧ (s.built.circuit n).group = (s.circuit n).group ∧ (s.built.circuit n).conditioned = (s.circuit n).conditioned := by
  have h := s.missMarkers.circuit_deliverAll_same n
  unfold State.built
  rw [h]
  exact ⟨rfl, rfl, rfl, rfl, rfl⟩

theorem State.groupOf_built (s : State) (n : Nat) : s.built.groupOf n = s.groupOf n := by
  obtain ⟨-, -, -, hgroup, -⟩ := s.circuit_built_fields n
  unfold State.groupOf
  rw [hgroup]
  rfl

theorem State.fromSwitch_built (s : State) (n : Nat) : s.built.fromSwitch n = s.fromSwitch n := by
  obtain ⟨-, hswitch, -⟩ := s.span_missMarkers_fields (spanOf n)
  unfold State.fromSwitch
  rw [show s.built.span (spanOf n) = s.missMarkers.span (spanOf n) from rfl, hswitch]
  rfl

theorem State.slotContent_built (s : State) (k : Nat) : s.built.slotContent k = s.slotContent k := by
  unfold State.slotContent
  rw [show s.built.boundTo k = s.boundTo k from rfl]
  cases s.boundTo k with
  | none => rfl
  | some n =>
    obtain ⟨htransmit, -⟩ := s.circuit_built_fields n
    simp only [htransmit, s.fromSwitch_built]

theorem State.toLine_built (s : State) (n : Nat) : s.built.toLine n = s.toLine n := by
  obtain ⟨htransmit, -⟩ := s.circuit_built_fields n
  unfold State.toLine
  rw [htransmit, s.fromSwitch_built, s.groupOf_built]

theorem State.selectedCode_built (s : State) (n : Nat) : s.built.selectedCode n = s.selectedCode n := by
  obtain ⟨-, hreceive, hslot, -⟩ := s.circuit_built_fields n
  obtain ⟨hline, -⟩ := s.span_missMarkers_fields (spanOf n)
  unfold State.selectedCode
  rw [show s.built.span (spanOf n) = s.missMarkers.span (spanOf n) from rfl, hreceive, hslot, hline]
  rfl

theorem State.carriageFrame_built (s : State) : s.built.carriageFrame = s.carriageFrame := by
  unfold State.carriageFrame
  simp only [s.slotContent_built]
  rfl

/-- What goes towards the switch in a frame: the sample is the one the frame has delivered on the receive path. -/
theorem State.toSwitch_built (s : State) (n : Nat) : s.built.toSwitch n =
    if (s.circuit n).conditioned then ((s.groupOf n).quiet, (s.groupOf n).conditioning)
    else ((s.framed.circuit n).lastOn (s.circuit n).receive, s.selectedCode n) := by
  obtain ⟨-, hreceive, -, -, hconditioned⟩ := s.circuit_built_fields n
  unfold State.toSwitch
  rw [hreceive, hconditioned, s.groupOf_built, s.selectedCode_built, s.framed_circuit]
  rfl

theorem State.copperFrame_built (s : State) (x : Nat) (spare : Bool) (f : Nat → Byte × Code) :
    s.built.copperFrame x spare f = s.copperFrame x spare f := by
  obtain ⟨-, -, hsending, -⟩ := s.span_missMarkers_fields x
  unfold State.copperFrame
  rw [show s.built.span x = s.missMarkers.span x from rfl, hsending]
  rfl

theorem State.markerFrame_built (s : State) (x : Nat) : s.built.markerFrame x = s.markerFrame x := by
  obtain ⟨-, -, -, hmarking⟩ := s.span_missMarkers_fields x
  unfold State.markerFrame
  rw [show s.built.span x = s.missMarkers.span x from rfl, hmarking]
  rfl

theorem State.out_framed (s : State) : s.framed.out = {
    carriage := some s.carriageFrame
    line := Table.ofList 16 none ((List.range 16).map (fun x => s.copperFrame x (s.markerFrame x) s.toLine))
    switch := Table.ofList 16 none ((List.range 16).map (fun x => s.copperFrame x false s.built.toSwitch)) } := by
  have hline : (fun x => s.built.copperFrame x (s.built.markerFrame x) s.built.toLine)
      = fun x => s.copperFrame x (s.markerFrame x) s.toLine := funext fun x => by
    rw [s.copperFrame_built, s.markerFrame_built, show s.built.toLine = s.toLine from funext s.toLine_built]
  have hswitch : (fun x => s.built.copperFrame x false s.built.toSwitch)
      = fun x => s.copperFrame x false s.built.toSwitch := funext fun x => s.copperFrame_built x false _
  rw [← s.carriageFrame_built, ← hline, ← hswitch]
  rfl

/-- The channels of a span's frame, written out. -/
theorem State.copperFrame_eq (s : State) {x : Nat} (hx : x < 16) (spare : Bool) (f g : Nat → Byte × Code)
    (h : ∀ n, n < 480 → f n = g n) : s.copperFrame x spare f =
    if (s.span x).sending then some {
      pattern := 0b1010110, spare := spare
      samples := (List.range 30).map (fun c => (g (30 * x + c)).1)
      codes := (List.range 30).map (fun c =>
        if s.frameCount % 16 = (Config.codeFrame (c + 1)).val then some (g (30 * x + c)).2 else none) } else none := by
  have hsamples : (circuitsOf x).map (fun n => (f n).1) = (List.range 30).map (fun c => (g (30 * x + c)).1) := by
    rw [circuitsOf, List.map_map]
    refine List.map_congr_left fun c hc => ?_
    have hlt : c < 30 := List.mem_range.1 hc
    exact congrArg Prod.fst (h (30 * x + c) (by omega))
  have hcodes : (circuitsOf x).map (fun n => carriedCode s.frameCount (channelOf n) (f n).2)
      = (List.range 30).map (fun c =>
        if s.frameCount % 16 = (Config.codeFrame (c + 1)).val then some (g (30 * x + c)).2 else none) := by
    rw [circuitsOf, List.map_map]
    refine List.map_congr_left fun c hc => ?_
    have hlt : c < 30 := List.mem_range.1 hc
    have hchannel : channelOf (30 * x + c) = c + 1 := by unfold channelOf; omega
    rw [Function.comp_apply, h (30 * x + c) (by omega), hchannel]
    rfl
  unfold State.copperFrame
  rw [hsamples, hcodes]

/-- The word of the rotation, written out. -/
theorem State.rotationWord_eq (s : State) : s.rotationWord =
    match s.peer.position.bind (fun k => s.peer.adverts[k]?) with
    | some a => { step := a.step.code, site := s.ownSite, slot := a.slot, argument := a.argument }
    | none => { step := 8, site := s.ownSite, slot := s.map.ownDigest.toNat / 256
                argument := s.map.ownDigest.setWidth 8 } := by
  unfold State.rotationWord
  cases s.peer.position with
  | none => rfl
  | some k =>
    simp only [Option.bind_some]
    cases s.peer.adverts[k]? <;> rfl

/-- Settles O11: the frame closes with its marker tests, and what it builds is read from the state before it. -/
theorem framesAreBuiltAndCounted : Obligations.FramesAreBuiltAndCounted := by
  refine ⟨CarriageFrame.bits_eq, ?_⟩
  intro s hs hb ho hl present misses hloss htime hage group fromSwitch inSlot arrives
  have hpresent : s.peerPresent = true ↔ present := s.peerPresent_iff
  have hmiss (x : Nat) : (s.span x).missMarker s.peerPresent = { s.span x with
      tested := true
      lossCount := if misses x then min 1024 ((s.span x).lossCount + 1) else (s.span x).lossCount } := by
    rw [Span.missMarker_eq]
    simp only [hpresent, misses]
  have hundue (x : Nat) (hx : x < 16) : (s.missMarkers.span x).lossDue = false := by
    refine eq_false_of_ne_true fun hdue => ?_
    rw [s.span_missMarkers hx, hmiss, Span.lossDue_iff] at hdue
    obtain ⟨hcut, hcount, hdeclared⟩ := hdue
    obtain ⟨hless, hmissed⟩ := hloss x hx hcut hdeclared
    by_cases hm : misses x
    · have := hmissed hm
      simp only [hm, if_true] at hcount
      omega
    · simp only [hm, if_false] at hcount
      omega
  have hevents : s.takeFrameEvents = s.missMarkers :=
    State.takeFrameEvents_quiet hs.2 hundue
      (fun c hc => eq_false_of_ne_true (mt (Ctx.markerTimeoutDue_iff _).1 (htime c hc))) (State.agedSlots_eq_nil hage)
  have hclose : s.closeFrame = s.missMarkers :=
    State.closeFrame_quiet hs.2 hb ho (fun l => State.settleLink_quiet (hl l).1 (hl l).2) hevents
  have hrun : exec .frame s = .next s.framed := by
    refine congrArg Host.Outcome.next ((State.event_rests hs _).trans ?_)
    rw [hclose]
    rfl
  have hswitch (n : Nat) : s.fromSwitch n = fromSwitch n := rfl
  have hslot (k : Nat) : s.slotContent k = inSlot k := by
    unfold State.slotContent
    simp only [inSlot, ← hswitch]
    cases s.boundTo k with
    | none => rfl
    | some n => cases h : (s.circuit n).transmit <;> simp [h, Bridging.hasFibre]
  have harrives (n : Nat) (p : Path) : s.arriving n p = arrives n p := by cases p <;> rfl
  refine ⟨s.framed, hrun, fun n hn => ⟨fun p => ⟨fun hnil => ?_, fun x rest hcons => ?_⟩, s.circuit_framed_same n⟩, ?_, ?_,
    fun x hx => ?_, fun c hc => ?_, s.framed_same⟩
  · have hpath := s.path_framed hn p
    rw [hnil, deliverLine_nil, harrives, Prod.mk.injEq] at hpath
    exact hpath.symm
  · have hpath := s.path_framed hn p
    rw [hcons, deliverLine_cons, harrives, Prod.mk.injEq] at hpath
    exact hpath.symm
  · rw [s.out_framed]
    refine congrArg some ?_
    unfold State.carriageFrame
    rw [s.rotationWord_eq]
    simp only [hslot, blockSlots, List.map_map] <;> rfl
  · intro toLine selected toSwitch frame x hx
    have hline (n : Nat) : s.toLine n = toLine n := by
      unfold State.toLine
      simp only [toLine, ← hswitch]
      cases (s.circuit n).transmit <;> rfl
    have hselected (n : Nat) : s.selectedCode n = selected n := by
      unfold State.selectedCode
      simp only [selected]
      cases (s.circuit n).receive with
      | copper => rfl
      | fibre => cases (s.circuit n).slot <;> rfl
    have hto (n : Nat) : s.built.toSwitch n = toSwitch n := by
      rw [s.toSwitch_built, hselected]
      rfl
    rw [s.out_framed]
    exact ⟨(Table.at_ofList_range none _ hx).trans (s.copperFrame_eq hx _ _ toLine fun n _ => hline n),
      (Table.at_ofList_range none _ hx).trans (s.copperFrame_eq hx _ _ toSwitch fun n _ => hto n)⟩
  · have hspan : s.framed.span x = { s.span x with
        sending := (s.span x).state.cut, marking := (s.span x).state.cut, tested := false
        lossCount := if misses x then min 1024 ((s.span x).lossCount + 1) else (s.span x).lossCount } := by
      rw [s.span_framed hx, hmiss]
      rfl
    refine ⟨fun hm => ?_, fun hm => ?_⟩
    · rw [hspan, if_pos hm, hm.2.1]
    · rw [hspan, if_neg hm]
  · rw [s.ctx_framed hc, Ctx.tickFrame_eq]

end Sys2Proof.Machine
end

section
/-! A superframe boundary with nothing taken before its supervision: its supervision, its timers and the events it owes
(R1, R22, R48, R65, R66, R101, R119, R123, R125, R136, R176). -/

namespace Sys2Proof.Machine

/-! ### What supervision changes -/

theorem LinkRec.offer_counts (k : LinkRec) (stamp : Nat) (e : Event) :
    (k.offer stamp e).alive = k.alive ∧ (k.offer stamp e).watchdog = k.watchdog := by
  unfold LinkRec.offer
  split
  · exact ⟨rfl, rfl⟩
  · split <;> exact ⟨rfl, rfl⟩

theorem LinkRec.offerIf_counts (k : LinkRec) (stamp : Nat) (e : Option Event) :
    (k.offerIf stamp e).alive = k.alive ∧ (k.offerIf stamp e).watchdog = k.watchdog := by
  cases e with
  | none => exact ⟨rfl, rfl⟩
  | some e => exact k.offer_counts stamp e

/-- From `s` to `t` circuits have been supervised: circuits, groups, free cells and notices may change. -/
structure Supervised (s t : State) : Prop where
  same : t = { s with
    circuits := t.circuits, groups := t.groups, pool := { s.pool with free := t.pool.free }
    linkA := t.linkA, linkB := t.linkB }
  counts : ∀ l, (t.link l).alive = (s.link l).alive ∧ (t.link l).watchdog = (s.link l).watchdog

namespace Supervised

theorem refl (s : State) : Supervised s s := ⟨rfl, fun _ => ⟨rfl, rfl⟩⟩

theorem trans {s t u : State} (h : Supervised s t) (k : Supervised t u) : Supervised s u where
  same := by
    have hpool : u.pool = { t.pool with free := u.pool.free } := by rw [k.same]
    rw [k.same, h.same]
  counts := fun l => ⟨(k.counts l).1.trans (h.counts l).1, (k.counts l).2.trans (h.counts l).2⟩

theorem filtered (s : State) (n : Nat) : Supervised s (s.filtered n) where
  same := by rw [State.filtered_same]
  counts := fun l => by
    rw [State.link_filtered]
    obtain ⟨h1, h2⟩ := LinkRec.offerIf_counts (s.link l) s.stamp
      ((s.circuit n).forward.notice (s.groupOf n) n false (s.forwardCode n))
    obtain ⟨h3, h4⟩ := LinkRec.offerIf_counts ((s.link l).offerIf s.stamp
        ((s.circuit n).forward.notice (s.groupOf n) n false (s.forwardCode n))) s.stamp
      ((s.circuit n).backward.notice (s.groupOf n) n true (if (s.circuit n).conditioned then none else s.backwardCode n))
    exact ⟨h3.trans h1, h4.trans h2⟩

theorem deriveCall (s : State) {n : Nat} (hn : n < 480) : Supervised s (s.deriveCall n) where
  same := by
    have h := Rederived.deriveCall s n
    rw [h.same, h.pool]
  counts := fun l => by
    obtain ⟨h1, h2⟩ := LinkRec.offerIf_counts (s.link l) s.stamp (callNotice n (s.circuit n).call (s.derivedCall n))
    by_cases hends : s.endsCall n (s.derivedCall n)
    · rw [State.link_deriveCall_drops hn hends]
      obtain ⟨h3, h4⟩ := LinkRec.offer_counts ((s.link l).offerIf s.stamp
        (callNotice n (s.circuit n).call (s.derivedCall n))) s.stamp
        { cls := .walkDone, subject := some (.circuit n), cause := none, value := valueOf (s.circuit n).cellsHeld }
      exact ⟨h3.trans h1, h4.trans h2⟩
    · rw [State.link_deriveCall_stays hn hends]
      exact ⟨h1, h2⟩

theorem superviseCircuit (s : State) {n : Nat} (hn : n < 480) : Supervised s (s.superviseCircuit n) := by
  by_cases he : (s.circuit n).equipped = true
  · rw [State.superviseCircuit_equipped he]
    exact (filtered s n).trans (deriveCall _ hn)
  · rw [State.superviseCircuit, if_neg he]
    exact refl s

theorem foldl {ns : List Nat} (h : ∀ n, n ∈ ns → n < 480) (s : State) :
    Supervised s (ns.foldl State.superviseCircuit s) := by
  induction ns generalizing s with
  | nil => exact refl s
  | cons n rest ih =>
    exact (superviseCircuit s (h n (by simp))).trans (ih (fun k hk => h k (List.mem_cons_of_mem _ hk)) _)

end Supervised

/-! ### What supervision does not read -/

/-- The migration work that a boundary counts before its supervision: contexts, the head's wait count, the peer exchange
and the events owed. -/
structure Counted where
  contexts : Vector Ctx 8
  waitCount : Nat
  peer : PeerExchange
  owed : List BoundaryEvent

/-- The state with other migration work. -/
def State.withWork (s : State) (w : Counted) : State :=
  { s with contexts := w.contexts, pool := { s.pool with waitCount := w.waitCount }, peer := w.peer, owed := w.owed }

theorem State.withWork_dropAtIdle (s : State) (w : Counted) (n : Nat) :
    (s.withWork w).dropAtIdle n = (s.dropAtIdle n).withWork w := by
  by_cases hr : (s.circuit n).residual = 0
  · rw [show s.dropAtIdle n = s from if_pos hr]
    exact if_pos hr
  · rw [State.dropAtIdle, State.dropAtIdle, if_neg hr]
    exact if_neg hr

theorem State.withWork_raiseIf (s : State) (w : Counted) (e : Option Event) :
    (s.withWork w).raiseIf e = (s.raiseIf e).withWork w := by cases e <;> rfl

theorem State.withWork_changeCall (s : State) (w : Counted) (n : Nat) (new : CallState) :
    (s.withWork w).changeCall n new = (s.changeCall n new).withWork w := by
  have h : ((s.withWork w).withCall n new) = (s.withCall n new).withWork w :=
    State.withWork_raiseIf ((s.modCircuit n (fun c => { c with call := new })).modGroup (s.circuit n).group
      (fun g => g.countChange (s.circuit n).call new)) w (callNotice n (s.circuit n).call new)
  show (if new = .idle then ((s.withWork w).withCall n new).dropAtIdle n else (s.withWork w).withCall n new)
    = State.withWork (if new = .idle then (s.withCall n new).dropAtIdle n else s.withCall n new) w
  rw [h, State.withWork_dropAtIdle, ← apply_ite (fun t : State => t.withWork w)]

theorem State.withWork_deriveCall (s : State) (w : Counted) (n : Nat) :
    (s.withWork w).deriveCall n = (s.deriveCall n).withWork w := by
  show (if s.derivedCall n = (s.circuit n).call then s.withWork w else (s.withWork w).changeCall n (s.derivedCall n))
    = State.withWork (if s.derivedCall n = (s.circuit n).call then s else s.changeCall n (s.derivedCall n)) w
  rw [State.withWork_changeCall, ← apply_ite (fun t : State => t.withWork w)]

theorem State.withWork_filtered (s : State) (w : Counted) (n : Nat) :
    (s.withWork w).filtered n = (s.filtered n).withWork w := by
  unfold State.filtered
  simp only [← State.withWork_raiseIf]
  rfl

theorem State.withWork_superviseCircuit (s : State) (w : Counted) (n : Nat) :
    (s.withWork w).superviseCircuit n = (s.superviseCircuit n).withWork w := by
  by_cases he : (s.circuit n).equipped = true
  · rw [State.superviseCircuit_equipped he, State.superviseCircuit_equipped (s := s.withWork w) he,
      State.withWork_filtered, State.withWork_deriveCall]
  · rw [State.superviseCircuit, State.superviseCircuit, if_neg he]
    exact if_neg he

theorem State.withWork_foldl_supervise (ns : List Nat) (s : State) (w : Counted) :
    ns.foldl State.superviseCircuit (s.withWork w) = (ns.foldl State.superviseCircuit s).withWork w := by
  induction ns generalizing s with
  | nil => rfl
  | cons n rest ih => rw [List.foldl_cons, List.foldl_cons, State.withWork_superviseCircuit, ih]

/-! ### The timers -/

theorem State.ctx_tickWork (s : State) (c : Nat) : s.tickWork.ctx c = (s.ctx c).tick := by
  by_cases h : c < 8
  · exact Table.at_mapIdx s.contexts _ Ctx.reset Ctx.reset h
  · have hle : 8 ≤ c := Nat.le_of_not_lt h
    rw [show s.tickWork.ctx c = Ctx.reset from Table.at_of_le _ _ hle,
      show s.ctx c = Ctx.reset from Table.at_of_le _ _ hle]
    rfl

theorem Pool.tick_eq (p : Pool) :
    p.tick = { p with waitCount := if p.waitList = [] then p.waitCount else p.waitCount + 1 } := by
  unfold Pool.tick
  by_cases h : p.waitList = []
  · rw [if_pos (List.isEmpty_iff.2 h), if_pos h]
  · rw [if_neg (mt List.isEmpty_iff.1 h), if_neg h]

theorem Advert.tick_eq (a : Advert) : a.tick = match a.kind with
    | .context _ => a
    | .linger n k => { a with kind := .linger (n - 1) k } := by
  unfold Advert.tick
  cases a.kind <;> rfl

/-- The move of the counts makes nothing fall due at once. -/
theorem State.quiet_tickWork (s : State) : s.tickWork.quiet = s.quiet := by
  have hctx (c : Nat) : s.tickWork.quietAt c = s.quietAt c := by
    unfold State.quietAt State.attemptDue
    rw [s.ctx_tickWork]
    rfl
  have hpool : s.tickWork.poolDue = s.poolDue := by
    unfold State.poolDue
    rw [show s.tickWork.pool = s.pool.tick from rfl, Pool.tick_eq]
    cases s.pool.waitList with
    | nil => rfl
    | cons c rest =>
      simp only [s.ctx_tickWork]
      rfl
  unfold State.quiet
  rw [hpool, show s.tickWork.quietAt = s.quietAt from funext hctx]
  rfl

/-! ### The boundary in parts -/

/-- The state that supervision starts from, in its own words: the boundary open, the migration work not yet counted. -/
def State.dated (s : State) (owed : List BoundaryEvent) : State :=
  { s with boundaryDue := false, owed := owed, stamp := (s.stamp + 1) % 65536 }

/-- The circuits supervised, apart from the migration work. -/
def State.supervisedApart (s : State) (owed : List BoundaryEvent) : State :=
  (List.range 480).foldl State.superviseCircuit (s.dated owed)

/-- The migration work of a boundary that has just opened. -/
def State.countedWork (s : State) : Counted where
  contexts := s.tickWork.contexts
  waitCount := s.tickWork.pool.waitCount
  peer := s.tickWork.peer
  owed := openingEvents.filter s.opens

/-- The state a boundary leaves before what the timers make due is owed. -/
def State.timed (s : State) (owed : List BoundaryEvent) : State :=
  ((s.supervisedApart owed).withWork s.countedWork).tickPorts

theorem State.openBoundary_tickWork {s : State} (ho : s.owed = []) (owed : List BoundaryEvent) :
    s.openBoundary.tickWork = (s.dated owed).withWork s.countedWork := by
  have hpool : s.openBoundary.tickWork.pool = { s.pool with waitCount := s.countedWork.waitCount } := by
    show s.pool.tick = { s.pool with waitCount := s.pool.tick.waitCount }
    rw [Pool.tick_eq]
  have howed : s.openBoundary.tickWork.owed = s.countedWork.owed := by
    show s.owed ++ openingEvents.filter s.opens = _
    rw [ho]
    rfl
  show ({ (s.dated owed).withWork s.countedWork with
    pool := s.openBoundary.tickWork.pool, owed := s.openBoundary.tickWork.owed } : State) = _
  rw [hpool, howed]
  rfl

/-- A boundary with nothing taken before its supervision. -/
theorem State.takeBoundary_nil {s : State} (hq : s.quiet = true) (ho : s.owed = []) (owed : List BoundaryEvent) :
    s.takeBoundary [] = { s.timed owed with
      owed := admissionLast (s.countedWork.owed ++ (s.timed owed).lateEvents s.abortingContexts) } := by
  have hopen : s.openBoundary.quiet = s.quiet := rfl
  have hsettle : s.openBoundary.tickWork.settle = s.openBoundary.tickWork :=
    State.settle_of_quiet (by rw [State.quiet_tickWork, hopen]; exact hq)
  have hsupervise : s.openBoundary.tickWork.supervise = (s.supervisedApart owed).withWork s.countedWork := by
    rw [State.openBoundary_tickWork ho owed]
    exact State.withWork_foldl_supervise _ _ _
  unfold State.takeBoundary
  simp only [List.foldl_nil, hsettle, hsupervise]
  rfl

theorem mem_admissionLast {e : BoundaryEvent} {owed : List BoundaryEvent} : e ∈ admissionLast owed ↔ e ∈ owed := by
  unfold admissionLast
  by_cases h : e = .admission <;> simp [h]

theorem mem_ite_singleton {p : Prop} [Decidable p] {e d : BoundaryEvent} :
    e ∈ (if p then [d] else []) ↔ p ∧ e = d := by
  by_cases h : p <;> simp [h]

/-- The events that a boundary may owe from its opening. -/
theorem mem_openingEvents (e : BoundaryEvent) : e ∈ openingEvents ↔ match e with
    | .abortReturn c => c < 8
    | .switch c => c < 8
    | .drainComplete x => x < 16
    | .revert => True
    | .walkSlot => True
    | .mapApply => True
    | .admission => True
    | _ => False := by
  cases e <;> simp [openingEvents, contextNumbers]

/-- The events that the timers make due. -/
theorem State.mem_lateEvents (s : State) (ending : List Nat) (e : BoundaryEvent) : e ∈ s.lateEvents ending ↔ match e with
    | .slowTick => s.stamp % 128 = 0
    | .windowEnd => 500 ≤ s.port.windowPosition
    | .stepTimeout c => c < 8 ∧ s.stepTimeoutDue c = true
    | .bridgeTimeout c => c < 8 ∧ s.bridgeTimeoutDue c = true
    | .poolTimeout => s.poolTimeoutDue = true
    | .abortingEnd c => c ∈ ending ∧ (s.ctx c).state = .aborting
    | .lingerExpiry x => x ∈ s.expiredSlots
    | .linkSilent l => s.linkSilentDue l = true
    | _ => False := by
  have hlink (l : Link) : l ∈ [Link.a, Link.b] := by cases l <;> simp
  unfold State.lateEvents
  simp only [List.mem_append, mem_ite_singleton, List.mem_map, List.mem_filter, Config.windowLength]
  cases e <;> simp [contextNumbers, hlink]

/-! ### What a boundary leaves -/

theorem LinkRec.tick_eq (k : LinkRec) (strap : Nat) : k.tick (Config.watchdogTimeout strap) = { k with
    watchdog := k.watchdog.map (fun c => if k.alive = true ∧ 1 ≤ strap ∧ strap ≤ 3 then
      min ([1000, 4000, 16000].getD (strap - 1) 0) (c + 1) else c) } := by
  have hnone (h : ¬ (1 ≤ strap ∧ strap ≤ 3)) : k = { k with
      watchdog := k.watchdog.map (fun c => if k.alive = true ∧ 1 ≤ strap ∧ strap ≤ 3 then
        min ([1000, 4000, 16000].getD (strap - 1) 0) (c + 1) else c) } := by
    simp [h]
  have hsome (t : Nat) (ht : [1000, 4000, 16000].getD (strap - 1) 0 = t) (h : 1 ≤ strap ∧ strap ≤ 3) :
      k.tick (some t) = { k with
        watchdog := k.watchdog.map (fun c => if k.alive = true ∧ 1 ≤ strap ∧ strap ≤ 3 then
          min ([1000, 4000, 16000].getD (strap - 1) 0) (c + 1) else c) } := by
    unfold LinkRec.tick
    rw [ht]
    by_cases ha : k.alive = true
    · simp [ha, h]
    · have hid : k.watchdog.map (fun c => if k.alive = true ∧ 1 ≤ strap ∧ strap ≤ 3 then min t (c + 1) else c)
          = k.watchdog := by simp [ha]
      rw [hid]
      exact if_neg ha
  match strap with
  | 0 => exact hnone (by omega)
  | 1 => exact hsome 1000 rfl (by omega)
  | 2 => exact hsome 4000 rfl (by omega)
  | 3 => exact hsome 16000 rfl (by omega)
  | n + 4 => exact hnone (by omega)

theorem watchdogTimeout_eq_some (strap t : Nat) :
    Config.watchdogTimeout strap = some t ↔ [1000, 4000, 16000][strap - 1]? = some t ∧ 1 ≤ strap := by
  match strap with
  | 0 => simp [Config.watchdogTimeout]
  | 1 => simp [Config.watchdogTimeout]
  | 2 => simp [Config.watchdogTimeout]
  | 3 => simp [Config.watchdogTimeout]
  | n + 4 => simp [Config.watchdogTimeout]

/-- A link whose count the boundary raises to its timeout is due to fall silent. -/
theorem State.linkSilentDue_timed {s v : State} {l : Link} (hstrap : v.watchdogStrap = s.watchdogStrap)
    (halive : (v.link l).alive = (s.link l).alive)
    (hcount : (v.link l).watchdog = (s.link l).watchdog.map (fun c =>
      if (s.link l).alive = true ∧ 1 ≤ s.watchdogStrap ∧ s.watchdogStrap ≤ 3 then
        min ([1000, 4000, 16000].getD (s.watchdogStrap - 1) 0) (c + 1) else c)) :
    v.linkSilentDue l = true ↔ (s.link l).alive = true ∧ ∃ k c, [1000, 4000, 16000][s.watchdogStrap - 1]? = some k
      ∧ 1 ≤ s.watchdogStrap ∧ (s.link l).watchdog = some c ∧ k ≤ c + 1 := by
  rw [State.linkSilentDue_iff, hstrap, halive, hcount]
  simp only [watchdogTimeout_eq_some, Option.map_eq_some_iff]
  refine and_congr_right fun ha => ⟨?_, ?_⟩
  · rintro ⟨k, c, ⟨hk, hone⟩, ⟨d, hd, rfl⟩, hle⟩
    have hthree : s.watchdogStrap ≤ 3 := by
      obtain ⟨hlt, -⟩ := List.getElem?_eq_some_iff.1 hk
      simp at hlt
      omega
    rw [if_pos ⟨ha, hone, hthree⟩] at hle
    exact ⟨k, d, hk, hone, hd, le_trans hle (Nat.min_le_right _ _)⟩
  · rintro ⟨k, c, hk, hone, hc, hle⟩
    have hthree : s.watchdogStrap ≤ 3 := by
      obtain ⟨hlt, -⟩ := List.getElem?_eq_some_iff.1 hk
      simp at hlt
      omega
    refine ⟨k, _, ⟨hk, hone⟩, ⟨c, hc, rfl⟩, ?_⟩
    rw [if_pos ⟨ha, hone, hthree⟩, List.getD_eq_getElem?_getD, hk]
    exact Nat.le_min.2 ⟨le_refl _, hle⟩

/-- The state before what the timers make due is owed, field by field. -/
theorem State.timed_facts {s u : State} {owed : List BoundaryEvent} (hu : Supervised (s.dated owed) u) :
    let v := (u.withWork s.countedWork).tickPorts
    v = { u with contexts := v.contexts, pool := v.pool, peer := v.peer, port := v.port
                 linkA := v.linkA, linkB := v.linkB, owed := v.owed }
    ∧ v.pool = { u.pool with waitCount := if s.pool.waitList = [] then s.pool.waitCount else s.pool.waitCount + 1 }
    ∧ v.pool.waitList = s.pool.waitList
    ∧ (∀ l, v.link l = { u.link l with watchdog := (s.link l).watchdog.map (fun c =>
        if (s.link l).alive = true ∧ 1 ≤ s.watchdogStrap ∧ s.watchdogStrap ≤ 3 then
          min ([1000, 4000, 16000].getD (s.watchdogStrap - 1) 0) (c + 1) else c) }
      ∧ (v.link l).alive = (s.link l).alive)
    ∧ (v.stamp = (s.stamp + 1) % 65536 ∧ v.port = s.port.tick ∧ v.admitting = s.admitting ∧ v.align = s.align
      ∧ v.watchdogStrap = s.watchdogStrap ∧ v.peer = { s.peer with adverts := s.peer.adverts.map Advert.tick })
    ∧ ∀ c, v.ctx c = (s.ctx c).tick := by
  intro v
  have hsame := hu.same
  have hstrap : u.watchdogStrap = s.watchdogStrap := by rw [hsame]; rfl
  have hport : u.port = s.port := by rw [hsame]; rfl
  have hpool : u.pool = { s.pool with free := u.pool.free } := by rw [hsame]; rfl
  have hwait : s.tickWork.pool.waitCount = if s.pool.waitList = [] then s.pool.waitCount else s.pool.waitCount + 1 := by
    show s.pool.tick.waitCount = _
    rw [Pool.tick_eq]
  have hvpool : v.pool = { u.pool with waitCount := s.tickWork.pool.waitCount } := rfl
  have hlink (l : Link) : v.link l = (u.link l).tick (Config.watchdogTimeout u.watchdogStrap) := by cases l <;> rfl
  refine ⟨rfl, by rw [hvpool, hwait], by rw [hvpool, hpool], fun l => ?_, ⟨?_, ?_, ?_, ?_, ?_, rfl⟩, s.ctx_tickWork⟩
  · obtain ⟨ha, hw⟩ := hu.counts l
    have ha' : (u.link l).alive = (s.link l).alive := ha.trans (by cases l <;> rfl)
    have hw' : (u.link l).watchdog = (s.link l).watchdog := hw.trans (by cases l <;> rfl)
    have hticked := (u.link l).tick_eq s.watchdogStrap
    rw [← hstrap, ← hlink] at hticked
    refine ⟨?_, by rw [hticked]; exact ha'⟩
    rw [hticked]
    simp only [ha', hw', hstrap]
  · show u.stamp = _
    rw [hsame]
    rfl
  · show u.port.tick = _
    rw [hport]
  · show u.admitting = _
    rw [hsame]
    rfl
  · show u.align = _
    rw [hsame]
    rfl
  · exact hstrap

/-- The lingers that a boundary brings to 0. -/
theorem mem_expiredSlots_tick {v : State} {p : PeerExchange} (h : v.peer.adverts = p.adverts.map Advert.tick) (x : Nat) :
    x ∈ v.expiredSlots ↔ ∃ a n k, a ∈ p.adverts ∧ a.slot = x ∧ a.kind = .linger n k ∧ n ≤ 1 := by
  have hexpired (a : Advert) : a.tick.expired = true ↔ ∃ n k, a.kind = .linger n k ∧ n ≤ 1 := by
    rw [Advert.tick_eq]
    cases hk : a.kind with
    | context c => simp [Advert.expired, hk]
    | linger n k =>
      simp only [Advert.expired, beq_iff_eq, AdvertKind.linger.injEq]
      refine ⟨fun hz => ⟨n, k, ⟨rfl, rfl⟩, by omega⟩, ?_⟩
      rintro ⟨m, j, ⟨rfl, rfl⟩, hle⟩
      omega
  have hslot (a : Advert) : a.tick.slot = a.slot := by
    rw [Advert.tick_eq]
    cases a.kind <;> rfl
  unfold State.expiredSlots
  rw [h]
  simp only [List.mem_map, List.mem_filter]
  constructor
  · rintro ⟨_, ⟨⟨a, ha, rfl⟩, he⟩, rfl⟩
    obtain ⟨n, k, hk, hle⟩ := (hexpired a).1 he
    exact ⟨a, n, k, ha, (hslot a).symm, hk, hle⟩
  · rintro ⟨a, n, k, ha, rfl, hk, hle⟩
    exact ⟨a.tick, ⟨⟨a, ha, rfl⟩, (hexpired a).2 ⟨n, k, hk, hle⟩⟩, hslot a⟩

theorem tick_ctx_eq (x : Ctx) : x.tick = { x with
    stepTimer := if x.stepRunning then x.stepTimer + 1 else x.stepTimer
    bridgeTimer := if x.state = .measure ∧ x.begun = false then x.bridgeTimer + 1 else x.bridgeTimer
    abortCount := if x.state = .aborting then min 32 (x.abortCount + 1) else x.abortCount } := by
  unfold Ctx.tick
  simp only [Bool.not_eq_true']

/-- Settles O12: the parts of a boundary, and the events it owes taken kind by kind. -/
theorem boundariesRaiseTheTimers : Obligations.BoundariesRaiseTheTimers := by
  intro s hs hb ho
  obtain ⟨hpower, hq⟩ := hs
  obtain ⟨t, ht⟩ : ∃ t, t = s.takeBoundary [] := ⟨_, rfl⟩
  have htb := State.takeBoundary_nil hq ho t.owed
  have hrun : exec (.superframeBoundary []) s = .next t := by
    refine congrArg Host.Outcome.next ((State.event_rests ⟨hpower, hq⟩ _).trans ?_)
    rw [ht]
    exact if_pos hb
  have hu : Supervised (s.dated t.owed) (s.supervisedApart t.owed) := Supervised.foldl (fun n hn => List.mem_range.1 hn) _
  rw [← ht] at htb
  clear ht
  unfold State.timed at htb
  obtain ⟨u, hfold⟩ : ∃ u, (List.range 480).foldl State.superviseCircuit { s with
      boundaryDue := false, owed := t.owed, stamp := (s.stamp + 1) % 65536 } = u := ⟨_, rfl⟩
  rw [show s.supervisedApart t.owed = u from hfold] at htb hu
  obtain ⟨hsame, hpool, hwait, hlink, ⟨hstamp, hport, hadmitting, halign, hstrap, hpeer⟩, hctx⟩ := State.timed_facts hu
  generalize (u.withWork s.countedWork).tickPorts = v at *
  have howed (e : BoundaryEvent) : e ∈ t.owed ↔
      (e ∈ openingEvents ∧ s.opens e = true) ∨ e ∈ v.lateEvents s.abortingContexts := by
    have h : t.owed = admissionLast (s.countedWork.owed ++ v.lateEvents s.abortingContexts) := by
      rw [htb]
    rw [h, mem_admissionLast, List.mem_append]
    exact or_congr_left List.mem_filter
  have hkept : t = { v with owed := t.owed } := by rw [htb]
  clear htb
  have hlinks (l : Link) : t.link l = v.link l := by rw [hkept]; cases l <;> rfl
  have hctxs (c : Nat) : t.ctx c = v.ctx c := by rw [hkept]; rfl
  have htport : t.port = v.port := by rw [hkept]
  have htpool : t.pool = v.pool := by rw [hkept]
  have htpeer : t.peer = v.peer := by rw [hkept]
  refine ⟨t, hrun, ?_, ?_, ?_, fun c hc => ?_, ?_⟩
  · simp only [hfold]
    refine ⟨?_, by rw [htpool, hpool], fun l => by rw [hlinks, (hlink l).1]⟩
    have howedu : u.owed = t.owed := by rw [hu.same]; rfl
    have hwork : t.contexts = v.contexts ∧ t.linkA = v.linkA ∧ t.linkB = v.linkB := by
      rw [hkept]
      exact ⟨rfl, rfl, rfl⟩
    obtain ⟨htcontexts, htA, htB⟩ := hwork
    rw [htcontexts, htpool, htpeer, htport, htA, htB]
    calc t = { v with owed := t.owed } := hkept
      _ = { u with contexts := v.contexts, pool := v.pool, peer := v.peer, port := v.port
                   linkA := v.linkA, linkB := v.linkB, owed := t.owed } :=
          congrArg (fun x : State => { x with owed := t.owed }) hsame
      _ = _ := by rw [← howedu]
  · rw [htport, hport]
    rfl
  · rw [htpeer, hpeer]
    refine congrArg (fun l => { s.peer with adverts := l }) (List.map_congr_left fun a _ => ?_)
    rw [Advert.tick_eq] <;> cases a.kind <;> rfl
  · rw [hctxs, hctx, tick_ctx_eq]
  have hzero : v.stamp % 128 = (s.stamp + 1) % 128 := by rw [hstamp]; omega
  have hstep (c : Nat) : v.stepTimeoutDue c = true ↔ (s.ctx c).stepRunning = true
      ∧ s.admitting.stepTimeout ≤ (s.ctx c).stepTimer + 1 := by
    rw [State.stepTimeoutDue, hctx, hadmitting, tick_ctx_eq]
    cases (s.ctx c).stepRunning <;> simp
  have hbridge (c : Nat) : v.bridgeTimeoutDue c = true ↔ (s.ctx c).state = .measure ∧ (s.ctx c).begun = false
      ∧ s.admitting.bridgeTimeout ≤ (s.ctx c).bridgeTimer + 1 := by
    rw [State.bridgeTimeoutDue, hctx, hadmitting, tick_ctx_eq]
    simp only [Bool.and_eq_true, beq_iff_eq, Bool.not_eq_true', decide_eq_true_eq, and_assoc]
    refine and_congr_right fun hmeasure => and_congr_right fun hbegun => ?_
    rw [if_pos ⟨hmeasure, hbegun⟩]
  have hpooldue : v.poolTimeoutDue = true ↔ s.pool.waitList ≠ [] ∧ s.align.poolTimeout < s.pool.waitCount + 1 := by
    unfold State.poolTimeoutDue
    rw [hwait, halign, hpool]
    by_cases h : s.pool.waitList = [] <;> simp [h]
  have haborting (c : Nat) (hc : c < 8) : (c ∈ s.abortingContexts ∧ (v.ctx c).state = .aborting)
      ↔ (s.ctx c).state = .aborting := by
    rw [hctx]
    simp only [State.abortingContexts, contextNumbers, List.mem_filter, List.mem_range, hc, true_and, beq_iff_eq]
    exact and_self_iff
  have hending (c : Nat) (hc : 8 ≤ c) : c ∉ s.abortingContexts := fun h => by
    have := List.mem_range.1 (List.mem_filter.1 h).1
    omega
  have hwindow : v.port.windowPosition = s.port.windowPosition + 1 := by rw [hport]; rfl
  have hdrained (x : Nat) : (s.span x).state.drained.isSome = true
      ↔ (s.span x).state = .drainIn ∨ (s.span x).state = .drainOut := by
    cases (s.span x).state <;> decide
  have hsilent (l : Link) := State.linkSilentDue_timed (l := l) hstrap (hlink l).2 (by rw [(hlink l).1])
  have hlingers (x : Nat) := mem_expiredSlots_tick (p := s.peer) (v := v) (by rw [hpeer]) x
  simp only [howed, mem_openingEvents, State.mem_lateEvents, State.opens, true_and, and_true, false_and, or_false,
    false_or, hzero, hstep, hbridge, hpooldue, hwindow, hdrained, hsilent, hlingers]
  have hless {c : Nat} (hc : 8 ≤ c) {p : Prop} : ¬ (c < 8 ∧ p) := fun h => absurd h.1 (Nat.not_lt.2 hc)
  refine ⟨Option.isSome_iff_ne_none, fun _ => trivial, fun _ => trivial, fun _ => trivial, fun _ => not_false,
    fun c hc => ?_, fun c hc => ?_⟩
  · exact ⟨hless hc, hless hc, hless hc, hless hc, fun h => hending c hc h.1⟩
  · simp only [hc, true_and, haborting c hc, Bool.and_eq_true, beq_iff_eq, and_self]

end Sys2Proof.Machine
end

section
/-! Time through the operations of the blocks (R1): none of them counts a frame, a superframe or a boundary, and none owes
a slow tick. -/

namespace Sys2Proof.Machine

/-- From `s` to `t` no time has passed: the counts stand, and no slow tick is newly owed. -/
structure Timely (s t : State) : Prop where
  frameCount : t.frameCount = s.frameCount
  stamp : t.stamp = s.stamp
  boundaryDue : t.boundaryDue = s.boundaryDue
  slowTick : BoundaryEvent.slowTick ∈ t.owed → BoundaryEvent.slowTick ∈ s.owed

namespace Timely

theorem refl (s : State) : Timely s s := ⟨rfl, rfl, rfl, id⟩

theorem trans {s t u : State} (h : Timely s t) (k : Timely t u) : Timely s u :=
  ⟨k.frameCount.trans h.frameCount, k.stamp.trans h.stamp, k.boundaryDue.trans h.boundaryDue, h.slowTick ∘ k.slowTick⟩

theorem ite {p : Prop} [Decidable p] {s t u : State} (h : Timely s t) (k : Timely s u) :
    Timely s (if p then t else u) := by
  split
  · exact h
  · exact k

theorem foldl {α : Type} {f : State → α → State} (h : ∀ t a, Timely t (f t a)) (l : List α) (s : State) :
    Timely s (l.foldl f s) := by
  induction l generalizing s with
  | nil => exact refl s
  | cons a rest ih => exact (h s a).trans (ih (f s a))

/-- An update of what is neither a count of time nor an event owed. -/
theorem elsewhere {s t : State} (h1 : t.frameCount = s.frameCount) (h2 : t.stamp = s.stamp)
    (h3 : t.boundaryDue = s.boundaryDue) (h4 : t.owed = s.owed) : Timely s t :=
  ⟨h1, h2, h3, by rw [h4]; exact id⟩

theorem modCircuit (s : State) (n : Nat) (f : Circuit → Circuit) : Timely s (s.modCircuit n f) := ⟨rfl, rfl, rfl, id⟩

theorem modCtx (s : State) (c : Nat) (f : Ctx → Ctx) : Timely s (s.modCtx c f) := ⟨rfl, rfl, rfl, id⟩

theorem modSpan (s : State) (x : Nat) (f : Span → Span) : Timely s (s.modSpan x f) := ⟨rfl, rfl, rfl, id⟩

theorem modGroup (s : State) (g : Nat) (f : Group → Group) : Timely s (s.modGroup g f) := ⟨rfl, rfl, rfl, id⟩

theorem setCtx (s : State) (c : Nat) (x : Ctx) : Timely s (s.setCtx c x) := ⟨rfl, rfl, rfl, id⟩

theorem setFault (s : State) (k : FaultKind) (x : Nat) (r : FaultRecord) : Timely s (s.setFault k x r) := ⟨rfl, rfl, rfl, id⟩

theorem returnCells (s : State) (k : Nat) : Timely s (s.returnCells k) := ⟨rfl, rfl, rfl, id⟩

theorem pool (s : State) (p : Pool) : Timely s { s with pool := p } := ⟨rfl, rfl, rfl, id⟩

theorem queued (s : State) (q : List Entry) : Timely s { s with queue := q } := ⟨rfl, rfl, rfl, id⟩

theorem faultUnit (s : State) (f : FaultUnit) : Timely s { s with faults := f } := ⟨rfl, rfl, rfl, id⟩

theorem raise (s : State) (e : Event) : Timely s (s.raise e) := ⟨rfl, rfl, rfl, id⟩

theorem advertise (s : State) (c : Nat) (st : Step) (b : Byte) : Timely s (s.advertise c st b) := ⟨rfl, rfl, rfl, id⟩

theorem beginLinger (s : State) (c : Nat) : Timely s (s.beginLinger c) := ⟨rfl, rfl, rfl, id⟩

theorem makeContextEntry (s : State) (c x : Nat) (st : Step) : Timely s (s.makeContextEntry c x st) := ⟨rfl, rfl, rfl, id⟩

theorem migrate (s : State) (n c : Nat) : Timely s (s.migrate n c) := modCircuit _ _ _

theorem leaveWaitList (s : State) (c : Nat) : Timely s (s.leaveWaitList c) := ⟨rfl, rfl, rfl, id⟩

theorem enterMeasure (s : State) (c : Nat) : Timely s (s.enterMeasure c) := (modCtx _ _ _).trans (advertise _ _ _ _)

theorem enterReady (s : State) (c : Nat) : Timely s (s.enterReady c) := (modCtx _ _ _).trans (advertise _ _ _ _)

theorem raiseAborted (s : State) (c : Nat) : Timely s (s.raiseAborted c) := raise _ _

theorem forget (s : State) (e : BoundaryEvent) : Timely s (s.forget e) :=
  ⟨rfl, rfl, rfl, fun h => (List.mem_filter.1 h).1⟩

theorem takeOwed {s : State} {e : BoundaryEvent} {f : State → State} (h : ∀ t, Timely t (f t)) :
    Timely s (s.takeOwed e f) := ite ((forget _ _).trans (h _)) (refl s)

/-! ### Circuits and conditioning -/

theorem of_rederived {ns : List Nat} {s t : State} (h : Rederived ns s t) : Timely s t :=
  elsewhere (by rw [h.same]) (by rw [h.same]) (by rw [h.same]) (by rw [h.same])

theorem recondition (s : State) (n : Nat) : Timely s (s.recondition n) := of_rederived (Rederived.recondition s n)

theorem reconditionAll (s : State) (ns : List Nat) : Timely s (s.reconditionAll ns) :=
  of_rederived (Rederived.reconditionAll s ns)

theorem supervise (s : State) : Timely s s.supervise :=
  have h : Supervised s s.supervise := Supervised.foldl (fun _ hn => List.mem_range.1 hn) s
  elsewhere (by rw [h.same]) (by rw [h.same]) (by rw [h.same]) (by rw [h.same])

theorem setSignalling (s : State) (gs : List Nat) (m : SignallingSettings) : Timely s (s.setSignalling gs m) :=
  Timely.trans (t := s.modGroups gs (fun g => g.withSignalling m)) ⟨rfl, rfl, rfl, id⟩
    (foldl (fun t n => (modCircuit t n (fun c => c.resignal m)).trans
      (of_rederived (Rederived.deriveCall _ n))) _ _)

/-! ### Migration contexts -/

theorem forgetContext (s : State) (c : Nat) : Timely s (s.forgetContext c) :=
  ((forget _ _).trans (forget _ _)).trans (forget _ _)

theorem reenter (s : State) (e : Entry) : Timely s (s.reenter e).1 := by
  unfold State.reenter
  split
  · exact queued _ _
  · exact refl s

theorem reenterParked (s : State) (e : Option Entry) : Timely s (s.reenterParked e) := by
  unfold State.reenterParked
  split
  · exact refl s
  · next e =>
    have h := reenter s e
    split
    · next heq => rw [heq] at h; exact h
    · next heq => rw [heq] at h; exact h.trans (raise _ _)

theorem reenterServed (s : State) (c : Nat) : Timely s (s.reenterServed c) := by
  unfold State.reenterServed
  split
  · exact raiseAborted _ _
  · next e _ =>
    have h := reenter s { e with idleOnly := true }
    split
    · next heq => rw [heq] at h; exact h.trans (raise _ _)
    · next heq => rw [heq] at h; exact h.trans (raise _ _)

theorem leaveContext (s : State) (c : Nat) : Timely s (s.leaveContext c) := by
  have h1 : Timely s (s.modCircuit (s.ctx c).circuit (fun d => { d.enter
      (s.lockedState (s.ctx c).circuit (s.ctx c).origin) with
        context := none, lastAbort := (s.ctx c).abortCause })) := modCircuit _ _ _
  have h2 := h1.trans (ite (p := (s.ctx c).deferred = true) (reenterServed _ c) (refl _))
  exact ((h2.trans (modCtx _ _ _)).trans (reenterParked _ _)).trans (recondition _ _)

theorem makeReturn (s : State) (c : Nat) : Timely s (s.makeReturn c) :=
  ((modCircuit _ _ _).trans (returnCells _ _)).trans (leaveContext _ c)

theorem settleUnswitched (s : State) (c : Nat) : Timely s (s.settleUnswitched c) :=
  ite (((modCircuit _ _ _).trans (modCtx _ _ _)).trans (returnCells _ _))
    (((modCircuit _ _ _).trans (modCtx _ _ _)).trans (returnCells _ _))

theorem settleAll (s : State) (c : Nat) : Timely s (s.settleAll c) := by
  unfold State.settleAll
  exact ((modCircuit _ _ _).trans (modCtx _ _ _)).trans (returnCells _ _)

theorem abortWith (s : State) (c : Nat) (cause : Cause) (pc : Option Byte) (d : Bool) :
    Timely s (s.abortWith c cause pc d) := by
  have h1 : Timely s ((s.leaveWaitList c).forgetContext c) :=
    (leaveWaitList s c).trans (forgetContext _ c)
  have h2 := h1.trans (ite (p := (s.ctx c).switched = true) (refl _) (settleUnswitched _ c))
  have h3 := (h2.trans (modCtx _ c (fun x => x.abortWith cause pc d))).trans (advertise _ c .abort cause.byte)
  have h4 := h3.trans (ite (p := d = true) (refl _) (raiseAborted _ c))
  exact ite h4 (h4.trans (leaveContext _ c))

theorem abort (s : State) (c : Nat) (cause : Cause) (pc : Option Byte) : Timely s (s.abort c cause pc) :=
  ite (refl s) (abortWith _ _ _ _ _)

theorem defer (s : State) (c : Nat) : Timely s (s.defer c) := ite (refl s) (abortWith _ _ _ _ _)

theorem endByFault (s : State) (c : Nat) : Timely s (s.endByFault c) := by
  have h1 : Timely s (((s.leaveWaitList c).forgetContext c).settleAll c) :=
    ((leaveWaitList s c).trans (forgetContext _ c)).trans (settleAll _ c)
  have h2 := (h1.trans (modCtx _ c (fun x => { x.abortWith .fibreFault none false with
      returnPending := false, served := none, parked := none }))).trans (advertise _ c .abort Cause.fibreFault.byte)
  have h3 := h2.trans (modCircuit _ (s.ctx c).circuit (fun d => { d.enter .copper with
      context := none, lastAbort := some .fibreFault }))
  exact ((h3.trans (raiseAborted _ c)).trans (reenterParked _ _)).trans (recondition _ _)

theorem busySwitch (s : State) (c : Nat) : Timely s (s.busySwitch c) :=
  ite ((modCircuit _ _ _).trans (modCtx _ _ _)) (((modCircuit _ _ _).trans (modCtx _ _ _)).trans (returnCells _ _))

theorem idleSwitch (s : State) (c : Nat) : Timely s (s.idleSwitch c) := by
  unfold State.idleSwitch
  exact ((modCircuit _ _ _).trans (modCtx _ _ _)).trans (returnCells _ _)

theorem makeSwitch (s : State) (c : Nat) : Timely s (s.makeSwitch c) :=
  ite (ite (defer s c) ((((ite (busySwitch s c) (idleSwitch s c)).trans (modCircuit _ _ _)).trans (modCtx _ _ _)).trans
    ((advertise _ _ _ _).trans (recondition _ _)))) (refl s)

theorem complete (s : State) (c : Nat) : Timely s (s.complete c) :=
  (((modCircuit _ _ _).trans (forgetContext _ _)).trans (modCtx _ _ _)).trans
    ((reenterParked _ _).trans ((raise _ _).trans ((beginLinger _ _).trans (recondition _ _))))

theorem completeIfDue (s : State) (c : Nat) : Timely s (s.completeIfDue c) := ite (complete s c) (refl s)

theorem returnIfPending (s : State) (c : Nat) : Timely s (s.returnIfPending c) := ite (makeReturn s c) (refl s)

theorem endAborting (s : State) (c : Nat) : Timely s (s.endAborting c) := by
  have h : Timely s (if (s.ctx c).returnPending then s.makeReturn c else s) := ite (makeReturn s c) (refl s)
  exact ite (ite (h.trans (modCtx _ _ _)) (ite ((h.trans (beginLinger _ _)).trans (modCtx _ _ _)) h)) (refl s)

theorem admitEntry (s : State) (e : Entry) (c : Nat) : Timely s (s.admitEntry e c) :=
  ((((queued _ _).trans (setCtx _ _ _)).trans (migrate _ _ _)).trans (makeContextEntry _ _ _ _)).trans
    ((raise _ _).trans (recondition _ _))

theorem makeAdmission (s : State) : Timely s s.makeAdmission := by
  unfold State.makeAdmission
  split
  · exact refl s
  · split
    · exact admitEntry s _ _
    · exact refl s

/-! ### Alignment and the cell pool -/

theorem enterAllocate (s : State) (c : Nat) : Timely s (s.enterAllocate c) := by
  have h : Timely s { s.modCtx c (fun x => { x with state := .allocate }) with
      pool := { s.pool with
        waitList := s.pool.waitList ++ [c]
        waitCount := if s.pool.waitList.isEmpty then 0 else s.pool.waitCount } } := (modCtx _ _ _).trans (pool _ _)
  exact ite h (h.trans (raise _ _))

theorem prepareSwitch (s : State) (c : Nat) : Timely s (s.prepareSwitch c) :=
  ite (enterReady _ _) (ite ((modCtx _ _ _).trans (enterReady _ _)) (enterAllocate _ _))

theorem beginAttempt (s : State) (c k : Nat) : Timely s (s.beginAttempt c k) := modCtx _ _ _

theorem endAttempt (s : State) (c : Nat) : Timely s (s.endAttempt c) :=
  ite ((modCtx _ _ _).trans (prepareSwitch _ _)) (ite (beginAttempt _ _ _) (abort _ _ _ _))

theorem measureIfDue (s : State) (c : Nat) : Timely s (s.measureIfDue c) := ite (endAttempt s c) (refl s)

theorem startAttempt (s : State) (c : Nat) : Timely s (s.startAttempt c) := by
  unfold State.startAttempt
  split
  · exact (forget _ _).trans (beginAttempt _ _ _)
  · exact (forget _ _).trans (beginAttempt _ _ _)
  · exact ((forget _ _).trans (modCtx _ _ _)).trans (enterReady _ _)

theorem startIfDue (s : State) (c : Nat) : Timely s (s.startIfDue c) := ite (startAttempt s c) (refl s)

theorem markerTimeoutIfDue (s : State) (c : Nat) : Timely s (s.markerTimeoutIfDue c) := ite (abort s c _ _) (refl s)

theorem serve (s : State) (c : Nat) : Timely s (s.serve c) := by
  have h : Timely s (State.modCtx { s with
      pool := ⟨s.pool.free - (s.ctx c).need, s.pool.waitList.tail, 0⟩ } c (fun y => { y with cells := (s.ctx c).need })) :=
    (pool s _).trans (modCtx _ _ _)
  exact ite ((h.trans (modCircuit _ _ _)).trans (enterReady _ _)) (h.trans (modCtx _ _ _))

theorem servicePool (k : Nat) (s : State) : Timely s (s.servicePool k) := by
  induction k generalizing s with
  | zero => exact refl s
  | succ k ih =>
    unfold State.servicePool
    split
    · exact refl s
    · exact ite ((serve _ _).trans (ih _)) (refl s)

theorem serviceAll (s : State) : Timely s s.serviceAll := servicePool 8 s

theorem poolTimeoutIfDue (s : State) : Timely s s.poolTimeoutIfDue := by
  unfold State.poolTimeoutIfDue
  split
  · exact refl s
  · exact ite (abort s _ _ _) (refl s)

theorem walkInsert (s : State) (n c : Nat) : Timely s (s.walkInsert n c) :=
  ite ((modCircuit _ _ _).trans (enterReady _ _)) (modCircuit _ _ _)

theorem walkSlip (s : State) (n : Nat) : Timely s (s.walkSlip n) := by
  have h : ∀ b, Timely s ((s.modCircuit n (fun c => { c.slipOn c.residualPath with
      residual := c.residual - 1, cellsHeld := c.cellsHeld - b })).returnCells b) := fun b =>
    (modCircuit _ _ _).trans (returnCells _ _)
  exact ite ((h _).trans (raise _ _)) (h _)

theorem walkCircuit (s : State) (n : Nat) : Timely s (s.walkCircuit n) := by
  unfold State.walkCircuit
  dsimp only
  split
  · exact ite (walkInsert _ _ _) (ite (walkSlip s n) (refl s))
  · exact ite (walkSlip s n) (refl s)

theorem walk (s : State) : Timely s s.walk := Timely.trans (foldl walkCircuit _ s) ⟨rfl, rfl, rfl, id⟩

/-! ### Faults, reversion and return to fibre -/

theorem faultEnds (s : State) (k : FaultKind) (c : Nat) : Timely s (s.faultEnds k c) := by
  have hport (cause : Cause) : Timely s (s.endByPort c cause) := by
    unfold State.endByPort
    split
    · exact abort s c _ _
    · exact endByFault s c
  have hcopper : Timely s (s.endByCopper c) := by
    unfold State.endByCopper
    split
    · exact ite (refl s) (abort s c _ _)
    · exact abort s c _ _
  cases k
  case fibreLos => exact hport _
  case fibreErr => exact hport _
  case peerSilent => exact hport _
  case copperLos => exact hcopper
  case switchLos => exact hcopper
  case mapMismatch => exact refl s
  case siteClash => exact refl s
  case markerLoss => exact refl s

theorem faultAbort (s : State) (k : FaultKind) (x : Nat) : Timely s (s.faultAbort k x) :=
  foldl (fun t c => ite (faultEnds t k c) (refl t)) _ s

theorem becomeLive (s : State) (k : FaultKind) (x : Nat) : Timely s (s.becomeLive k x) := by
  have h1 : Timely s ((s.setFault k x { s.fault k x with live := true, latched := true }).raise
      (faultEvent .faultSet k x)) := (setFault _ _ _ _).trans (raise _ _)
  have h2 := h1.trans (ite (p := (s.fault k x).actions.abort = true) (faultAbort _ k x) (refl _))
  exact (h2.trans (ite (faultUnit _ _) (refl _))).trans (reconditionAll _ _)

theorem declare (s : State) (k : FaultKind) (x : Nat) : Timely s (s.declare k x) := by
  have h1 : Timely s (s.setFault k x { s.fault k x with declared := true }) := setFault _ _ _ _
  exact ite (h1.trans (becomeLive _ k x)) h1

theorem copperReturns (s : State) : Timely s s.copperReturns := by
  unfold State.copperReturns
  split
  · exact elsewhere rfl rfl rfl rfl
  · exact refl s

theorem ceaseLive (s : State) (k : FaultKind) (x : Nat) : Timely s (s.ceaseLive k x) :=
  Timely.trans (ite (copperReturns s) (refl s)) (reconditionAll _ _)

theorem clearFault (s : State) (k : FaultKind) (x : Nat) : Timely s (s.clearFault k x) :=
  ite (((setFault _ _ _ _).trans (raise _ _)).trans (ceaseLive _ k x)) (setFault _ _ _ _)

theorem setPolicy (s : State) (k : FaultKind) (on : Bool) (acts : Actions) (x : Nat) :
    Timely s (s.setPolicy k on acts x) := by
  simp only [State.setPolicy]
  split
  · exact (setFault s k x { s.fault k x with enabled := true, actions := acts }).trans
      (ite ((ite (faultUnit _ _) (refl _)).trans (reconditionAll _ _)) (ite (becomeLive _ k x) (refl _)))
  · exact (setFault s k x { s.fault k x with
      enabled := false, actions := acts, live := false, latched := false }).trans
      (ite (ceaseLive _ k x) (reconditionAll _ _))

theorem revertCircuit (s : State) (k : FaultKind) (n : Nat) : Timely s (s.revertCircuit k n) :=
  (((modCircuit _ _ _).trans (returnCells _ _)).trans (raise _ _)).trans (recondition _ _)

theorem restate (s : State) (g : Nat) (old new : MigState) : Timely s (s.restate g old new) := ⟨rfl, rfl, rfl, id⟩

theorem countRevert (s : State) (g : Nat) : Timely s (s.countRevert g) := by
  unfold State.countRevert
  have h : Timely s (s.modGroup g Group.countRevert) := modGroup _ _ _
  generalize s.modGroup g Group.countRevert = t at h
  dsimp only
  split
  · exact h.trans (((modGroup _ _ _).trans (restate _ _ _ _)).trans (raise _ _))
  · exact h

theorem makeRevert (s : State) : Timely s s.makeRevert := by
  unfold State.makeRevert
  split
  · exact refl s
  · next k _ =>
    dsimp only
    generalize List.filter s.reverts allCircuits = taken
    have h1 := foldl (f := fun t n => State.revertCircuit t k n) (fun t n => revertCircuit t k n) taken s
    exact (h1.trans (foldl countRevert (allGroups.filter _) _)).trans (faultUnit _ _)

theorem autoQueue (s : State) (n : Nat) : Timely s (s.autoQueue n) := by
  unfold State.autoQueue
  split
  · exact (queued _ _).trans (raise _ _)
  · exact refl s

theorem autoReturn (s : State) : Timely s s.autoReturn := foldl autoQueue _ s

/-- A slow tick owes window expiries and nothing else. -/
theorem makeSlowTick (s : State) : Timely s s.makeSlowTick := by
  unfold State.makeSlowTick
  dsimp only
  refine Timely.trans (t := { s with
    groups := Table.mapIdx s.groups (fun _ g => g.tickWindow)
    owed := s.owed ++ (allGroups.filter (fun g => (s.group g).windowEnds)).map BoundaryEvent.windowExpiry
    faults := { s.faults with health := if s.liveRevert.isSome then 0 else min 255 (s.faults.health + 1) } })
    ⟨rfl, rfl, rfl, fun h => ?_⟩ (autoReturn _)
  obtain hold | hnew := List.mem_append.1 h
  · exact hold
  · obtain ⟨g, -, hg⟩ := List.mem_map.1 hnew
    cases hg

/-! ### Spans -/

theorem clearMarkerLoss (s : State) (x : Nat) : Timely s (s.clearMarkerLoss x) :=
  ite ((modSpan _ _ _).trans (clearFault _ _ _)) (refl s)

theorem becomeCut (s : State) (x : Nat) : Timely s (s.becomeCut x) := (modSpan _ _ _).trans (reconditionAll _ _)

theorem becomeThrough (s : State) (x : Nat) : Timely s (s.becomeThrough x) :=
  ((modSpan _ _ _).trans (clearMarkerLoss _ x)).trans (reconditionAll _ _)

theorem moveSpan (s : State) (x : Nat) (new : SpanState) : Timely s (s.moveSpan x new) := by
  have h0 := forget s (.drainComplete x)
  have hcut := h0.trans (becomeCut _ x)
  have hthrough := h0.trans (becomeThrough _ x)
  have hmove := ite (p := (s.span x).state.cut = new.cut)
    (h0.trans (modSpan _ x (fun y => { y with state := new }))) (ite (p := new.cut = true) hcut hthrough)
  exact hmove.trans (raise _ _)

theorem drainTest (s : State) (x : Nat) : Timely s (s.drainTest x) := by
  unfold State.drainTest
  split
  · exact refl s
  · exact ite (moveSpan s x _) (refl s)

theorem takeDrains (s : State) (x : Nat) : Timely s (s.takeDrains x) :=
  ite (foldl (fun _ k => takeOwed (fun t => drainTest t k)) _ s) (refl s)

theorem takeSpan (s : State) (x : Nat) (new : SpanState) : Timely s (s.takeSpan x new) := ite (refl s) (moveSpan s x new)

theorem declareMarkerLoss (s : State) (x : Nat) : Timely s (s.declareMarkerLoss x) :=
  ite ((modSpan _ _ _).trans (declare _ _ _)) (refl s)

theorem handLoss (s : State) (side : Side) (x : Nat) (a b : Bool) : Timely s (s.handLoss side x a b) :=
  ite (refl s) (ite (declare s _ x) (clearFault s _ x))

theorem formD (s : State) (x : Nat) : Timely s (s.formD x) := by
  unfold State.formD
  split
  · exact elsewhere rfl rfl rfl rfl
  · exact refl s

theorem recordCopper (s : State) (side : Side) (x : Nat) (c b : Bool) (ss : List Byte) (cs : List CodeArrival) :
    Timely s (s.recordCopper side x c b ss cs) := by
  unfold State.recordCopper
  dsimp only
  refine Timely.trans ?_ (modSpan _ _ _)
  exact ⟨rfl, rfl, rfl, id⟩

theorem markSpan (s : State) (x : Nat) : Timely s (s.markSpan x) := (modSpan _ _ _).trans (clearMarkerLoss _ _)

theorem missMarker (s : State) (x : Nat) : Timely s (s.missMarker x) := modSpan _ _ _

theorem receiveCopper (s : State) (side : Side) (x : Nat) (p : BitVec 7) (b : Bool) (ss : List Byte)
    (cs : List CodeArrival) : Timely s (s.receiveCopper side x p b ss cs) := by
  have hrec := recordCopper s side x (p == Config.framingPattern) b ss cs
  unfold State.receiveCopper
  cases side with
  | switch => exact hrec.trans (handLoss _ _ _ _ _)
  | line =>
    exact ite (((hrec.trans (handLoss _ _ _ _ _)).trans (markSpan _ x)).trans (formD _ x))
      ((hrec.trans (missMarker _ x)).trans (handLoss _ _ _ _ _))

end Timely

end Sys2Proof.Machine
end

section
/-! Time through every row of the table, and O3: a frame counts itself and takes a boundary that is due, a boundary raises
the stamp and owes the slow tick, and nothing else moves a count of time (R1). -/

namespace Sys2Proof.Machine

namespace Timely

/-! ### The carriage map -/

theorem judge {s w : State} {i : Nat} {es : List Edit} (h : s.judge i es = .inl w) : Timely s w :=
  have hs := State.judge_same h
  elsewhere (by rw [hs]) (by rw [hs]) (by rw [hs]) (by rw [hs])

theorem map (s : State) (m : CarriageMap) : Timely s { s with map := m } := ⟨rfl, rfl, rfl, id⟩

theorem adopt {s w : State} (h : s.judge 0 s.map.staging = .inl w) : Timely s (s.adopt w) := by
  unfold State.adopt
  exact (((judge h).trans (map _ _)).trans (raise _ _)).trans (reconditionAll _ _)

theorem applyEdits (s : State) : Timely s s.applyEdits.1 := by
  unfold State.applyEdits
  split
  · next hj => exact adopt hj
  · exact refl s

theorem modLink (s : State) (l : Link) (f : LinkRec → LinkRec) : Timely s (s.modLink l f) := by
  cases l <;> exact ⟨rfl, rfl, rfl, id⟩

theorem answer (s : State) (l : Link) (st : Status) (d : List Byte) : Timely s (s.answer l st d) := modLink _ _ _

theorem makeApply (s : State) : Timely s s.makeApply := by
  unfold State.makeApply
  dsimp only
  have h : Timely s { s.applyEdits.1 with map := { s.applyEdits.1.map with applyPending := false, applyAnswer := false } } :=
    (applyEdits s).trans (map _ _)
  exact ite (ite (h.trans (answer _ _ _ _)) (ite (h.trans (modLink _ _ _)) h)) (refl s)

theorem takeDigest (s : State) (d : BitVec 16) : Timely s (s.takeDigest d) :=
  ite (ite (ite ((map s _).trans (clearFault _ _ _)) (map s _)) (map s _))
    (ite (map s _) (ite ((map s _).trans (declare _ _ _)) (map s _)))

/-! ### The Peer Exchange -/

theorem peer (s : State) (p : PeerExchange) : Timely s { s with peer := p } := ⟨rfl, rfl, rfl, id⟩

theorem updateView (s : State) (st : Step) (w : ExchangeWord) : Timely s (s.updateView st w) :=
  ite (peer s _) (ite (peer s _) (peer s _))

theorem ageOut (s : State) (x : Nat) : Timely s (s.ageOut x) := by
  unfold State.ageOut
  have h := peer s { s.peer with view := s.peer.view.filter (fun y => y.slot != x) }
  split
  · split
    · dsimp only
      split
      · exact h.trans (modCtx _ _ _)
      · exact h
    · exact refl s
  · exact refl s

theorem declareSilentIfDue (s : State) : Timely s s.declareSilentIfDue :=
  ite ((peer s _).trans (declare _ _ _)) (refl s)

theorem clearSilent (s : State) : Timely s s.clearSilent := ite ((peer s _).trans (clearFault _ _ _)) (refl s)

theorem judgeSite (s : State) (x : Nat) : Timely s (s.judgeSite x) :=
  ite (ite (peer s _) (ite ((peer s _).trans (clearFault _ _ _)) (peer s _)))
    (ite ((peer s _).trans (declare _ _ _)) (refl s))

theorem peerAborts (s : State) (c : Nat) (b : Byte) : Timely s (s.peerAborts c b) := ite (defer _ _) (abort _ _ _ _)

theorem glare (s : State) (c : Nat) (d : Direction) (x : Nat) : Timely s (s.glare c d x) :=
  ite (refl s) (ite ((modCtx s c (fun y => { y with role := .responder })).trans (enterMeasure _ c))
    (abort _ _ _ _))

theorem actOn (s : State) (c : Nat) (st : Step) (b : Byte) (x : Nat) : Timely s (s.actOn c st b x) := by
  unfold State.actOn
  split <;> first
    | exact refl s
    | exact enterMeasure _ _
    | exact peerAborts _ _ _
    | exact abort _ _ _ _
    | exact glare _ _ _ _
    | exact modCtx _ _ _

theorem accept (s : State) (d : Direction) (x n c : Nat) : Timely s (s.accept d x n c) := by
  rw [State.accept_eq]
  exact Timely.trans (((((queued s _).trans (setCtx _ c _)).trans (modCircuit _ n _)).trans
    ((makeContextEntry _ c x _).trans (enterMeasure _ c))).trans (raise _ _)) (recondition _ n)

theorem makeLinger (s : State) (x : Nat) (st : Step) (b : Byte) : Timely s (s.makeLinger x st b) := ⟨rfl, rfl, rfl, id⟩

theorem judgeRequest (s : State) (d : Direction) (x : Nat) : Timely s (s.judgeRequest d x) := by
  unfold State.judgeRequest
  split
  · exact makeLinger _ _ _ _
  · exact accept _ _ _ _ _
  · exact refl s

theorem answerStep (s : State) (x : Nat) (st : Step) : Timely s (s.answerStep x st) := by
  have hstale : Timely s (State.answerStep.stale s x) := ite (refl s) (makeLinger _ _ _ _)
  have hrequest (d : Direction) : Timely s (if s.lingerFor x (fun k => k == .abort) then s else s.judgeRequest d x) :=
    ite (refl s) (judgeRequest _ _ _)
  cases st
  case reqFibre => exact hrequest _
  case reqCopper => exact hrequest _
  case bridged => exact hstale
  case ready => exact hstale
  case switched => exact hstale
  case abort => exact refl s
  case reject => exact refl s
  case digest => exact refl s

theorem dispatchSighting (s : State) (x : Nat) : Timely s (s.dispatchSighting x) := by
  unfold State.dispatchSighting
  split
  · split
    · split
      · exact (modCtx s _ _).trans (actOn _ _ _ _ _)
      · exact answerStep _ _ _
    · exact refl s
  · exact refl s

theorem exchangeWord (s : State) (w : ExchangeWord) : Timely s (s.exchangeWord w) := by
  unfold State.exchangeWord
  dsimp only
  split
  · exact judgeSite _ _
  · exact (judgeSite _ _).trans (takeDigest _ _)
  · exact ((judgeSite _ _).trans (updateView _ _ _)).trans (dispatchSighting _ _)

/-! ### The Fibre Port -/

theorem port (s : State) (p : FibrePort) : Timely s { s with port := p } := ⟨rfl, rfl, rfl, id⟩

theorem validWord (s : State) (w : ExchangeWord) : Timely s (s.validWord w) :=
  ((port s _).trans (clearSilent _)).trans (exchangeWord _ _)

theorem goodFrame (s : State) (b : List Byte) : Timely s (s.goodFrame b) :=
  ((port s _).trans (reconditionAll _ _)).trans (ite (validWord _ _) (port _ _))

theorem judgeFrame (s : State) (b : List Byte) : Timely s (s.judgeFrame b) := ite (goodFrame _ _) (port _ _)

theorem loseFibre (s : State) : Timely s s.loseFibre := ((port s _).trans (declare _ _ _)).trans (reconditionAll _ _)

theorem regainFibre (s : State) (p : Nat) (b : List Byte) : Timely s (s.regainFibre p b) :=
  ((port s _).trans (clearFault _ _ _)).trans (judgeFrame _ _)

theorem hunt (s : State) (l : List Byte) (i : Nat) : Timely s (s.hunt l i) := port s _

theorem receiveAligned (s : State) (l : List Byte) (i : Nat) : Timely s (s.receiveAligned l i) :=
  ite ((port s _).trans (judgeFrame _ _)) (ite ((loseFibre s).trans (hunt _ _ _)) ((port s _).trans (port _ _)))

theorem receiveTrial (s : State) (l : List Byte) (p i : Nat) : Timely s (s.receiveTrial l p i) :=
  ite (ite (regainFibre _ _ _) (port _ _)) (hunt _ _ _)

theorem receiveCarriage (s : State) (x : Nat) (b : List Byte) : Timely s (s.receiveCarriage x b) := by
  unfold State.receiveCarriage
  generalize frameAt b x = q
  dsimp only
  split
  · split
    · exact (port s _).trans (hunt _ _ _)
    · exact (port s _).trans (receiveTrial _ _ _ _)
  · split
    · exact port s _
    · exact (port s _).trans (receiveAligned _ _ _)

theorem endWindow (s : State) : Timely s s.endWindow := by
  have hjudge : Timely s s.judgeWindow :=
    ite (refl s) (ite (ite (refl s) ((port s _).trans (declare _ _ _))) (ite ((port s _).trans (clearFault _ _ _)) (refl s)))
  exact ite (hjudge.trans (port _ _)) (refl s)

/-! ### Settling and the events of a boundary -/

theorem settleContext (s : State) (c : Nat) : Timely s (s.settleContext c) :=
  (((serviceAll _).trans (completeIfDue _ _)).trans (startIfDue _ _)).trans (measureIfDue _ _)

theorem settle (s : State) : Timely s s.settle :=
  ((declareSilentIfDue _).trans (foldl settleContext _ _)).trans (serviceAll _)

theorem event {s : State} {f : State → State} (h : ∀ t, Timely t (f t)) : Timely s (s.event f) :=
  ite ((settle _).trans (h _)) (refl s)

theorem owedEvent {s : State} {e : BoundaryEvent} {f : State → State} (h : ∀ t, Timely t (f t)) :
    Timely s (s.owedEvent e f) := event fun _ => takeOwed h

theorem silenceIfDue (s : State) (l : Link) : Timely s (s.silenceIfDue l) :=
  ite ((modLink s l _).trans (raise _ _)) (refl s)

theorem expireLinger (s : State) (x : Nat) : Timely s (s.expireLinger x) := by
  unfold State.expireLinger
  split
  · exact peer s _
  · exact refl s

theorem perform (s : State) (e : BoundaryEvent) : Timely s (s.perform e) := by
  cases e
  case abortReturn c => exact owedEvent fun t => returnIfPending t c
  case switch c => exact owedEvent fun t => makeSwitch t c
  case revert => exact owedEvent makeRevert
  case walkSlot => exact owedEvent walk
  case mapApply => exact owedEvent makeApply
  case drainComplete x => exact event (f := fun t => State.takeDrains t x) fun t => takeDrains t x
  case slowTick => exact owedEvent makeSlowTick
  case windowEnd => exact owedEvent endWindow
  case windowExpiry g => exact owedEvent (f := fun t => State.expireWindow t g) fun _ => modGroup _ _ _
  case stepTimeout c => exact owedEvent (f := fun t => State.stepTimeoutIfDue t c) fun t => ite (abort t c _ _) (refl t)
  case bridgeTimeout c => exact owedEvent (f := fun t => State.bridgeTimeoutIfDue t c) fun t => ite (abort t c _ _) (refl t)
  case poolTimeout => exact owedEvent poolTimeoutIfDue
  case abortingEnd c => exact owedEvent fun t => endAborting t c
  case lingerExpiry x => exact owedEvent fun t => expireLinger t x
  case linkSilent l => exact owedEvent fun t => silenceIfDue t l
  case admission => exact owedEvent makeAdmission

/-! ### The bodies of the commands -/

theorem bodyUnequip (s : State) (n : Nat) : Timely s (s.bodyUnequip n).state := by
  unfold State.bodyUnequip
  split
  · split
    · exact refl s
    · exact ⟨rfl, rfl, rfl, id⟩
  · exact refl s

theorem resetMigration (s : State) : Timely s s.resetMigration := by
  have h : Timely s (s.running.foldl (fun t c => t.abort c .reset) s.discardEntries) :=
    Timely.trans (t := s.discardEntries) ⟨rfl, rfl, rfl, id⟩ (foldl (fun t c => abort t c _ _) _ _)
  unfold State.resetMigration
  generalize s.running.foldl (fun t c => t.abort c .reset) s.discardEntries = u at h
  exact h.trans ⟨rfl, rfl, rfl, id⟩

theorem clearLockout (s : State) (g : Nat) : Timely s (s.clearLockout g) :=
  (forget s (.windowExpiry g)).trans ⟨rfl, rfl, rfl, id⟩

theorem stage (s : State) (e : Edit) : Timely s (s.stage e).state := by
  unfold State.stage
  split
  · exact ⟨rfl, rfl, rfl, id⟩
  · exact refl s

theorem ite_state {p : Prop} [Decidable p] {s : State} {a b : Reply} (ha : Timely s a.state) (hb : Timely s b.state) :
    Timely s (if p then a else b).state := by
  split
  · exact ha
  · exact hb

theorem done {s t : State} {st : Status} {d : List Byte} (h : Timely s t) : Timely s (t.done st d).state := h

theorem refused (s : State) (st : Status) : Timely s (s.refuse st).state := refl s

theorem bodyEquip (s : State) (n g k : Nat) : Timely s (s.bodyEquip n g k).state := by
  unfold State.bodyEquip
  split
  · split
    · exact ite_state (refl s) (Timely.trans (modCircuit s n _) (recondition _ n))
    · exact refl s
  · exact refl s

theorem bodySetClass (s : State) (n k : Nat) : Timely s (s.bodySetClass n k).state := by
  unfold State.bodySetClass
  split
  · split
    · exact ite_state (refused s _) (done (modCircuit s n _))
    · exact refl s
  · exact refl s

theorem bodySetGroup (s : State) (n g : Nat) : Timely s (s.bodySetGroup n g).state :=
  ite_state (ite_state (refl s) (ite_state (refused s _) (done (modCircuit s n _)))) (refl s)

theorem bodySetFrozen (s : State) (x : Nat) (b : Bool) : Timely s (s.bodySetFrozen x b).state := by
  unfold State.bodySetFrozen
  split
  · exact ⟨rfl, rfl, rfl, id⟩
  · exact refl s

theorem bodySetMigration (s : State) (x p a h m w : Nat) : Timely s (s.bodySetMigration x p a h m w).state := by
  unfold State.bodySetMigration
  split
  · exact ⟨rfl, rfl, rfl, id⟩
  · exact refl s

theorem bodySetSignalling (s : State) (x i z a b zi ci c q : Nat) :
    Timely s (s.bodySetSignalling x i z a b zi ci c q).state := by
  unfold State.bodySetSignalling
  split
  · exact ite_state (refl s) (setSignalling s _ _)
  · exact refl s

theorem bodyInsertSpan (s : State) (x m : Nat) : Timely s (s.bodyInsertSpan x m).state := by
  unfold State.bodyInsertSpan
  split
  · split
    · split
      · exact takeSpan s x _
      · exact refl s
    · exact refl s
  · exact refl s

theorem bodyBypassSpan (s : State) (x m : Nat) : Timely s (s.bodyBypassSpan x m).state := by
  unfold State.bodyBypassSpan
  split
  · split
    · split
      · exact refl s
      · split
        · exact takeSpan s x _
        · exact refl s
    · exact refl s
  · exact refl s

theorem bodyCancelSpan (s : State) (x : Nat) : Timely s (s.bodyCancelSpan x).state := by
  unfold State.bodyCancelSpan
  split
  · split
    · exact moveSpan s x _
    · exact refl s
  · exact refl s

theorem bodyRequest (s : State) (n d : Nat) : Timely s (s.bodyRequest n d).state := by
  unfold State.bodyRequest
  split
  · split
    · split
      · exact refl s
      · exact queued s _
    · exact refl s
  · exact refl s

theorem bodyCancelRequest (s : State) (n : Nat) : Timely s (s.bodyCancelRequest n).state := by
  unfold State.bodyCancelRequest
  split
  · split
    · exact queued s _
    · split
      · exact done (modCtx s _ _)
      · exact refl s
  · exact refl s

theorem bodyAbortContext (s : State) (c : Nat) : Timely s (s.bodyAbortContext c).state := by
  unfold State.bodyAbortContext
  dsimp only
  exact ite_state (ite_state (refl s) (ite_state (refl s) (abort s c _ _))) (refl s)

theorem bodySetPeerSilentTime (s : State) (x : Nat) : Timely s (s.bodySetPeerSilentTime x).state :=
  (peer s { s.peer with silentTime := clamp 10 1000 x }).trans (declareSilentIfDue _)

theorem bodySetFaultPolicy (s : State) (k x e a : Nat) : Timely s (s.bodySetFaultPolicy k x e a).state := by
  unfold State.bodySetFaultPolicy
  split
  · next k' e' a' _ _ _ =>
    split
    · exact ite_state (foldl (f := fun t x => t.setPolicy k' e' a' x) (fun t x => setPolicy t k' e' a' x) _ s) (refl s)
    · exact refl s
  · exact refl s

theorem bodyClearFault (s : State) (k x : Nat) : Timely s (s.bodyClearFault k x).state := by
  unfold State.bodyClearFault
  split
  · next k' _ =>
    split
    · exact foldl (f := fun t x => t.acknowledge k' x) (fun t x => ite (refl t) (setFault _ _ _ _)) _ s
    · exact refl s
  · exact refl s

theorem bodyClearLockout (s : State) (x : Nat) : Timely s (s.bodyClearLockout x).state := by
  unfold State.bodyClearLockout
  split
  · exact foldl clearLockout _ s
  · exact refl s

theorem bodyCommit (s : State) (n : Nat) : Timely s (s.bodyCommit n).state :=
  ite_state (ite_state (refl s) ((modCircuit s n _).trans (recondition _ n))) (refl s)

theorem bodyUncommit (s : State) (n : Nat) : Timely s (s.bodyUncommit n).state :=
  ite_state (ite_state (refl s) ((modCircuit s n _).trans (recondition _ n))) (refl s)

theorem bodyReadCounters (s : State) (x : Nat) : Timely s (s.bodyReadCounters x).state := by
  unfold State.bodyReadCounters
  split
  · exact ⟨rfl, rfl, rfl, id⟩
  · exact refl s
  · exact refl s

theorem bodySetAdmission (s : State) (a b x y : Nat) : Timely s (s.bodySetAdmission a b x y).state := by
  unfold State.bodySetAdmission
  split
  · exact ⟨rfl, rfl, rfl, id⟩
  · exact refl s

theorem bodySetNoticeLevels (s : State) (l : Link) (ns : List Nat) (n : Nat) :
    Timely s (s.bodySetNoticeLevels l ns n).state := by
  unfold State.bodySetNoticeLevels
  split
  · exact done (modLink s l _)
  · exact refl s

/-- The body of every command that changes something. -/
theorem body : ∀ {i l role body}, commandBody i = some (l, role, body) → reads i = false → ∀ s, Timely s (body s).state
  | .equip .., _, _, _, rfl, _, s => bodyEquip s _ _ _
  | .unequip .., _, _, _, rfl, _, s => bodyUnequip s _
  | .setClass .., _, _, _, rfl, _, s => bodySetClass s _ _
  | .setGroup .., _, _, _, rfl, _, s => bodySetGroup s _ _
  | .hold .., _, _, _, rfl, _, s => ite_state (done (modCircuit s _ _)) (refused s _)
  | .unhold .., _, _, _, rfl, _, s => ite_state (done (modCircuit s _ _)) (refused s _)
  | .freeze .., _, _, _, rfl, _, s => bodySetFrozen s _ _
  | .thaw .., _, _, _, rfl, _, s => bodySetFrozen s _ _
  | .setMigration .., _, _, _, rfl, _, s => bodySetMigration s _ _ _ _ _ _
  | .setSignalling .., _, _, _, rfl, _, s => bodySetSignalling s _ _ _ _ _ _ _ _ _
  | .insertSpan .., _, _, _, rfl, _, s => bodyInsertSpan s _ _
  | .bypassSpan .., _, _, _, rfl, _, s => bodyBypassSpan s _ _
  | .cancelSpan .., _, _, _, rfl, _, s => bodyCancelSpan s _
  | .setFibreThreshold .., _, _, _, rfl, _, s => port s _
  | .stageAssign .., _, _, _, rfl, _, s => ite_state (stage s _) (refl s)
  | .stageRelease .., _, _, _, rfl, _, s => ite_state (stage s _) (refl s)
  | .discardStaging .., _, _, _, rfl, _, _ => ⟨rfl, rfl, rfl, id⟩
  | .setAlignment .., _, _, _, rfl, _, _ => ⟨rfl, rfl, rfl, id⟩
  | .request .., _, _, _, rfl, _, s => bodyRequest s _ _
  | .cancelRequest .., _, _, _, rfl, _, s => bodyCancelRequest s _
  | .setAdmission .., _, _, _, rfl, _, s => bodySetAdmission s _ _ _ _
  | .abortContext .., _, _, _, rfl, _, s => bodyAbortContext s _
  | .resetMigration .., _, _, _, rfl, _, s => resetMigration s
  | .setPeerSilentTime .., _, _, _, rfl, _, s => bodySetPeerSilentTime s _
  | .setFaultPolicy .., _, _, _, rfl, _, s => bodySetFaultPolicy s _ _ _ _
  | .clearFault .., _, _, _, rfl, _, s => bodyClearFault s _ _
  | .clearLockout .., _, _, _, rfl, _, s => bodyClearLockout s _
  | .commit .., _, _, _, rfl, _, s => bodyCommit s _
  | .uncommit .., _, _, _, rfl, _, s => bodyUncommit s _
  | .readCounters .., _, _, _, rfl, _, s => bodyReadCounters s _
  | .takeNotices .., _, _, _, rfl, _, s => ite_state (refused s _) (done (modLink s _ _))
  | .setNoticeLevels .., _, _, _, rfl, _, s => bodySetNoticeLevels s _ _ _

theorem carried : Carried Timely where
  refl := refl
  trans := trans
  settle := settle
  serviceAll := serviceAll
  completeIfDue := completeIfDue
  startIfDue := startIfDue
  measureIfDue := measureIfDue
  markerTimeoutIfDue := markerTimeoutIfDue
  ageOut := ageOut
  declareSilentIfDue := declareSilentIfDue
  declareMarkerLoss := declareMarkerLoss
  receiveCopper := receiveCopper
  receiveCarriage := receiveCarriage
  perform := perform
  change := body
  answer := answer
  onLink _ _ _ _ := modLink _ _ _
  forget := forget
  raise := raise
  pendApply _ _ _ := ⟨rfl, rfl, rfl, id⟩

theorem foldl_perform (es : List BoundaryEvent) (s : State) : Timely s (es.foldl State.perform s) := foldl perform es s

end Timely

/-! ### Frames and boundaries -/

/-- A boundary that is due raises the stamp and owes the slow tick where the stamp becomes a multiple of 128. -/
theorem State.takeBoundary_time (s : State) (before : List BoundaryEvent) :
    (s.takeBoundary before).frameCount = s.frameCount ∧ (s.takeBoundary before).stamp = (s.stamp + 1) % 65536
    ∧ (s.takeBoundary before).boundaryDue = false
    ∧ (BoundaryEvent.slowTick ∉ s.owed →
      (BoundaryEvent.slowTick ∈ (s.takeBoundary before).owed ↔ (s.takeBoundary before).stamp % 128 = 0)) := by
  obtain ⟨u, hu⟩ : ∃ u, u = ((before.foldl State.perform s.openBoundary.tickWork).settle).supervise := ⟨_, rfl⟩
  have ht : s.takeBoundary before = { u.tickPorts with
      owed := admissionLast (u.owed ++ u.tickPorts.lateEvents s.abortingContexts) } := by
    unfold State.takeBoundary
    dsimp only
    rw [← hu]
    rfl
  have htime : Timely s.openBoundary.tickWork u := by
    rw [hu]
    exact ((Timely.foldl_perform before _).trans (Timely.settle _)).trans (Timely.supervise _)
  clear hu
  have hnew : BoundaryEvent.slowTick ∉ s.owed → BoundaryEvent.slowTick ∉ u.owed := fun hs hmem => by
    obtain hold | hopen := List.mem_append.1 (htime.slowTick hmem)
    · exact hs hold
    · exact (mem_openingEvents _).1 (List.mem_filter.1 hopen).1
  have hstamp : u.tickPorts.stamp = u.stamp := rfl
  rw [ht]
  refine ⟨htime.frameCount, htime.stamp, htime.boundaryDue, fun hs => ?_⟩
  show _ ∈ admissionLast _ ↔ u.stamp % 128 = 0
  rw [mem_admissionLast, List.mem_append, State.mem_lateEvents]
  exact or_iff_right (hnew hs)

theorem State.boundary_time (s : State) (before : List BoundaryEvent) :
    (s.boundary before).frameCount = s.frameCount
    ∧ (s.boundary before).stamp = if s.boundaryDue then (s.stamp + 1) % 65536 else s.stamp := by
  obtain ⟨hcount, hstamp, -, -⟩ := s.takeBoundary_time before
  unfold State.boundary
  split
  · exact ⟨hcount, hstamp⟩
  · exact ⟨rfl, rfl⟩

/-- The closing of a frame counts no frame, and a superframe only where a boundary is due. -/
theorem State.closeFrame_time (s : State) : s.closeFrame.frameCount = s.frameCount
    ∧ s.closeFrame.stamp = if s.boundaryDue then (s.stamp + 1) % 65536 else s.stamp := by
  obtain ⟨u, hu⟩ : ∃ u, u = ((s.settleLink .a).settleLink .b).settle := ⟨_, rfl⟩
  have hlinks : Timely s u := by
    rw [hu]
    exact ((Timely.carried.settleLink s .a).trans (Timely.carried.settleLink _ .b)).trans (Timely.settle _)
  have hclose : s.closeFrame = ((u.boundary []).takeOwedEvents.settle).takeFrameEvents := by rw [hu]; rfl
  have hframe (v : State) : Timely v v.takeFrameEvents := by
    unfold State.takeFrameEvents
    generalize List.range 16 = spans
    generalize contextNumbers = numbers
    have h1 := Timely.trans (s := v) (t := v.missMarkers) ⟨rfl, rfl, rfl, id⟩
      (Timely.foldl (f := fun t x => (State.declareMarkerLoss t x).settle)
        (fun t x => (Timely.declareMarkerLoss t x).trans (Timely.settle _)) spans _)
    have h2 := h1.trans (Timely.foldl (f := fun t c => (State.markerTimeoutIfDue t c).settle)
      (fun t c => (Timely.markerTimeoutIfDue t c).trans (Timely.settle _)) numbers _)
    exact h2.trans (Timely.foldl (f := fun t x => (State.ageOut t x).settle)
      (fun t x => (Timely.ageOut t x).trans (Timely.settle _)) _ _)
  have howed (v : State) : v.takeOwedEvents.frameCount = v.frameCount ∧ v.takeOwedEvents.stamp = v.stamp := by
    have h := (Timely.foldl_perform v.owed v).trans (Timely.foldl_perform (v.owed.foldl State.perform v).owed _)
    exact ⟨h.frameCount, h.stamp⟩
  obtain ⟨hcount, hstamp⟩ := u.boundary_time []
  obtain ⟨hcount', hstamp'⟩ := howed (u.boundary [])
  have hrest := (Timely.settle (u.boundary []).takeOwedEvents).trans (hframe _)
  rw [hclose, hrest.frameCount, hrest.stamp, hcount', hstamp', hcount, hstamp, hlinks.frameCount, hlinks.stamp,
    hlinks.boundaryDue]
  exact ⟨rfl, rfl⟩

theorem State.nextFrame_time (s : State) : s.sendFrames.nextFrame.frameCount = (s.frameCount + 1) % 4096
    ∧ s.sendFrames.nextFrame.boundaryDue = decide ((s.frameCount + 1) % 16 = 0)
    ∧ s.sendFrames.nextFrame.stamp = s.stamp := ⟨rfl, rfl, rfl⟩

/-- Settles O3: nothing but a frame, a boundary and a cold reset moves a count of time. -/
theorem timeIsCounted : Obligations.TimeIsCounted := by
  refine ⟨fun s hp => ?frame, fun before s hp hdue hs => ?boundary, fun cause a b c s => ⟨_, rfl, rfl, rfl, rfl⟩,
    fun l s => ?rest⟩
  case frame =>
    obtain ⟨u, hu⟩ : ∃ u, u = s.settle := ⟨_, rfl⟩
    have hsettle : Timely s u := hu ▸ Timely.settle s
    obtain ⟨hcount, hstamp⟩ := u.closeFrame_time
    obtain ⟨hnext, hdue, hkept⟩ := u.closeFrame.nextFrame_time
    have hrun : exec .frame s = .next u.closeFrame.sendFrames.nextFrame := by
      rw [hu]
      exact congrArg Host.Outcome.next (if_pos hp)
    refine ⟨_, hrun, ?_, ?_, ?_⟩
    · rw [hnext, hcount, hsettle.frameCount]
    · rw [hdue, hcount, hsettle.frameCount]
    · rw [hkept, hstamp, hsettle.stamp, hsettle.boundaryDue]
  case boundary =>
    have hsettle := Timely.settle s
    obtain ⟨hcount, hstamp, hbound, htick⟩ := s.settle.takeBoundary_time before
    have hdue' : s.settle.boundaryDue = true := hsettle.boundaryDue.trans hdue
    have hrun : exec (.superframeBoundary before) s = .next (s.settle.takeBoundary before) :=
      congrArg Host.Outcome.next ((if_pos hp).trans (if_pos hdue'))
    exact ⟨_, hrun, by rw [hstamp, hsettle.stamp], hcount.trans hsettle.frameCount, hbound,
      htick (mt hsettle.slowTick hs)⟩
  case rest =>
    refine ⟨s.runCommand (.resetMigration l), _, rfl, rfl, ?_⟩
    have hcommand : Timely s (s.runCommand (.resetMigration l)) := Timely.carried.runCommand s _
    have hline := Timely.carried.row (i := .lineReset l) (s := s) rfl nofun nofun nofun nofun
    exact ⟨hcommand.frameCount, hcommand.stamp, hline.frameCount, hline.stamp⟩

end Sys2Proof.Machine
end

section
/-! The laws of circuits, contexts, queue and cells (`State.placed`, `State.backed`) through faults, reversion and the
return to fibre. -/

namespace Sys2Proof.Machine

namespace Sound

/-! ### Updates that the laws do not read -/

/-- An update of tables that neither law reads, with the map as it was. -/
theorem elsewhere {s t : State} (h : Sound s) (hm : t.map.entries = s.map.entries)
    (hg : t.map.staging = s.map.staging) (hc : t.circuits = s.circuits) (hx : t.contexts = s.contexts)
    (hq : t.queue = s.queue) (hs : t.spans = s.spans) (hp : t.pool = s.pool) : Sound t :=
  h.same (Keeps.maps_of hm hg (fun m => by rw [State.circuit_congr hc]) h.maps)
    (fun m => by rw [State.circuit_congr hc]) (fun m => by rw [State.ctx_congr hx]) (by rw [hq])
    (fun x => by rw [State.span_congr hs]) (by rw [hp]) (by rw [hp])

/-- What the laws of cells and contexts read of a circuit beside its state and its place. -/
structure SameLoad (c d : Circuit) : Prop where
  context : c.context = d.context
  receive : c.receive = d.receive
  residual : c.residual = d.residual
  path : c.residualPath = d.residualPath
  cells : c.cellsHeld = d.cellsHeld
  delay : ∀ p, c.delay p = d.delay p

/-- Circuits that change their states, slots or spans, and nothing of their loads. -/
theorem recast {s t : State} (h : Sound s) (hm : t.mapLawful) (hx : t.contexts = s.contexts) (hq : t.queue = s.queue)
    (hp : t.pool = s.pool) (hload : ∀ m, SameLoad (t.circuit m) (s.circuit m)) (hcar : ∀ m, (t.circuit m).carried)
    (hmig : ∀ m, (t.circuit m).state = .migrating ↔ (s.circuit m).state = .migrating)
    (haway : ∀ m, (t.circuit m).state ≠ .copper ∨ s.queued m = true →
      (t.circuit m).equipped = true ∧ (t.circuit m).slot ≠ none ∧ (t.span (m / 30)).state = .inserted) : Sound t := by
  obtain ⟨hpl, hb, -⟩ := h
  have hctx (k : Nat) : t.ctx k = s.ctx k := State.ctx_congr hx k
  have hqueued (n : Nat) : t.queued n = s.queued n := by simp only [State.queued, hq]
  have hc (m : Nat) := (hload m).context
  have hreceive (m : Nat) := (hload m).receive
  have hres (m : Nat) := (hload m).residual
  have hpath (m : Nat) := (hload m).path
  have hcells (m : Nat) := (hload m).cells
  have hdelay (m : Nat) := (hload m).delay
  have hset (m : Nat) : (t.circuit m).settled ↔ (s.circuit m).settled := by
    simp only [Circuit.settled, hdelay, hres, hpath, hreceive]
  refine ⟨⟨hcar, fun m => ?_, fun m c => ?_, fun c => ?_, fun m hm => ?_, by rw [hq]; exact hpl.once, fun m => ?_,
    fun c => by rw [hctx]; exact hpl.entries c⟩, ⟨?_, fun m => ?_, fun m => ?_, fun m c => ?_, fun c => ?_,
    fun c => by rw [hctx, hp]; exact hb.waiting c, by rw [hp]; exact hb.waitsOnce⟩, hm⟩
  · rw [hmig, hc]; exact hpl.migrating m
  · rw [hc, hctx]; exact hpl.inContext m c
  · rw [hctx, hc]; exact hpl.ofContext c
  · rw [hqueued] at hm
    exact haway m hm
  · rw [hqueued, hc]; exact hpl.apart m
  · have htotal := hb.total
    rw [State.totalCells_eq] at htotal ⊢
    simp only [hcells, hctx, hp]
    exact htotal
  · rw [hcells, hres]; exact hb.residual m
  · rw [hc, hset]; exact hb.settled m
  · rw [hc, hctx]
    simp only [Ctx.fits, Ctx.prepared, hset, hdelay, hreceive, hres]
    exact hb.fits m c
  · rw [hctx]; exact hb.idle c

theorem modSpan {s : State} (h : Sound s) (x : Nat) {f : Span → Span} (hf : (f (s.span x)).state = (s.span x).state) :
    Sound (s.modSpan x f) := by
  refine h.same h.maps (fun _ => rfl) (fun _ => rfl) rfl (fun y => ?_) rfl rfl
  rw [State.span_modSpan]
  split
  · next hy => rw [hy.1]; exact hf
  · rfl

theorem modLink {s : State} (h : Sound s) (l : Link) (f : LinkRec → LinkRec) : Sound (s.modLink l f) := by
  cases l <;> exact h.elsewhere rfl rfl rfl rfl rfl rfl rfl

theorem setFault {s : State} (h : Sound s) (k : FaultKind) (x : Nat) (r : FaultRecord) : Sound (s.setFault k x r) :=
  h.elsewhere rfl rfl rfl rfl rfl rfl rfl

theorem port {s : State} (h : Sound s) (p : FibrePort) : Sound { s with port := p } := h.elsewhere rfl rfl rfl rfl rfl rfl rfl

theorem peer {s : State} (h : Sound s) (p : PeerExchange) : Sound { s with peer := p } := h.elsewhere rfl rfl rfl rfl rfl rfl rfl

theorem faultUnit {s : State} (h : Sound s) (f : FaultUnit) : Sound { s with faults := f } := h.elsewhere rfl rfl rfl rfl rfl rfl rfl

theorem owe {s : State} (h : Sound s) (es : List BoundaryEvent) : Sound { s with owed := es } := h.elsewhere rfl rfl rfl rfl rfl rfl rfl

/-! ### Declarations and clearings -/

/-- The end of a context that a fault reaches. -/
theorem faultEnds {s : State} (h : Sound s) (k : FaultKind) (c : Nat) (hf : (s.ctx c).state ≠ .free)
    (ha : (s.ctx c).state ≠ .aborting) : Sound (s.faultEnds k c) := by
  have hport (cause : Cause) : Sound (s.endByPort c cause) := by
    unfold State.endByPort
    split
    · exact h.abort c cause none
    · exact h.endByFault c hf ha
  have hcopper : Sound (s.endByCopper c) := by
    unfold State.endByCopper
    split
    · exact ite (fun _ => h) (fun _ => h.abort c _ none)
    · exact h.abort c _ none
  cases k
  case fibreLos => exact hport _
  case fibreErr => exact hport _
  case peerSilent => exact hport _
  case copperLos => exact hcopper
  case switchLos => exact hcopper
  case mapMismatch => exact h
  case siteClash => exact h
  case markerLoss => exact h

theorem faultAbort {s : State} (h : Sound s) (k : FaultKind) (x : Nat) : Sound (s.faultAbort k x) := by
  refine foldl (fun t c ht => ite (fun hr => ?_) (fun _ => ht)) _ h
  obtain ⟨hf, ha, -⟩ := (State.faultReaches_iff t k x c).1 hr
  exact ht.faultEnds k c hf ha

theorem becomeLive {s : State} (h : Sound s) (k : FaultKind) (x : Nat) : Sound (s.becomeLive k x) := by
  have h1 : Sound ((s.setFault k x { s.fault k x with live := true, latched := true }).raise
      (faultEvent .faultSet k x)) := (h.setFault k x _).raise _
  have h2 := ite (p := (s.fault k x).actions.abort = true) (fun _ => h1.faultAbort k x) (fun _ => h1)
  exact (ite (p := (s.fault k x).actions.revert = true) (fun _ => (h2.faultUnit _).faultUnit _) (fun _ => h2)).reconditionAll _

theorem declare {s : State} (h : Sound s) (k : FaultKind) (x : Nat) : Sound (s.declare k x) :=
  have h1 := h.setFault k x { s.fault k x with declared := true }
  ite (fun _ => h1.becomeLive k x) (fun _ => h1)

theorem copperReturns {s : State} (h : Sound s) : Sound s.copperReturns := by
  unfold State.copperReturns
  split
  · exact h.faultUnit _
  · exact h

theorem ceaseLive {s : State} (h : Sound s) (k : FaultKind) (x : Nat) : Sound (s.ceaseLive k x) :=
  (ite (fun _ => h.copperReturns) (fun _ => h)).reconditionAll _

theorem clearFault {s : State} (h : Sound s) (k : FaultKind) (x : Nat) : Sound (s.clearFault k x) :=
  ite (fun _ => ((h.setFault k x _).raise _).ceaseLive k x) (fun _ => h.setFault k x _)

theorem setPolicy {s : State} (h : Sound s) (k : FaultKind) (on : Bool) (acts : Actions) (x : Nat) :
    Sound (s.setPolicy k on acts x) := by
  simp only [State.setPolicy]
  split
  · have h1 := h.setFault k x { s.fault k x with enabled := true, actions := acts }
    exact ite (fun _ => (ite (fun _ => h1.faultUnit _) (fun _ => h1)).reconditionAll _)
      (fun _ => ite (fun _ => h1.becomeLive k x) (fun _ => h1))
  · have h1 := h.setFault k x { s.fault k x with enabled := false, actions := acts, live := false, latched := false }
    exact ite (fun _ => h1.ceaseLive k x) (fun _ => h1.reconditionAll _)

/-! ### Reversion and lockout -/

/-- A circuit that is not MIGRATING is in no context (R5). -/
theorem outside {s : State} (h : Sound s) {n : Nat} (hst : (s.circuit n).state ≠ .migrating) :
    (s.circuit n).context = none := by
  by_contra hne
  exact hst ((h.placed.migrating n).2 hne)

theorem state_lt {s : State} {n : Nat} (h : (s.circuit n).state ≠ .copper) : n < 480 := by
  by_contra hc
  rw [State.circuit, Table.at_of_le _ _ (Nat.le_of_not_lt hc)] at h
  exact h rfl

theorem lockedState_reverted (s : State) (n : Nat) :
    s.lockedState n .reverted = .reverted ∨ s.lockedState n .reverted = .locked := by
  unfold State.lockedState
  split
  · exact .inr rfl
  · exact .inl rfl

theorem revertCircuit {s : State} (h : Sound s) (k : FaultKind) {n : Nat} (hst : (s.circuit n).state = .fibreProtected) :
    Sound (s.revertCircuit k n) := by
  have hn : n < 480 := state_lt (by rw [hst]; decide)
  have hctx := h.outside (n := n) (by rw [hst]; decide)
  obtain ⟨he, hslot, hspan⟩ := h.placed.away n (.inl (by rw [hst]; decide))
  obtain ⟨hdelay, hpath⟩ := h.backed.settled n hctx
  have hreceive : (s.circuit n).receive = .fibre := by
    have hcar := h.placed.carried n
    unfold Circuit.carried at hcar
    rw [hst] at hcar
    exact hcar.1
  have hdropped (p : Path) : ((s.circuit n).dropOn .fibre).delay p = 0 := by
    rw [delay_dropOn]
    split
    · rfl
    · next hp =>
      rw [hdelay p]
      split
      · next hq =>
        by_contra hr
        exact hp (hq.trans ((hpath hr).trans hreceive))
      · rfl
  obtain ⟨st, hentered⟩ : ∃ st, st = s.lockedState n .reverted := ⟨_, rfl⟩
  have hkind : st = .reverted ∨ st = .locked := hentered ▸ lockedState_reverted s n
  refine Sound.recondition (Sound.raise (s := (s.modCircuit n (fun c => { (c.dropOn .fibre).enter
    (s.lockedState n .reverted) with residual := 0, cellsHeld := 0 })).returnCells (s.circuit n).cellsHeld) ?_ _) n
  rw [← hentered]
  obtain ⟨t, ht⟩ : ∃ t, t = (s.modCircuit n (fun c => { (c.dropOn .fibre).enter st with
    residual := 0, cellsHeld := 0 })).returnCells (s.circuit n).cellsHeld := ⟨_, rfl⟩
  have hcn : t.circuit n = { ((s.circuit n).dropOn .fibre).enter st with residual := 0, cellsHeld := 0 } := by
    rw [ht, State.circuit_returnCells, State.circuit_modCircuit_same _ hn]
  have hcm (m : Nat) (hm : m ≠ n) : t.circuit m = s.circuit m := by
    rw [ht, State.circuit_returnCells, State.circuit_modCircuit, if_neg (fun e => hm e.1)]
  have hmap : t.mapLawful := by
    rw [ht]
    exact ((Keeps.modCircuit (s := s) ⟨rfl, rfl, rfl, rfl⟩).trans (Keeps.returnCells _ _)).maps h.maps
  have hpool : t.pool = { s.pool with free := s.pool.free + (s.circuit n).cellsHeld } := by rw [ht]; rfl
  have hrest : t.contexts = s.contexts ∧ t.queue = s.queue ∧ t.spans = s.spans := by rw [ht]; exact ⟨rfl, rfl, rfl⟩
  obtain ⟨hxs, hqs, hss⟩ := hrest
  rw [← ht]
  refine h.alone n hn hmap (fun m hm => by rw [hcm m hm]) (fun m => by rw [State.ctx_congr hxs]) (by rw [hqs])
    (fun x => by rw [State.span_congr hss]) (by rw [hpool]) hctx ?_ ?_ ?_ (fun _ => ?_) ?_ ?_ ?_
  · rw [hcn]
    obtain rfl | rfl := hkind <;> exact ⟨rfl, rfl⟩
  · rw [hcn]
    obtain rfl | rfl := hkind <;> exact nofun
  · rw [hcn]
    exact hctx
  · rw [hcn]
    exact ⟨he, hslot, hspan⟩
  · rw [hcn]
    rfl
  · rw [hcn]
    exact ⟨fun p => (delay_lines (c := (s.circuit n).dropOn .fibre) rfl rfl p).trans ((hdropped p).trans (by simp)),
      fun hr => absurd rfl hr⟩
  · rw [hcn, hpool]
    exact Nat.add_right_comm _ _ _ ▸ rfl

/-- What a revert of one circuit leaves of the others. -/
theorem revertCircuit_others (s : State) (k : FaultKind) {n m : Nat} (h : m ≠ n) :
    (s.revertCircuit k n).circuit m = s.circuit m := by
  have hr := Rederived.recondition (State.raise ((s.modCircuit n (fun c => { (c.dropOn .fibre).enter
    (s.lockedState n .reverted) with residual := 0, cellsHeld := 0 })).returnCells (s.circuit n).cellsHeld)
    { cls := .reverted, subject := some (.circuit n), cause := some (.faultOf k), value := valueOf (s.circuit n).cellsHeld }) n
  refine (hr.others m (by simp [h])).trans ?_
  rw [State.circuit_raise, State.circuit_returnCells, State.circuit_modCircuit, if_neg (fun e => h e.1)]

theorem foldl_revertCircuit (k : FaultKind) {ns : List Nat} (hnodup : ns.Nodup) {s : State} (h : Sound s)
    (hst : ∀ n, n ∈ ns → (s.circuit n).state = .fibreProtected) : Sound (ns.foldl (fun t n => t.revertCircuit k n) s) := by
  induction ns generalizing s with
  | nil => exact h
  | cons n rest ih =>
    obtain ⟨hn, hrest⟩ := List.nodup_cons.1 hnodup
    refine ih hrest (h.revertCircuit k (hst n (by simp))) fun m hm => ?_
    rw [revertCircuit_others s k (ne_of_mem_of_not_mem hm hn)]
    exact hst m (List.mem_cons_of_mem _ hm)

/-- The circuits of a group go from one of REVERTED and LOCKED to the other. -/
theorem restate {s : State} (h : Sound s) (g : Nat) {old new : MigState} (hold : old = .reverted ∨ old = .locked)
    (hnew : new = .reverted ∨ new = .locked) : Sound (s.restate g old new) := by
  have hread (m : Nat) : (s.restate g old new).circuit m = s.circuit m ∨ ((s.circuit m).state = old
      ∧ (s.restate g old new).circuit m = { s.circuit m with state := new }) := by
    by_cases hm : m < 480
    · have hat : (s.restate g old new).circuit m = if (s.circuit m).group = g ∧ (s.circuit m).state = old then
          { s.circuit m with state := new } else s.circuit m :=
        Table.at_mapIdx s.circuits _ Circuit.reset Circuit.reset hm
      rw [hat]
      split
      · next hc => exact .inr ⟨hc.2, rfl⟩
      · exact .inl rfl
    · have hle := Nat.le_of_not_lt hm
      exact .inl ((Table.at_of_le _ _ hle).trans (Table.at_of_le _ _ hle).symm)
  refine h.recast (Keeps.maps_of (s := s) rfl rfl (fun m => ?_) h.maps) rfl rfl rfl (fun m => ?_) (fun m => ?_)
    (fun m => ?_) (fun m hm => ?_)
  · obtain e | ⟨-, e⟩ := hread m <;> rw [e]
  · obtain e | ⟨-, e⟩ := hread m <;> rw [e] <;> exact ⟨rfl, rfl, rfl, rfl, rfl, fun p => delay_lines rfl rfl p⟩
  · obtain e | ⟨hs, e⟩ := hread m
    · rw [e]; exact h.placed.carried m
    · rw [e]
      have hcar := h.placed.carried m
      unfold Circuit.carried at hcar ⊢
      rw [hs] at hcar
      obtain rfl | rfl := hold <;> obtain rfl | rfl := hnew <;> exact hcar
  · obtain e | ⟨hs, e⟩ := hread m
    · rw [e]
    · rw [e, hs]
      obtain rfl | rfl := hold <;> obtain rfl | rfl := hnew <;> exact ⟨nofun, nofun⟩
  · have haway : (s.circuit m).state ≠ .copper ∨ s.queued m = true := by
      obtain e | ⟨hs, -⟩ := hread m
      · rwa [e] at hm
      · rw [hs]
        obtain rfl | rfl := hold <;> exact .inl nofun
    obtain e | ⟨-, e⟩ := hread m <;> rw [e] <;> exact h.placed.away m haway

theorem countRevert {s : State} (h : Sound s) (g : Nat) : Sound (s.countRevert g) := by
  have h1 := h.modGroup g Group.countRevert
  exact ite (fun _ => ((h1.modGroup g _).restate g (.inl rfl) (.inr rfl)).raise _) (fun _ => h1)

theorem makeRevert {s : State} (h : Sound s) : Sound s.makeRevert := by
  unfold State.makeRevert
  split
  · exact h
  · next k _ =>
    dsimp only
    have hnodup : (allCircuits.filter s.reverts).Nodup := List.nodup_range.filter _
    have hst : ∀ n, n ∈ allCircuits.filter s.reverts → (s.circuit n).state = .fibreProtected := fun n hn => by
      have := (List.mem_filter.1 hn).2
      simp only [State.reverts, Bool.and_eq_true, beq_iff_eq] at this
      exact this.1
    have h1 := h.foldl_revertCircuit k hnodup hst
    generalize List.filter s.reverts allCircuits = taken at h1
    exact (foldl (fun t g ht => ht.countRevert g) _ h1).faultUnit _

end Sound

end Sys2Proof.Machine
end

section
/-! The laws of circuits, contexts, queue and cells through the switch, the completion, the services of the pool and the
walk slots. -/

namespace Sys2Proof.Machine

/-! ### Added delays -/

theorem Circuit.delay_presetOn (c : Circuit) (p q : Path) (k : Nat) :
    (c.presetOn p k).delay q = if q = p then k else c.delay q := by
  cases p <;> cases q <;> simp [Circuit.presetOn, Circuit.delay, Circuit.setLine, Circuit.line]

theorem Circuit.delay_insertOn (c : Circuit) (p q : Path) :
    (c.insertOn p).delay q = if q = p then c.delay p + 1 else c.delay q := by
  cases p <;> cases q <;> simp [Circuit.insertOn, Circuit.delay, Circuit.setLine, Circuit.line]

theorem Circuit.delay_slipOn (c : Circuit) (p q : Path) :
    (c.slipOn p).delay q = if q = p then c.delay p - 1 else c.delay q := by
  cases p <;> cases q <;> simp [Circuit.slipOn, Circuit.delay, Circuit.setLine, Circuit.line]

/-- Two circuits that differ in their added delays alone. -/
def Circuit.delaysApart (c d : Circuit) : Prop :=
  c.state = d.state ∧ c.context = d.context ∧ c.receive = d.receive ∧ c.transmit = d.transmit ∧ c.equipped = d.equipped
    ∧ c.slot = d.slot ∧ c.residual = d.residual ∧ c.residualPath = d.residualPath ∧ c.cellsHeld = d.cellsHeld

theorem Circuit.setLine_apart (c : Circuit) (p : Path) (l : List (Option Byte)) : (c.setLine p l).delaysApart c := by
  cases p <;> exact ⟨rfl, rfl, rfl, rfl, rfl, rfl, rfl, rfl, rfl⟩

namespace Sound

/-- The record of a context that has switched (R102). -/
def switchedCtx (x : Ctx) : Ctx :=
  { x with
    state := .switched, switched := true, switchDue := false, idleOnly := false, stepTimer := 0, stepRunning := true }

/-- A due switch that is made, from a state in which its paths are aligned. -/
theorem switchAfter {s u : State} {n c : Nat} (h : Sound s) (i : Inside n c s) (hst : (s.ctx c).state = .ready)
    (f : Confined n c s u) (k : Keeps s u) (hq : u.queue = s.queue) (hw : u.pool.waitList = s.pool.waitList)
    (hx : u.ctx c = { s.ctx c with cells := 0 })
    (hcir : (u.circuit n).state = (s.circuit n).state ∧ (u.circuit n).context = (s.circuit n).context
      ∧ (u.circuit n).transmit = (s.circuit n).transmit ∧ (u.circuit n).equipped = (s.circuit n).equipped
      ∧ (u.circuit n).slot = (s.circuit n).slot)
    (hdel : ∀ p, (u.circuit n).delay p = if p = (u.circuit n).residualPath then (u.circuit n).residual else 0)
    (hpath : (u.circuit n).residual ≠ 0 → (u.circuit n).residualPath = (s.ctx c).direction.targetPath)
    (hres : (u.circuit n).cellsHeld = if (u.circuit n).residual = 0 then 0 else (u.circuit n).residual + 2)
    (htot : u.pool.free + (u.circuit n).cellsHeld = s.pool.free + (s.circuit n).cellsHeld + (s.ctx c).cells) :
    Sound (((u.modCircuit n (fun d => { d with receive := (s.ctx c).direction.targetPath })).modCtx c switchedCtx).advertise
      c .switched 0) := by
  obtain ⟨hs, hctx, ht, he, hslot⟩ := hcir
  obtain ⟨t, ht'⟩ : ∃ t, t = ((u.modCircuit n (fun d => { d with receive := (s.ctx c).direction.targetPath })).modCtx c
    switchedCtx).advertise c .switched 0 := ⟨_, rfl⟩
  have hsw := unswitched i (by rw [hst]; decide) (by rw [hst]; decide)
  have hb := i.before hsw
  have ft : Confined n c u t := by
    rw [ht']
    exact ((Confined.modCircuit n c u _).trans (Confined.modCtx n c _ _)).trans (Confined.advertise n c c _ _ _)
  have kt : Keeps u t := by
    rw [ht']
    exact ((Keeps.modCircuit ⟨rfl, rfl, rfl, rfl⟩).trans (Keeps.modCtx _ _ _)).trans (Keeps.advertise _ _ _ _)
  have tn : t.circuit n = { u.circuit n with receive := (s.ctx c).direction.targetPath } := by
    rw [ht', State.circuit_advertise, State.circuit_modCtx, State.circuit_modCircuit_same _ i.hn]
  have tx : t.ctx c = switchedCtx { s.ctx c with cells := 0 } := by
    rw [ht', State.ctx_advertise, State.ctx_modCtx_same _ i.hc, State.ctx_modCircuit, hx]
  have tq : t.queue = s.queue := by rw [ht', ← hq]; rfl
  have tp : t.pool = u.pool := by rw [ht']; rfl
  rw [← ht']
  clear ht'
  refine h.stays i (f.trans ft) ((k.trans kt).maps h.maps) (by rw [tq]) ?_ ?_ ?_ ?_ ?_ ?_ ?_ ?_
  · rw [tn]
    exact ⟨hs.trans i.migrating, hctx.trans i.field, ht.trans i.both, he, hslot⟩
  · rw [tx]; exact i.name
  · rw [tx]; exact ⟨nofun, nofun⟩
  · rw [tx, tn]
    refine ⟨hb.1, ?_⟩
    show (_ ∨ _) ∧ _ ∧ _ ∧ _
    exact ⟨.inl rfl, rfl, rfl, hdel, hpath⟩
  · rw [tx]; exact i.entries
  · rw [tn]; exact hres
  · rw [tn, tx, tp]; exact htot
  · rw [tp, hw, tx, h.backed.waiting c, hst]
    exact ⟨nofun, nofun⟩

/-- The cells and delays of a context in READY, as the switch takes them (R98). -/
theorem ready_paths {s : State} {n c : Nat} (i : Inside n c s) (hst : (s.ctx c).state = .ready) :
    (s.circuit n).residual = 0 ∧ (s.circuit n).cellsHeld = 0 ∧
    (((s.ctx c).lead.getD 0 ≤ 0 ∧ (s.circuit n).delay (s.ctx c).direction.targetPath = 0) ∨
     (0 < (s.ctx c).lead.getD 0 ∧ (s.ctx c).cells = ((s.ctx c).lead.getD 0).natAbs + 2
      ∧ (s.circuit n).delay (s.ctx c).direction.currentPath = 0
      ∧ (s.circuit n).delay (s.ctx c).direction.targetPath = ((s.ctx c).lead.getD 0).natAbs)) := by
  obtain ⟨-, hres, hheld, -, hp, -⟩ := i.before (unswitched i (by rw [hst]; decide) (by rw [hst]; decide))
  unfold Ctx.prepared at hp
  rw [hst] at hp
  refine ⟨hres, hheld, ?_⟩
  obtain ⟨he, -, -, ht⟩ | ⟨he, hcells, hcur, htar⟩ | ⟨he, -, -, ht⟩ := hp
  · exact .inl ⟨he, ht⟩
  · exact .inr ⟨he, hcells, hcur, htar⟩
  · exact .inl ⟨by omega, ht⟩

/-- What aligning the paths of a due switch leaves, on a busy call and on any other (section 6.6). -/
structure Aligned (n c : Nat) (s u : State) : Prop where
  confined : Confined n c s u
  keeps : Keeps s u
  queue : u.queue = s.queue
  waits : u.pool.waitList = s.pool.waitList
  ctx : u.ctx c = { s.ctx c with cells := 0 }
  same : (u.circuit n).state = (s.circuit n).state ∧ (u.circuit n).context = (s.circuit n).context
    ∧ (u.circuit n).transmit = (s.circuit n).transmit ∧ (u.circuit n).equipped = (s.circuit n).equipped
    ∧ (u.circuit n).slot = (s.circuit n).slot
  delay : ∀ p, (u.circuit n).delay p = if p = (u.circuit n).residualPath then (u.circuit n).residual else 0
  path : (u.circuit n).residual ≠ 0 → (u.circuit n).residualPath = (s.ctx c).direction.targetPath
  held : (u.circuit n).cellsHeld = if (u.circuit n).residual = 0 then 0 else (u.circuit n).residual + 2
  total : u.pool.free + (u.circuit n).cellsHeld = s.pool.free + (s.circuit n).cellsHeld + (s.ctx c).cells

theorem idleSwitch_aligned {s : State} {n c : Nat} (i : Inside n c s) (hheld : (s.circuit n).cellsHeld = 0) :
    Aligned n c s (s.idleSwitch c) := by
  have hn := i.name
  subst hn
  have hcir : (s.idleSwitch c).circuit (s.ctx c).circuit
      = { (s.circuit (s.ctx c).circuit).dropBoth with residual := 0 } := by
    unfold State.idleSwitch
    rw [State.circuit_returnCells, State.circuit_modCtx, State.circuit_modCircuit_same _ i.hn]
  refine ⟨((Confined.modCircuit _ c s _).trans (Confined.modCtx _ c _ _)).trans (Confined.returnCells _ c _ _),
    Keeps.idleSwitch s c, rfl, rfl, ?_, ?_, fun p => ?_, ?_, ?_, ?_⟩
  · unfold State.idleSwitch; rw [State.ctx_returnCells, State.ctx_modCtx_same _ i.hc]; rfl
  · rw [hcir]; exact ⟨rfl, rfl, rfl, rfl, rfl⟩
  · rw [hcir]; exact (delay_dropBoth (s.circuit (s.ctx c).circuit) p).trans (by simp)
  · rw [hcir]; exact fun h => absurd rfl h
  · rw [hcir]; exact hheld
  · rw [hcir]
    show s.pool.free + (s.ctx c).cells + (s.circuit (s.ctx c).circuit).cellsHeld = _
    omega

/-- A busy call's new path leads by `e` samples and keeps its delay as a residual, with the context's cells. -/
theorem busySwitch_aligned {s : State} {n c : Nat} (i : Inside n c s) (hst : (s.ctx c).state = .ready) :
    Aligned n c s (s.busySwitch c) := by
  obtain ⟨hres, hheld, hpaths⟩ := ready_paths i hst
  have hn := i.name
  subst hn
  have k := Keeps.busySwitch s c
  unfold State.busySwitch at k ⊢
  dsimp only at k ⊢
  split
  · next hlead =>
    rw [if_pos hlead] at k
    obtain ⟨hle, -⟩ | ⟨-, hcells, hcur, htar⟩ := hpaths
    · omega
    have hcir : (((s.modCircuit (s.ctx c).circuit (fun d => { d with
          residual := ((s.ctx c).lead.getD 0).toNat, residualPath := (s.ctx c).direction.targetPath,
          cellsHeld := (s.ctx c).cells })).modCtx c (fun x => { x with cells := 0 })).circuit (s.ctx c).circuit)
        = { s.circuit (s.ctx c).circuit with
          residual := ((s.ctx c).lead.getD 0).toNat, residualPath := (s.ctx c).direction.targetPath,
          cellsHeld := (s.ctx c).cells } := by
      rw [State.circuit_modCtx, State.circuit_modCircuit_same _ i.hn]
    refine ⟨(Confined.modCircuit _ c s _).trans (Confined.modCtx _ c _ _), k, rfl, rfl, ?_, ?_, fun p => ?_, ?_, ?_, ?_⟩
    · rw [State.ctx_modCtx_same _ i.hc]; rfl
    · rw [hcir]; exact ⟨rfl, rfl, rfl, rfl, rfl⟩
    · rw [hcir]
      refine (delay_lines (c := s.circuit (s.ctx c).circuit) rfl rfl p).trans ?_
      obtain rfl | rfl := Path.eq_or (s.ctx c).direction p
      · rw [if_neg (Ne.symm (Direction.paths_ne _)), hcur]
      · rw [if_pos rfl, htar]
        show _ = ((s.ctx c).lead.getD 0).toNat
        omega
    · rw [hcir]; exact fun _ => rfl
    · rw [hcir]
      show (s.ctx c).cells = if ((s.ctx c).lead.getD 0).toNat = 0 then 0 else ((s.ctx c).lead.getD 0).toNat + 2
      rw [if_neg (by omega), hcells]
      omega
    · rw [hcir]
      show s.pool.free + (s.ctx c).cells = _
      omega
  · next hlead =>
    rw [if_neg hlead] at k
    obtain ⟨-, htar⟩ | ⟨hlt, -⟩ := hpaths
    swap
    · exact absurd hlt hlead
    have hsame := same_dropOn (s.circuit (s.ctx c).circuit) (s.ctx c).direction.currentPath
    obtain ⟨he, hslot, -, hstate, hctx, htrans, hcellsHeld⟩ := hsame
    have hcir : ((((s.modCircuit (s.ctx c).circuit (fun d => { d.dropOn (s.ctx c).direction.currentPath with
          residual := 0 })).modCtx c (fun x => { x with cells := 0 })).returnCells (s.ctx c).cells).circuit
          (s.ctx c).circuit)
        = { (s.circuit (s.ctx c).circuit).dropOn (s.ctx c).direction.currentPath with residual := 0 } := by
      rw [State.circuit_returnCells, State.circuit_modCtx, State.circuit_modCircuit_same _ i.hn]
    refine ⟨((Confined.modCircuit _ c s _).trans (Confined.modCtx _ c _ _)).trans (Confined.returnCells _ c _ _), k, rfl,
      rfl, ?_, ?_, fun p => ?_, ?_, ?_, ?_⟩
    · rw [State.ctx_returnCells, State.ctx_modCtx_same _ i.hc]; rfl
    · rw [hcir]; exact ⟨hstate, hctx, htrans, he, hslot⟩
    · rw [hcir]
      refine (delay_lines (c := (s.circuit (s.ctx c).circuit).dropOn (s.ctx c).direction.currentPath) rfl rfl p).trans ?_
      rw [delay_dropOn]
      obtain rfl | rfl := Path.eq_or (s.ctx c).direction p
      · simp
      · simp [Direction.paths_ne, htar]
    · rw [hcir]; exact fun h => absurd rfl h
    · rw [hcir]; exact hcellsHeld.trans hheld
    · rw [hcir]
      show s.pool.free + (s.ctx c).cells + ((s.circuit (s.ctx c).circuit).dropOn _).cellsHeld = _
      rw [hcellsHeld]
      omega

theorem makeSwitch {s : State} (h : Sound s) (c : Nat) : Sound (s.makeSwitch c) := by
  unfold State.makeSwitch
  dsimp only
  refine ite (fun hdue => ite (fun _ => h.defer c) (fun _ => ?_)) (fun _ => h)
  have hst := hdue.1
  have i := h.inside rfl (working_of (c := c) (by rw [hst]; decide) (by rw [hst]; decide))
  have hal : Aligned (s.ctx c).circuit c s
      (if (s.circuit (s.ctx c).circuit).call.busy then s.busySwitch c else s.idleSwitch c) := by
    split
    · exact busySwitch_aligned i hst
    · exact idleSwitch_aligned i (ready_paths i hst).2.1
  exact (h.switchAfter i hst hal.confined hal.keeps hal.queue hal.waits hal.ctx hal.same hal.delay hal.path hal.held
    hal.total).recondition _

/-! ### The completion of a context -/

/-- A circuit as its context completes (R122). -/
def arrived (d : Direction) (c : Circuit) : Circuit := { c.enter d.finalState with context := none }

theorem arrived_facts (d : Direction) (c : Circuit) : (arrived d c).state ≠ .migrating ∧ (arrived d c).context = none
    ∧ (arrived d c).receive = d.targetPath ∧ (arrived d c).carried ∧ (arrived d c).equipped = c.equipped
    ∧ (arrived d c).slot = c.slot ∧ (arrived d c).residual = c.residual ∧ (arrived d c).residualPath = c.residualPath
    ∧ (arrived d c).cellsHeld = c.cellsHeld ∧ ∀ p, (arrived d c).delay p = c.delay p := by
  refine ⟨?_, rfl, ?_, ?_, rfl, rfl, rfl, rfl, rfl, fun p => delay_lines (c := c) rfl rfl p⟩ <;> cases d
  · exact nofun
  · exact nofun
  · rfl
  · rfl
  · exact ⟨rfl, rfl⟩
  · exact ⟨rfl, rfl⟩

theorem vacated_eq (s : State) (c n : Nat) : s.vacated c n
    = ((s.modCircuit n (arrived (s.ctx c).direction)).forgetContext c).modCtx c Ctx.freed := rfl

theorem circuit_forgetContext (s : State) (c n : Nat) : (s.forgetContext c).circuit n = s.circuit n := rfl

/-- What the completion has done before the parked entry re-enters. -/
theorem vacated_facts {s : State} {n c : Nat} (hn : n < 480) (hc : c < 8) :
    Confined n c s (s.vacated c n) ∧ Keeps s (s.vacated c n) ∧ (s.vacated c n).queue = s.queue
    ∧ (s.vacated c n).pool = s.pool ∧ (s.vacated c n).circuit n = arrived (s.ctx c).direction (s.circuit n)
    ∧ (s.vacated c n).ctx c = (s.ctx c).freed := by
  have hcore : Keeps.sameCore (arrived (s.ctx c).direction (s.circuit n)) (s.circuit n) := ⟨rfl, rfl, rfl, rfl⟩
  rw [vacated_eq]
  generalize arrived (s.ctx c).direction = f at hcore ⊢
  refine ⟨((Confined.modCircuit n c s f).trans (Confined.forgetContext n c c _)).trans (Confined.modCtx n c _ _),
    ((Keeps.modCircuit hcore).trans (Keeps.forgetContext _ _)).trans (Keeps.modCtx _ _ _), ?_, ?_, ?_, ?_⟩
  · simp [State.forgetContext]
  · simp [State.forgetContext]
  · rw [State.circuit_modCtx, circuit_forgetContext, State.circuit_modCircuit_same s hn]
  · exact State.ctx_modCtx_same _ hc _

theorem complete {s : State} (h : Sound s) (c : Nat) (hst : (s.ctx c).state = .switched) : Sound (s.complete c) := by
  have i := h.inside rfl (working_of (c := c) (by rw [hst]; decide) (by rw [hst]; decide))
  have hsw : (s.ctx c).switched = true := by
    by_contra hne
    obtain ⟨-, -, -, -, hp, -⟩ := i.before (by simpa using hne)
    unfold Ctx.prepared at hp
    rw [hst] at hp
    exact hp
  obtain ⟨-, -, hcells, hreceive, hset⟩ := i.after hsw
  obtain ⟨fv, kv, vq, vp, vn, vx⟩ := vacated_facts (s := s) i.hn i.hc
  rw [State.complete_eq]
  refine Sound.recondition (Sound.beginLinger (Sound.raise ?_ _) c) _
  generalize hn : (s.ctx c).circuit = n at i hreceive hset fv kv vq vp vn vx ⊢
  generalize s.vacated c n = v at fv kv vq vp vn vx ⊢
  have r := Reentered.reenterParked (n := n) v (s.ctx c).parked (fun y hy => (i.entries.2 y hy).trans hn)
  have kw := Keeps.reenterParked v (s.ctx c).parked
  generalize v.reenterParked (s.ctx c).parked = w at r kw ⊢
  have fw := r.confined c
  obtain ⟨⟨r1, r2, -, r4⟩, rq⟩ := r
  have wn := (State.circuit_congr r1 n).trans vn
  have wx := (State.ctx_congr r2 c).trans vx
  obtain ⟨a1, a2, a3, a4, a5, a6, a7, a8, a9, a10⟩ := arrived_facts (s.ctx c).direction (s.circuit n)
  refine h.parts i (fv.trans fw) ((kv.trans kw).maps h.maps) (by rw [← vq]; exact rq) ⟨?_, ?_, ?_, ?_, ?_⟩ ?_ ?_ ?_ ?_ ?_
    ?_ ?_
  · rw [wn]; exact a1
  · rw [wn]; exact a2
  · rw [wn]
    exact ⟨fun p => by rw [a7, a8, a10]; exact hset.1 p,
      fun hr => by rw [a8, a3, ← hreceive]; exact hset.2 (by rw [← a7]; exact hr)⟩
  · rw [wx]; exact fun hwork => hwork.1 rfl
  · rw [wx]; exact hcells
  · rw [wn]; exact a4
  · rw [wn]; exact ⟨a5, a6⟩
  · rw [wx]; exact ⟨nofun, nofun⟩
  · rw [wn, a7, a9]; exact i.held
  · rw [wn, r4, vp, hcells, a9]; rfl
  · rw [r4, vp, h.backed.waiting c, hst]; exact nofun
  · rw [wx]; exact nofun

theorem completeIfDue {s : State} (h : Sound s) (c : Nat) : Sound (s.completeIfDue c) :=
  ite (fun hd => h.complete c (by simp only [Ctx.completionDue, Bool.and_eq_true, beq_iff_eq] at hd; exact hd.1)) (fun _ => h)

end Sound

end Sys2Proof.Machine
end

section
/-! The laws of circuits, contexts, queue and cells through the services of the pool and the walk slots. -/

namespace Sys2Proof.Machine

namespace Sound

/-- A context that goes on with its circuit, of which only the added delays have changed (R96 to R98). -/
theorem staysDelayed {s t : State} {n c : Nat} (h : Sound s) (i : Inside n c s) (f : Confined n c s t) (k : Keeps s t)
    (hq : t.queue = s.queue) (hcir : (t.circuit n).delaysApart (s.circuit n)) (hname : (t.ctx c).circuit = n)
    (hwork : (t.ctx c).working) (hfits : (t.ctx c).fits (t.circuit n)) (hent : (t.ctx c).ownEntries)
    (htot : t.pool.free + (t.ctx c).cells = s.pool.free + (s.ctx c).cells)
    (hwc : c ∈ t.pool.waitList ↔ (t.ctx c).state = .allocate) : Sound t := by
  obtain ⟨h1, h2, -, h4, h5, h6, h7, -, h9⟩ := hcir
  refine h.stays i f (k.maps h.maps) (by rw [hq]) ⟨h1.trans i.migrating, h2.trans i.field, h4.trans i.both, h5, h6⟩
    hname hwork hfits hent (by rw [h7, h9]; exact i.held) ?_ hwc
  rw [h9]
  omega

theorem fits_unswitched {x : Ctx} {d : Circuit} (hsw : x.switched = false) (hadm : x.direction.admits x.origin = true)
    (hres : d.residual = 0) (hreceive : d.receive = x.direction.currentPath) (hprep : x.prepared d) : x.fits d := by
  refine ⟨hadm, ?_⟩
  rw [if_neg (by rw [hsw]; decide)]
  exact ⟨hres, hreceive, hprep⟩

end Sound

/-! ### Services of the pool -/

/-- The pool after its head `c` has taken its cells, and the head's record with them (R100). -/
def State.payHead (s : State) (c : Nat) : State :=
  State.modCtx { s with pool := { free := s.pool.free - (s.ctx c).need, waitList := s.pool.waitList.tail, waitCount := 0 } }
    c (fun y => { y with cells := (s.ctx c).need })

theorem State.serve_eq (s : State) (c : Nat) : s.serve c = if 0 < (s.ctx c).lead.getD 0 then
      ((s.payHead c).modCircuit (s.ctx c).circuit
        (fun d => d.presetOn (s.ctx c).direction.targetPath ((s.ctx c).lead.getD 0).toNat)).enterReady c
    else (s.payHead c).modCtx c (fun y => { y with state := .walkUp }) := rfl

namespace Sound

/-- What a context about to be served and its circuit are (R96, R100). -/
structure Head (n c : Nat) (s : State) : Prop where
  inside : Inside n c s
  admits : (s.ctx c).direction.admits (s.ctx c).origin = true
  unswitched : (s.ctx c).switched = false
  residual : (s.circuit n).residual = 0
  receive : (s.circuit n).receive = (s.ctx c).direction.currentPath
  lead : (s.ctx c).lead.getD 0 ≠ 0
  cells : (s.ctx c).cells = 0
  current : (s.circuit n).delay (s.ctx c).direction.currentPath = 0
  target : (s.circuit n).delay (s.ctx c).direction.targetPath = 0

theorem head {s : State} (h : Sound s) {c : Nat} (hst : (s.ctx c).state = .allocate) : Head (s.ctx c).circuit c s := by
  have i := h.inside rfl (working_of (c := c) (by rw [hst]; decide) (by rw [hst]; decide))
  have hsw := unswitched i (by rw [hst]; decide) (by rw [hst]; decide)
  obtain ⟨hadm, hres, -, hreceive, hprep, -⟩ := i.before hsw
  unfold Ctx.prepared at hprep
  rw [hst] at hprep
  obtain ⟨hlead, hcells, hcur, htar⟩ := hprep
  exact ⟨i, hadm, hsw, hres, hreceive, hlead, hcells, hcur, htar⟩

/-- What a payment leaves. -/
structure Paid (n c : Nat) (s u : State) : Prop where
  confined : Confined n c s u
  circuits : u.circuits = s.circuits
  queue : u.queue = s.queue
  ctx : u.ctx c = { s.ctx c with cells := (s.ctx c).need }
  free : u.pool.free + (s.ctx c).need = s.pool.free
  waits : c ∉ u.pool.waitList

theorem payHead_paid {s : State} (h : Sound s) {n c : Nat} {rest : List Nat} (hc : c < 8)
    (hw : s.pool.waitList = c :: rest) (hneed : (s.ctx c).need ≤ s.pool.free) : Paid n c s (s.payHead c) := by
  have hpool : Confined n c s { s with pool := ⟨s.pool.free - (s.ctx c).need, s.pool.waitList.tail, 0⟩ } := by
    refine ⟨fun _ _ => rfl, fun _ _ => rfl, fun _ => rfl, fun _ _ => Iff.rfl, fun m hm => ?_, fun hnodup => hnodup.tail⟩
    show m ∈ s.pool.waitList.tail ↔ m ∈ s.pool.waitList
    rw [hw, List.tail_cons, List.mem_cons]
    exact (or_iff_right hm).symm
  refine ⟨hpool.trans (Confined.modCtx n c _ _), rfl, rfl, State.ctx_modCtx_same _ hc _, Nat.sub_add_cancel hneed, ?_⟩
  have hnodup := h.backed.waitsOnce
  show c ∉ s.pool.waitList.tail
  rw [hw] at hnodup ⊢
  exact (List.nodup_cons.1 hnodup).1

/-- A positive lead is preset on the target path, and the context is READY (R98). -/
theorem servePreset {s u : State} {n c : Nat} (h : Sound s) (i : Head n c s) (p : Paid n c s u)
    (hpos : 0 < (s.ctx c).lead.getD 0)
    (k : Keeps s ((u.modCircuit n (fun d => d.presetOn (s.ctx c).direction.targetPath
      ((s.ctx c).lead.getD 0).toNat)).enterReady c)) :
    Sound ((u.modCircuit n (fun d => d.presetOn (s.ctx c).direction.targetPath
      ((s.ctx c).lead.getD 0).toNat)).enterReady c) := by
  have hn := i.inside.hn
  obtain ⟨v, hv⟩ : ∃ v, v = u.modCircuit n
    (fun d => d.presetOn (s.ctx c).direction.targetPath ((s.ctx c).lead.getD 0).toNat) := ⟨_, rfl⟩
  have vn : v.circuit n = (s.circuit n).presetOn (s.ctx c).direction.targetPath ((s.ctx c).lead.getD 0).toNat := by
    rw [hv, State.circuit_modCircuit_same _ hn, State.circuit_congr p.circuits]
  have vx : v.ctx c = u.ctx c := by rw [hv, State.ctx_modCircuit]
  have vq : v.queue = u.queue ∧ v.pool = u.pool := by rw [hv]; exact ⟨rfl, rfl⟩
  have fv : Confined n c u v := hv ▸ Confined.modCircuit n c u _
  rw [← hv] at k ⊢
  obtain ⟨t, ht⟩ : ∃ t, t = v.enterReady c := ⟨_, rfl⟩
  have ft : Confined n c v t := ht ▸ (Confined.modCtx n c v readied).trans (Confined.advertise n c c _ _ _)
  have tn : t.circuit n = v.circuit n := by rw [ht]; rfl
  have tx : t.ctx c = readied { s.ctx c with cells := (s.ctx c).need } := by
    rw [← p.ctx, ← vx, ht]
    exact (State.ctx_advertise _ c c _ _).trans (State.ctx_modCtx_same v i.inside.hc _)
  have tq : t.queue = u.queue ∧ t.pool = u.pool := by rw [ht]; exact vq
  rw [← ht] at k ⊢
  have hdel := (s.circuit n).delay_presetOn (s.ctx c).direction.targetPath
  have hsame := (s.circuit n).setLine_apart (s.ctx c).direction.targetPath
    (List.replicate ((s.ctx c).lead.getD 0).toNat none)
  refine h.staysDelayed i.inside ((p.confined.trans fv).trans ft) k (tq.1.trans p.queue) ?_ ?_ ?_ ?_ ?_ ?_ ?_
  · rw [tn, vn]; exact hsame
  · rw [tx]; exact i.inside.name
  · rw [tx]; exact ⟨nofun, nofun⟩
  · obtain ⟨-, -, h3, -, -, -, h7, -⟩ := hsame
    rw [tx, tn, vn]
    refine fits_unswitched i.unswitched i.admits (h7.trans i.residual) (h3.trans i.receive)
      (.inr (.inl ⟨hpos, rfl, ?_, ?_⟩))
    · exact (hdel _ _).trans ((if_neg (Ne.symm (Direction.paths_ne _))).trans i.current)
    · refine (hdel _ _).trans ((if_pos rfl).trans ?_)
      show ((s.ctx c).lead.getD 0).toNat = ((s.ctx c).lead.getD 0).natAbs
      omega
  · rw [tx]; exact i.inside.entries
  · rw [tx, tq.2, i.cells]
    exact p.free
  · rw [tx, tq.2]
    exact ⟨fun hm => absurd hm p.waits, nofun⟩

/-- A negative lead is walked up from nothing (R96, R97). -/
theorem serveWalk {s u : State} {n c : Nat} (h : Sound s) (i : Head n c s) (p : Paid n c s u)
    (hneg : ¬ 0 < (s.ctx c).lead.getD 0) (k : Keeps s (u.modCtx c (fun y => { y with state := .walkUp }))) :
    Sound (u.modCtx c (fun y => { y with state := .walkUp })) := by
  obtain ⟨t, ht⟩ : ∃ t, t = u.modCtx c (fun y => { y with state := .walkUp }) := ⟨_, rfl⟩
  have ft : Confined n c u t := ht ▸ Confined.modCtx n c u _
  have tn : t.circuit n = s.circuit n := by rw [← State.circuit_congr p.circuits, ht]; rfl
  have tx : t.ctx c = { s.ctx c with cells := (s.ctx c).need, state := .walkUp } := by
    rw [ht, State.ctx_modCtx_same _ i.inside.hc, p.ctx]
  have tq : t.queue = u.queue ∧ t.pool = u.pool := by rw [ht]; exact ⟨rfl, rfl⟩
  have hlead := i.lead
  have hcur := i.current
  rw [← ht] at k ⊢
  refine h.staysDelayed i.inside (p.confined.trans ft) k (tq.1.trans p.queue) ?_ ?_ ?_ ?_ ?_ ?_ ?_
  · rw [tn]; exact ⟨rfl, rfl, rfl, rfl, rfl, rfl, rfl, rfl, rfl⟩
  · rw [tx]; exact i.inside.name
  · rw [tx]; exact ⟨nofun, nofun⟩
  · rw [tx, tn]
    refine fits_unswitched i.unswitched i.admits i.residual i.receive ⟨?_, rfl, ?_, i.target⟩
    · show (s.ctx c).lead.getD 0 < 0
      omega
    · show (s.circuit n).delay (s.ctx c).direction.currentPath < ((s.ctx c).lead.getD 0).natAbs
      omega
  · rw [tx]; exact i.inside.entries
  · rw [tx, tq.2, i.cells]
    exact p.free
  · rw [tx, tq.2]
    exact ⟨fun hm => absurd hm p.waits, nofun⟩

/-- The head of the wait list takes its cells (R98, R100). -/
theorem serve {s : State} (h : Sound s) {c : Nat} {rest : List Nat} (hw : s.pool.waitList = c :: rest)
    (hneed : (s.ctx c).need ≤ s.pool.free) : Sound (s.serve c) := by
  have i := h.head ((h.backed.waiting c).1 (by rw [hw]; exact List.mem_cons_self))
  have p := h.payHead_paid (n := (s.ctx c).circuit) i.inside.hc hw hneed
  have k := Keeps.serve s c
  rw [State.serve_eq] at k ⊢
  split
  · next hpos =>
    rw [if_pos hpos] at k
    exact h.servePreset i p hpos k
  · next hneg =>
    rw [if_neg hneg] at k
    exact h.serveWalk i p hneg k

theorem servicePool {s : State} (h : Sound s) (k : Nat) : Sound (s.servicePool k) := by
  induction k generalizing s with
  | zero => exact h
  | succ k ih =>
    unfold State.servicePool
    split
    · exact h
    · next c rest hw =>
      refine ite (fun hd => ih (h.serve hw ?_)) (fun _ => h)
      simpa [State.poolDue, hw] using hd

theorem serviceAll {s : State} (h : Sound s) : Sound s.serviceAll := h.servicePool 8

/-! ### Walk slots -/

/-- A walk slot inserts a sample on the current path; the context is READY where that was the last (R97). -/
theorem walkInsert {s : State} (h : Sound s) {n c : Nat} (hctx : (s.circuit n).context = some c)
    (hst : (s.ctx c).state = .walkUp) : Sound (s.walkInsert n c) := by
  have hname := (h.placed.inContext n c hctx).1
  have i := h.inside hname (working_of (by rw [hst]; decide) (by rw [hst]; decide))
  have hsw := unswitched i (by rw [hst]; decide) (by rw [hst]; decide)
  obtain ⟨hadm, hres, -, hreceive, hprep, -⟩ := i.before hsw
  unfold Ctx.prepared at hprep
  rw [hst] at hprep
  obtain ⟨hlead, hcells, hcur, htar⟩ := hprep
  obtain ⟨v, hv⟩ : ∃ v, v = s.modCircuit n (fun d => d.insertOn (s.ctx c).direction.currentPath) := ⟨_, rfl⟩
  have key : s.walkInsert n c = if ((s.ctx c).lead.getD 0).natAbs ≤ (v.circuit n).delay (s.ctx c).direction.currentPath
      then v.enterReady c else v := by rw [hv]; rfl
  have k := Keeps.walkInsert s n c
  rw [key] at k ⊢
  have vn : v.circuit n = (s.circuit n).insertOn (s.ctx c).direction.currentPath := by
    rw [hv, State.circuit_modCircuit_same _ i.hn]
  have vx : v.ctx c = s.ctx c := by rw [hv, State.ctx_modCircuit]
  have vq : v.queue = s.queue ∧ v.pool = s.pool := by rw [hv]; exact ⟨rfl, rfl⟩
  obtain ⟨vq, vp⟩ := vq
  have fv : Confined n c s v := hv ▸ Confined.modCircuit n c s _
  have hdel := (s.circuit n).delay_insertOn (s.ctx c).direction.currentPath
  have hsame := (s.circuit n).setLine_apart (s.ctx c).direction.currentPath
    (some ((s.circuit n).lastOn (s.ctx c).direction.currentPath) :: (s.circuit n).line (s.ctx c).direction.currentPath)
  have hcur' : (v.circuit n).delay (s.ctx c).direction.currentPath
      = (s.circuit n).delay (s.ctx c).direction.currentPath + 1 := by rw [vn]; exact (hdel _).trans (if_pos rfl)
  have htar' : (v.circuit n).delay (s.ctx c).direction.targetPath = 0 := by
    rw [vn]
    exact (hdel _).trans ((if_neg (Direction.paths_ne _)).trans htar)
  have hsame' : (v.circuit n).delaysApart (s.circuit n) := by rw [vn]; exact hsame
  have hparts := hsame'
  obtain ⟨-, -, h3, -, -, -, h7, -⟩ := hparts
  have hres' := h7.trans hres
  have hreceive' := h3.trans hreceive
  clear hv vn
  split
  · next hfull =>
    rw [if_pos hfull] at k
    obtain ⟨t, ht⟩ : ∃ t, t = v.enterReady c := ⟨_, rfl⟩
    have ft : Confined n c v t := ht ▸ (Confined.modCtx n c v readied).trans (Confined.advertise n c c _ _ _)
    have tn : t.circuit n = v.circuit n := by rw [ht]; rfl
    have tx : t.ctx c = readied (s.ctx c) := by
      rw [← vx, ht]
      exact (State.ctx_advertise _ c c _ _).trans (State.ctx_modCtx_same v i.hc _)
    have tq : t.queue = v.queue ∧ t.pool = v.pool := by rw [ht]; exact ⟨rfl, rfl⟩
    rw [← ht] at k ⊢
    refine h.staysDelayed i (fv.trans ft) k (tq.1.trans vq) (tn ▸ hsame') ?_ ?_ ?_ ?_ ?_ ?_
    · rw [tx]; exact hname
    · rw [tx]; exact ⟨nofun, nofun⟩
    · rw [tx, tn]
      refine fits_unswitched hsw hadm hres' hreceive' (.inr (.inr ⟨hlead, hcells, ?_, htar'⟩))
      show (v.circuit n).delay (s.ctx c).direction.currentPath ≤ ((s.ctx c).lead.getD 0).natAbs
      omega
    · rw [tx]; exact i.entries
    · rw [tx, tq.2, vp]; rfl
    · rw [tx, tq.2, vp, h.backed.waiting c, hst]
      exact ⟨nofun, nofun⟩
  · next hless =>
    rw [if_neg hless] at k
    refine h.staysDelayed i fv k vq hsame' ?_ ?_ ?_ ?_ ?_ ?_
    · rw [vx]; exact hname
    · rw [vx]; exact i.working
    · rw [vx]
      refine fits_unswitched hsw hadm hres' hreceive' ?_
      unfold Ctx.prepared
      rw [hst]
      refine ⟨hlead, hcells, ?_, htar'⟩
      omega
    · rw [vx]; exact i.entries
    · rw [vx, vp]
    · rw [vx, vp]; exact h.backed.waiting c

end Sound

end Sys2Proof.Machine
end

section
/-! The laws of circuits, contexts, queue and cells through the walk slots, the queue, and the start of contexts. -/

namespace Sys2Proof.Machine

namespace Sound

/-! ### The slips of a walk slot -/

theorem residual_lt {s : State} {n : Nat} (h : (s.circuit n).residual ≠ 0) : n < 480 := by
  by_contra hc
  rw [State.circuit, Table.at_of_le _ _ (Nat.le_of_not_lt hc)] at h
  exact h rfl

/-- A circuit with a residual is as outside every preparation, also in a context that has switched (R102). -/
theorem settled_of_residual {s : State} (h : Sound s) {n : Nat} (hr : (s.circuit n).residual ≠ 0) :
    (s.circuit n).settled := by
  cases hx : (s.circuit n).context with
  | none => exact h.backed.settled n hx
  | some c =>
    have i := h.inside (h.placed.inContext n c hx).1 (h.placed.inContext n c hx).2
    cases hsw : (s.ctx c).switched with
    | true =>
      obtain ⟨-, -, -, -, hset⟩ := i.after hsw
      exact hset
    | false => exact absurd (i.before hsw).2.1 hr

/-- A circuit with one sample and `back` cells of its residual less (R104). -/
def slipped (back : Nat) (c : Circuit) : Circuit :=
  { c.slipOn c.residualPath with residual := c.residual - 1, cellsHeld := c.cellsHeld - back }

theorem slipped_facts (back : Nat) (c : Circuit) : (slipped back c).state = c.state ∧ (slipped back c).context = c.context
    ∧ (slipped back c).receive = c.receive ∧ (slipped back c).transmit = c.transmit
    ∧ (slipped back c).equipped = c.equipped ∧ (slipped back c).slot = c.slot
    ∧ (slipped back c).residual = c.residual - 1 ∧ (slipped back c).residualPath = c.residualPath
    ∧ (slipped back c).cellsHeld = c.cellsHeld - back
    ∧ ∀ p, (slipped back c).delay p = if p = c.residualPath then c.delay c.residualPath - 1 else c.delay p := by
  have hsame := c.setLine_apart c.residualPath (c.line c.residualPath).tail
  obtain ⟨h1, h2, h3, h4, h5, h6, -, h8, -⟩ := hsame
  refine ⟨h1, h2, h3, h4, h5, h6, rfl, h8, rfl, fun p => ?_⟩
  exact (delay_lines (c := c.slipOn c.residualPath) rfl rfl p).trans (c.delay_slipOn c.residualPath p)

theorem slipped_settled {c : Circuit} (h : c.settled) (back : Nat) : (slipped back c).settled := by
  obtain ⟨-, -, f3, -, -, -, f7, f8, -, fd⟩ := slipped_facts back c
  refine ⟨fun p => ?_, fun hr => ?_⟩
  · rw [fd, f7, f8, h.1 c.residualPath, h.1 p, if_pos rfl]
    split <;> rfl
  · rw [f8, f3]
    rw [f7] at hr
    exact h.2 (by omega)

/-- The state of a slip before its notice. -/
def slip (s : State) (n back : Nat) : State := (s.modCircuit n (slipped back)).returnCells back

theorem slip_sound {s : State} (h : Sound s) {n back : Nat} (hr : (s.circuit n).residual ≠ 0)
    (hback : back = if (s.circuit n).residual = 1 then (s.circuit n).cellsHeld else 1) : Sound (slip s n back) := by
  have hn := residual_lt hr
  have hset := slipped_settled (h.settled_of_residual hr) back
  obtain ⟨f1, f2, f3, f4, f5, f6, f7, -, f9, -⟩ := slipped_facts back (s.circuit n)
  have hheld := h.backed.residual n
  rw [if_neg hr] at hheld
  have hcells : (slipped back (s.circuit n)).cellsHeld + back = (s.circuit n).cellsHeld
      ∧ (slipped back (s.circuit n)).cellsHeld = if (slipped back (s.circuit n)).residual = 0 then 0
        else (slipped back (s.circuit n)).residual + 2 := by
    rw [f9, f7, hback]
    split <;> split <;> omega
  obtain ⟨hsum, hres⟩ := hcells
  have hcore : Keeps.sameCore (slipped back (s.circuit n)) (s.circuit n) :=
    Keeps.core_of (Keeps.slipOn_core _ _) rfl rfl rfl rfl
  have hmap : (slip s n back).mapLawful :=
    ((Keeps.modCircuit hcore).trans (Keeps.returnCells _ _)).maps h.maps
  have tn : (slip s n back).circuit n = slipped back (s.circuit n) := State.circuit_modCircuit_same s hn (slipped back)
  have fn : ∀ c, Confined n c s (slip s n back) := fun c =>
    (Confined.modCircuit n c s _).trans (Confined.returnCells n c _ _)
  have tq : (slip s n back).queue = s.queue ∧ (slip s n back).pool.waitList = s.pool.waitList
      ∧ (slip s n back).pool.free = s.pool.free + back ∧ ∀ c, (slip s n back).ctx c = s.ctx c := ⟨rfl, rfl, rfl, fun _ => rfl⟩
  generalize slip s n back = t at hmap tn fn tq ⊢
  obtain ⟨tq, tw, tf, tx⟩ := tq
  cases hctx : (s.circuit n).context with
  | none =>
    refine h.alone n hn hmap (fn 0).circuits (fun k => by rw [tx]) (by rw [tq]) (fn 0).spans tw hctx ?_ ?_ ?_ ?_ ?_ ?_ ?_
    · have hcar := h.placed.carried n
      unfold Circuit.carried at hcar ⊢
      rw [tn, f1, f3, f4]
      exact hcar
    · rw [tn, f1]
      exact mt (h.placed.migrating n).1 (not_not.2 hctx)
    · rw [tn, f2]; exact hctx
    · rw [tn, f1, f5, f6]; exact h.placed.away n
    · rw [tn]; exact hres
    · rw [tn]; exact hset
    · rw [tn, tf]; omega
  | some c =>
    have i := h.inside (h.placed.inContext n c hctx).1 (h.placed.inContext n c hctx).2
    have hsw : (s.ctx c).switched = true := by
      by_contra hne
      exact hr (i.before (by simpa using hne)).2.1
    obtain ⟨hadm, hst, hzero, hreceive, -⟩ := i.after hsw
    refine h.stays i (fn c) hmap (by rw [tq]) ?_ ?_ ?_ ?_ ?_ ?_ ?_ ?_
    · rw [tn]
      exact ⟨f1.trans i.migrating, f2.trans hctx, f4.trans i.both, f5, f6⟩
    · rw [tx]; exact i.name
    · rw [tx]; exact i.working
    · rw [tx, tn]
      refine ⟨hadm, ?_⟩
      rw [if_pos hsw]
      exact ⟨hst, hzero, f3.trans hreceive, hset⟩
    · rw [tx]; exact i.entries
    · rw [tn]; exact hres
    · rw [tn, tx, tf]; omega
    · rw [tx, tw]; exact h.backed.waiting c

theorem walkSlip {s : State} (h : Sound s) {n : Nat} (hr : 0 < (s.circuit n).residual) : Sound (s.walkSlip n) := by
  have hslip := h.slip_sound (Nat.ne_of_gt hr) rfl
  exact ite (fun _ => hslip.raise _) (fun _ => hslip)

theorem walkCircuit {s : State} (h : Sound s) (n : Nat) : Sound (s.walkCircuit n) := by
  unfold State.walkCircuit
  dsimp only
  split
  · next c hctx =>
    exact ite (fun hst => h.walkInsert hctx hst) (fun _ => ite (fun hr => h.walkSlip hr.1) (fun _ => h))
  · exact ite (fun hr => h.walkSlip hr.1) (fun _ => h)

theorem walk {s : State} (h : Sound s) : Sound s.walk := by
  have h1 : Sound ((allCircuits.filter (fun n => n % s.align.walkInterval == s.align.walkCounter)).foldl
    State.walkCircuit s) := foldl (fun _ n ht => ht.walkCircuit n) _ h
  unfold State.walk
  dsimp only
  generalize (allCircuits.filter (fun n => n % s.align.walkInterval == s.align.walkCounter)).foldl
    State.walkCircuit s = t at h1 ⊢
  exact h1.elsewhere rfl rfl rfl rfl rfl rfl rfl

/-! ### The queue -/

/-- The laws read of the queue only which circuits stand in it. -/
theorem requeue {s : State} (h : Sound s) {q : List Entry}
    (hnodup : (q.map Entry.circuit).Nodup)
    (hmem : ∀ n, n ∈ q.map Entry.circuit → n ∈ s.queue.map Entry.circuit ∨ ((s.circuit n).equipped = true
      ∧ (s.circuit n).slot ≠ none ∧ (s.span (n / 30)).state = .inserted ∧ (s.circuit n).context = none)) :
    Sound { s with queue := q } := by
  obtain ⟨hp, hb, hm⟩ := h
  have hq (n : Nat) (hn : State.queued { s with queue := q } n = true) : s.queued n = true ∨ ((s.circuit n).equipped = true
      ∧ (s.circuit n).slot ≠ none ∧ (s.span (n / 30)).state = .inserted ∧ (s.circuit n).context = none) := by
    rw [queued_iff] at hn ⊢
    exact hmem n hn
  refine ⟨⟨hp.carried, hp.migrating, hp.inContext, hp.ofContext, fun n hn => ?_, hnodup, fun n hn => ?_, hp.entries⟩,
    ⟨hb.total, hb.residual, hb.settled, hb.fits, hb.idle, hb.waiting, hb.waitsOnce⟩, hm⟩
  · obtain hst | hqd := hn
    · exact hp.away n (.inl hst)
    · obtain hold | ⟨h1, h2, h3, -⟩ := hq n hqd
      · exact hp.away n (.inr hold)
      · exact ⟨h1, h2, h3⟩
  · obtain hold | ⟨-, -, -, h4⟩ := hq n hn
    · exact hp.apart n hold
    · exact h4

theorem dequeue {s : State} (h : Sound s) (p : Entry → Bool) : Sound { s with queue := s.queue.filter p } :=
  h.requeue (h.placed.once.sublist (List.Sublist.map _ List.filter_sublist))
    (fun _ hn => .inl (List.Sublist.map _ List.filter_sublist |>.subset hn))

theorem enqueue {s : State} (h : Sound s) (e : Entry) (hnot : s.queued e.circuit = false)
    (hat : (s.circuit e.circuit).equipped = true ∧ (s.circuit e.circuit).slot ≠ none
      ∧ (s.span (e.circuit / 30)).state = .inserted ∧ (s.circuit e.circuit).context = none) :
    Sound { s with queue := s.queue ++ [e] } := by
  refine h.requeue ?_ fun n hn => ?_
  · rw [List.map_append]
    exact List.nodup_append.2 ⟨h.placed.once, List.nodup_singleton _, fun a ha b hb hab => by
      rw [List.map_singleton, List.mem_singleton] at hb
      exact not_mem hnot (hb ▸ hab ▸ ha)⟩
  · rw [List.map_append, List.mem_append, List.map_singleton, List.mem_singleton] at hn
    obtain hold | rfl := hn
    · exact .inl hold
    · exact .inr hat

/-! ### Return to fibre -/

theorem autoQueue {s : State} (h : Sound s) {n : Nat} (hst : (s.circuit n).state = .reverted) : Sound (s.autoQueue n) := by
  obtain ⟨he, hslot, hspan⟩ := h.placed.away n (.inl (by rw [hst]; decide))
  have hctx := h.outside (n := n) (by rw [hst]; decide)
  refine ite (fun hq => Sound.raise ?_ _) (fun _ => h)
  exact h.enqueue ⟨n, .toFibre, .auto, false, s.stamp⟩ (by simpa using hq.2) ⟨he, hslot, hspan, hctx⟩

theorem autoQueue_circuit (s : State) (n m : Nat) : (s.autoQueue n).circuit m = s.circuit m := by
  unfold State.autoQueue
  split <;> rfl

theorem foldl_autoQueue {ns : List Nat} {s : State} (h : Sound s) (hst : ∀ n, n ∈ ns → (s.circuit n).state = .reverted) :
    Sound (ns.foldl State.autoQueue s) := by
  induction ns generalizing s with
  | nil => exact h
  | cons n rest ih =>
    refine ih (h.autoQueue (hst n List.mem_cons_self)) fun m hm => ?_
    rw [autoQueue_circuit]
    exact hst m (List.mem_cons_of_mem _ hm)

theorem autoReturn {s : State} (h : Sound s) : Sound s.autoReturn := by
  refine h.foldl_autoQueue fun n hn => ?_
  have := (List.mem_filter.1 hn).2
  rw [Bool.and_eq_true, beq_iff_eq] at this
  exact this.1

theorem makeSlowTick {s : State} (h : Sound s) : Sound s.makeSlowTick := by
  unfold State.makeSlowTick
  dsimp only
  refine Sound.autoReturn ?_
  exact h.elsewhere rfl rfl rfl rfl rfl rfl rfl

theorem expireWindow {s : State} (h : Sound s) (g : Nat) : Sound (s.expireWindow g) := h.modGroup g _

/-! ### The start of a context -/

/-- The selected path of a circuit that may move in a direction is the current one. -/
theorem receive_of_admits {c : Circuit} {d : Direction} (h : c.carried) (hadm : d.admits c.state = true) :
    c.receive = d.currentPath := by
  unfold Circuit.carried at h
  obtain ⟨rfl, hst | hst⟩ | ⟨rfl, hst⟩ := (Direction.admits_iff d c.state).1 hadm <;> rw [hst] at h <;> exact h.1

/-- A circuit outside every context enters a free one, with nothing on its paths (R114, R118). -/
theorem joins {s t : State} {n c : Nat} (h : Sound s) (hn : n < 480) (hc : c < 8) (hfree : (s.ctx c).state = .free)
    (hat : (s.circuit n).equipped = true ∧ (s.circuit n).slot ≠ none ∧ (s.span (n / 30)).state = .inserted)
    (hres : (s.circuit n).residual = 0) {d : Direction} (hadm : d.admits (s.circuit n).state = true)
    (hm : t.mapLawful) (hq : t.queue = s.queue.filter (fun e => e.circuit != n)) (hs : t.spans = s.spans)
    (hp : t.pool = s.pool) (hcn : t.circuit n = { (s.circuit n).enter .migrating with context := some c })
    (hcm : ∀ m, m ≠ n → t.circuit m = s.circuit m) (hxk : ∀ k, k ≠ c → t.ctx k = s.ctx k)
    (hx : (t.ctx c).circuit = n ∧ (t.ctx c).direction = d ∧ (t.ctx c).origin = (s.circuit n).state
      ∧ (t.ctx c).switched = false ∧ (t.ctx c).lead = none ∧ (t.ctx c).cells = 0)
    (hst : (t.ctx c).state = .request ∨ (t.ctx c).state = .measure) (hent : (t.ctx c).ownEntries) : Sound t := by
  obtain ⟨x1, x2, x3, x4, x5, x6⟩ := hx
  have hout : (s.circuit n).state ≠ .migrating := by
    intro hmig
    rw [hmig] at hadm
    cases d <;> exact absurd hadm (by decide)
  have hctx := h.outside hout
  obtain ⟨hdelay, -⟩ := h.backed.settled n hctx
  have hzero (p : Path) : (s.circuit n).delay p = 0 := by rw [hdelay, hres]; exact ite_self _
  have hreceive := receive_of_admits (h.placed.carried n) hadm
  have hidle : ¬ (s.ctx c).working := fun hw => hw.1 hfree
  have hqueued (m : Nat) : t.queued m = true ↔ s.queued m = true ∧ m ≠ n := by
    rw [queued_iff, queued_iff, hq]
    simp only [List.mem_map, List.mem_filter, bne_iff_ne]
    constructor
    · rintro ⟨e, ⟨he, hne⟩, rfl⟩
      exact ⟨⟨e, he, rfl⟩, hne⟩
    · rintro ⟨⟨e, he, rfl⟩, hne⟩
      exact ⟨e, ⟨he, hne⟩, rfl⟩
  have hcn' : (t.circuit n).receive = (s.circuit n).receive ∧ (t.circuit n).cellsHeld = (s.circuit n).cellsHeld
      ∧ (t.circuit n).residual = 0 ∧ ∀ p, (t.circuit n).delay p = 0 := by
    rw [hcn]
    exact ⟨rfl, rfl, hres, fun p => (delay_lines (c := s.circuit n) rfl rfl p).trans (hzero p)⟩
  obtain ⟨c1, c2, c3, c4⟩ := hcn'
  refine h.pair n c hn hc hm (fun m hmn => by rw [hcm m hmn]) (fun k hk => by rw [hxk k hk])
    (fun x => by rw [State.span_congr hs]) (.inr ⟨hctx, hidle⟩)
    (.inl ⟨⟨by rw [hcn]; rfl, by rw [hcn], x1, ?_, ?_⟩, ?_⟩) (fun m hmn => ?_) ?_ (by rw [hcn]; exact hat) ?_ ?_ hent ?_ ?_ (fun k _ => by rw [hp]) ?_
  · obtain e | e := hst <;> exact ⟨by rw [e]; decide, fun ha => absurd (e ▸ ha) (by decide)⟩
  · refine fits_unswitched x4 (by rw [x2, x3]; exact hadm) c3 (c1.trans (by rw [x2]; exact hreceive)) ?_
    unfold Ctx.prepared
    obtain e | e := hst <;> rw [e] <;> exact ⟨x5, x6, c4 _, c4 _⟩
  · exact Bool.eq_false_iff.2 fun hqd => ((hqueued n).1 hqd).2 rfl
  · rw [hqueued]; exact and_iff_left hmn
  · rw [hq]; exact h.placed.once.sublist (List.Sublist.map _ List.filter_sublist)
  · rw [hcn]; rfl
  · rw [c2, c3, if_pos rfl, h.backed.residual n, if_pos hres]
  · rw [hp, c2, x6, h.backed.idle c hidle]
  · rw [hp]; exact h.backed.waitsOnce
  · rw [hp, h.backed.waiting c, hfree]
    refine ⟨nofun, fun e' => ?_⟩
    obtain e | e := hst <;> exact absurd (e.symm.trans e') (by decide)

end Sound

end Sys2Proof.Machine
end

section
/-! The laws of circuits, contexts, queue and cells through admission, the peer exchange and settling. -/

namespace Sys2Proof.Machine

namespace Sound

/-! ### Admission and acceptance -/

theorem queued_of_mem {s : State} {e : Entry} (h : e ∈ s.queue) : s.queued e.circuit = true :=
  (queued_iff s e.circuit).2 (List.mem_map_of_mem h)

theorem admitEntry {s : State} (h : Sound s) {e : Entry} {c : Nat} (he : e ∈ s.queue) (hc : c < 8)
    (hfree : (s.ctx c).state = .free) (hpass : ∀ t, s.passes e t = true) : Sound (s.admitEntry e c) := by
  obtain ⟨-, -, hadm, -, -, -, hres, -⟩ := (State.passes_iff s e).1 hpass
  have hat := h.placed.away e.circuit (.inr (queued_of_mem he))
  have hn := equipped_lt hat.1
  have hk : Keeps s (s.admitted e c) :=
    ((((Keeps.queued (fun hl => Nat.le_trans (List.length_filter_le _ _) hl)).trans (Keeps.setCtx _ _ _)).trans
      (Keeps.migrate _ _ _)).trans (Keeps.makeContextEntry _ _ _ _)).trans (Keeps.raise _ _)
  obtain ⟨tq, tx, txk, tn, tm, -, ht⟩ := State.admitted_facts s e hc hn
  rw [State.admitEntry_eq]
  refine Sound.recondition ?_ _
  have hrest : (s.admitted e c).spans = s.spans ∧ (s.admitted e c).pool = s.pool := by
    rw [ht, State.raise_spans, State.raise_pool]
    exact ⟨rfl, rfl⟩
  refine h.joins hn hc hfree hat hres hadm (hk.maps h.maps) tq hrest.1 hrest.2 tn tm txk ?_ (.inl ?_) ?_
  · rw [tx]; exact ⟨rfl, rfl, rfl, rfl, rfl, rfl⟩
  · rw [tx]
  · rw [tx]
    exact ⟨fun y hy => by rw [← Option.some.inj hy]; exact ⟨rfl, rfl⟩, nofun⟩

theorem makeAdmission {s : State} (h : Sound s) : Sound s.makeAdmission := by
  unfold State.makeAdmission
  split
  · exact h
  · split
    · next e c hfirst hcontext =>
      obtain ⟨hc, hfree, -⟩ := State.freeContext_eq_some.1 hcontext
      have hmem := List.mem_of_find?_eq_some hfirst
      have hpass := List.find?_some hfirst
      exact h.admitEntry hmem hc hfree (State.firstFailing_isNone.1 hpass)
    · exact h

theorem circuitRejects_none {s : State} {d : Direction} {n : Nat} (h : s.circuitRejects d n = none) :
    (s.circuit n).equipped = true ∧ (s.span (n / 30)).state = .inserted ∧ d.admits (s.circuit n).state = true
      ∧ (s.circuit n).residual = 0 := by
  unfold State.circuitRejects at h
  dsimp only at h
  split_ifs at h with h1 h2 h3 h4 h5 h6
  obtain ⟨he, hspan⟩ := not_not.1 (mt (s.notReady_iff n).2 h1)
  refine ⟨he, hspan, ?_, ?_⟩
  · simpa using h3
  · simpa using h4

theorem accept {s : State} (h : Sound s) {d : Direction} {x n c : Nat} (hbound : s.boundTo x = some n)
    (hrejects : s.circuitRejects d n = none) (hc : c < 8) (hfree : (s.ctx c).state = .free) :
    Sound (s.accept d x n c) := by
  obtain ⟨he, hspan, hadm, hres⟩ := circuitRejects_none hrejects
  obtain ⟨hx, hn⟩ := h.maps.2.1 x n hbound
  have hslot : (s.circuit n).slot = some x := (h.maps.1 x n hx hn).1 hbound
  have hk : Keeps s (s.accepted d x n c) :=
    (((((Keeps.queued (fun hl => Nat.le_trans (List.length_filter_le _ _) hl)).trans (Keeps.setCtx _ _ _)).trans
      (Keeps.migrate _ _ _)).trans (Keeps.makeContextEntry _ _ _ _)).trans (Keeps.enterMeasure _ _)).trans
      (Keeps.raise _ _)
  obtain ⟨tq, tx, txk, tn, tm, -, ht⟩ := State.accepted_facts s d x hn hc
  rw [State.accept_eq]
  refine Sound.recondition ?_ _
  have hrest : (s.accepted d x n c).spans = s.spans ∧ (s.accepted d x n c).pool = s.pool := by
    rw [ht, State.raise_spans, State.raise_pool]
    exact ⟨rfl, rfl⟩
  have hfound {p : Entry → Bool} {y : Entry} (hy : (s.queue.find? (fun e => e.circuit == n)).filter p = some y) :
      y.circuit = n ∧ p y = true := by
    obtain ⟨hfind, hp⟩ := Option.filter_eq_some_iff.1 hy
    have hname := List.find?_some hfind
    exact ⟨beq_iff_eq.1 hname, hp⟩
  refine h.joins hn hc hfree ⟨he, by rw [hslot]; exact nofun, hspan⟩ hres hadm (hk.maps h.maps) tq hrest.1 hrest.2 tn
    tm txk ?_ (.inr ?_) ?_
  · rw [tx]; exact ⟨rfl, rfl, rfl, rfl, rfl, rfl⟩
  · rw [tx]
  · rw [tx]
    refine ⟨fun y hy => ⟨(hfound hy).1, ?_⟩, fun y hy => (hfound hy).1⟩
    obtain ⟨hfind, hp⟩ := Option.filter_eq_some_iff.1 hy
    show Option.filter _ (s.queue.find? _) = none
    rw [hfind, Option.filter_some, if_neg]
    simpa using hp

theorem judgeRequest {s : State} (h : Sound s) (d : Direction) (x : Nat) : Sound (s.judgeRequest d x) := by
  unfold State.judgeRequest
  split
  · exact h.peer _
  · next n c hrejects hbound hcontext =>
    obtain ⟨hc, hfree, -⟩ := State.freeContext_eq_some.1 hcontext
    have hrej : s.circuitRejects d n = none := by
      rw [State.rejects, hbound] at hrejects
      exact hrejects
    exact h.accept hbound hrej hc hfree
  · exact h

/-! ### The peer exchange -/

theorem answerStep {s : State} (h : Sound s) (x : Nat) (st : Step) : Sound (s.answerStep x st) := by
  have hstale : Sound (State.answerStep.stale s x) := ite (fun _ => h) (fun _ => h.peer _)
  have hrequest (d : Direction) : Sound (if s.lingerFor x (fun k => k == .abort) then s else s.judgeRequest d x) :=
    ite (fun _ => h) (fun _ => h.judgeRequest d x)
  cases st
  case reqFibre => exact hrequest _
  case reqCopper => exact hrequest _
  case bridged => exact hstale
  case ready => exact hstale
  case switched => exact hstale
  case abort => exact h
  case reject => exact h
  case digest => exact h

theorem peerAborts {s : State} (h : Sound s) (c : Nat) (b : Byte) : Sound (s.peerAborts c b) :=
  ite (fun _ => h.defer c) (fun _ => h.abort c _ _)

theorem becomeResponder {s : State} (h : Sound s) {c : Nat} (hst : (s.ctx c).state = .request) :
    Sound (s.becomeResponder c) := by
  have i := h.inside rfl (working_of (c := c) (by rw [hst]; decide) (by rw [hst]; decide))
  exact h.measureAfter i (fun x => { x with role := .responder }) rfl hst

theorem glare {s : State} (h : Sound s) {c : Nat} (d : Direction) (x : Nat) (hst : (s.ctx c).state = .request) :
    Sound (s.glare c d x) :=
  ite (fun _ => h) (fun _ => ite (fun _ => h.becomeResponder hst) (fun _ => h.abort c _ _))

theorem actOn {s : State} (h : Sound s) (c : Nat) (st : Step) (b : Byte) (x : Nat) : Sound (s.actOn c st b x) := by
  unfold State.actOn
  have hmeasure (hst : (s.ctx c).state = .request) : Sound (s.enterMeasure c) :=
    h.enterMeasure (h.inside rfl (working_of (c := c) (by rw [hst]; decide) (by rw [hst]; decide))) hst
  have hdue : Sound (s.makeDue c) := h.modCtx rfl
  split
  case h_1 hst => exact hmeasure hst
  case h_4 hst => exact h.glare _ _ hst
  case h_5 hst => exact h.glare _ _ hst
  all_goals first
    | exact h.peerAborts _ _
    | exact h.abort _ _ _
    | exact hdue
    | exact h

theorem confirm {s : State} (h : Sound s) (c : Nat) (e : ViewEntry) : Sound (s.confirm c e) :=
  Sound.actOn (h.modCtx rfl) _ _ _ _

theorem dispatchSighting {s : State} (h : Sound s) (x : Nat) : Sound (s.dispatchSighting x) := by
  unfold State.dispatchSighting
  split
  · split
    · split
      · exact h.confirm _ _
      · exact h.answerStep _ _
    · exact h
  · exact h

theorem ageOut {s : State} (h : Sound s) (x : Nat) : Sound (s.ageOut x) := by
  unfold State.ageOut
  have h1 := h.peer { s.peer with view := s.peer.view.filter (fun y => y.slot != x) }
  split
  · split
    · dsimp only
      split
      · exact h1.modCtx rfl
      · exact h1
    · exact h
  · exact h

theorem updateView {s : State} (h : Sound s) (st : Step) (w : ExchangeWord) : Sound (s.updateView st w) :=
  ite (fun _ => h.peer _) (fun _ => ite (fun _ => h.peer _) (fun _ => h.peer _))

theorem declareSilentIfDue {s : State} (h : Sound s) : Sound s.declareSilentIfDue :=
  ite (fun _ => (h.peer _).declare _ _) (fun _ => h)

theorem clearSilent {s : State} (h : Sound s) : Sound s.clearSilent :=
  ite (fun _ => (h.peer _).clearFault _ _) (fun _ => h)

theorem judgeSite {s : State} (h : Sound s) (x : Nat) : Sound (s.judgeSite x) :=
  ite (fun _ => ite (fun _ => h.peer _) (fun _ => ite (fun _ => (h.peer _).clearFault _ _) (fun _ => h.peer _)))
    (fun _ => ite (fun _ => (h.peer _).declare _ _) (fun _ => h))

/-- What the map knows of the peer's digest. -/
theorem peerMap {s : State} (h : Sound s) (d : Option (BitVec 16)) (b : Bool) (r : Nat) :
    Sound { s with map := { s.map with peerDigest := d, mismatch := b, run := r } } :=
  h.elsewhere rfl rfl rfl rfl rfl rfl rfl

theorem takeDigest {s : State} (h : Sound s) (d : BitVec 16) : Sound (s.takeDigest d) := by
  unfold State.takeDigest
  dsimp only
  refine ite (fun hb => ite (fun _ => ite (fun _ => ?_) (fun _ => ?_)) (fun _ => ?_))
    (fun hb => ite (fun _ => ?_) (fun _ => ite (fun _ => ?_) (fun _ => ?_)))
  · exact (h.peerMap (some d) false 0).clearFault _ _
  · exact h.peerMap (some d) s.map.mismatch (s.map.run + 1)
  · exact h.peerMap (some d) s.map.mismatch 0
  · exact h.peerMap (some d) s.map.mismatch 0
  · exact (h.peerMap (some d) true 0).declare _ _
  · exact h.peerMap (some d) s.map.mismatch (s.map.run + 1)

theorem exchangeWord {s : State} (h : Sound s) (w : ExchangeWord) : Sound (s.exchangeWord w) := by
  unfold State.exchangeWord
  dsimp only
  split
  · exact h.judgeSite _
  · exact (h.judgeSite _).takeDigest _
  · exact ((h.judgeSite _).updateView _ _).dispatchSighting _

/-! ### Settling and timeouts -/

theorem settleContext {s : State} (h : Sound s) (c : Nat) : Sound (s.settleContext c) :=
  ((h.serviceAll.completeIfDue c).startIfDue c).measureIfDue c

theorem settle {s : State} (h : Sound s) : Sound s.settle :=
  (foldl (fun _ c ht => ht.settleContext c) _ h.declareSilentIfDue).serviceAll

theorem poolTimeoutIfDue {s : State} (h : Sound s) : Sound s.poolTimeoutIfDue := by
  unfold State.poolTimeoutIfDue
  split
  · exact h
  · exact ite (fun _ => h.abort _ _ _) (fun _ => h)

end Sound

end Sys2Proof.Machine
end

section
/-! The laws of circuits, contexts, queue and cells through the spans, the apply of the map, the receivers and the events of
a boundary. -/

namespace Sys2Proof.Machine

namespace Sound

/-! ### Spans -/

/-- A span without circuits that are away changes its state. -/
theorem modSpanFree {s : State} (h : Sound s) (x : Nat) (f : Span → Span)
    (hfree : ∀ n, n / 30 = x → (s.circuit n).state = .copper ∧ s.queued n = false) : Sound (s.modSpan x f) := by
  refine h.recast h.maps rfl rfl rfl (fun _ => ⟨rfl, rfl, rfl, rfl, rfl, fun _ => rfl⟩) h.placed.carried
    (fun _ => Iff.rfl) (fun m hm => ?_)
  obtain ⟨he, hslot, hspan⟩ := h.placed.away m hm
  refine ⟨he, hslot, ?_⟩
  rw [State.span_modSpan, if_neg]
  · exact hspan
  · rintro ⟨hx, -⟩
    obtain ⟨hcopper, hnot⟩ := hfree m hx
    obtain hne | hq := hm
    · exact hne hcopper
    · exact absurd (hnot.symm.trans hq) (by decide)

/-- A span that is not INSERTED has no circuits that are away. -/
theorem free_of_not_inserted {s : State} (h : Sound s) {x : Nat} (hx : (s.span x).state ≠ .inserted) (n : Nat)
    (hn : n / 30 = x) : (s.circuit n).state = .copper ∧ s.queued n = false := by
  have haway := h.placed.away n
  rw [hn] at haway
  refine ⟨?_, ?_⟩
  · by_contra hne
    exact hx (haway (.inl hne)).2.2
  · by_contra hne
    exact hx (haway (.inr (by simpa using hne))).2.2

theorem clearMarkerLoss {s : State} (h : Sound s) (x : Nat) : Sound (s.clearMarkerLoss x) :=
  ite (fun _ => (h.modSpan x rfl).clearFault _ _) (fun _ => h)

theorem moveSpan {s : State} (h : Sound s) (x : Nat) (new : SpanState)
    (hfree : ∀ n, n / 30 = x → (s.circuit n).state = .copper ∧ s.queued n = false) : Sound (s.moveSpan x new) := by
  have h0 := h.forget (.drainComplete x)
  have hset := h0.modSpanFree x (fun y => { y with state := new }) hfree
  have hcut : Sound ((s.forget (.drainComplete x)).becomeCut x) := (h0.modSpanFree x _ hfree).reconditionAll _
  have hthrough : Sound ((s.forget (.drainComplete x)).becomeThrough x) :=
    ((h0.modSpanFree x _ hfree).clearMarkerLoss x).reconditionAll _
  have hmove := ite (p := (s.span x).state.cut = new.cut) (fun _ => hset)
    (fun _ => ite (p := new.cut = true) (fun _ => hcut) (fun _ => hthrough))
  exact hmove.raise _

theorem drainTest {s : State} (h : Sound s) (x : Nat) : Sound (s.drainTest x) := by
  unfold State.drainTest
  split
  · exact h
  · next new hd =>
    refine ite (fun _ => h.moveSpan x new (h.free_of_not_inserted fun hin => ?_)) (fun _ => h)
    rw [hin] at hd
    exact nomatch hd

theorem takeOwed {s : State} (h : Sound s) {e : BoundaryEvent} {f : State → State} (hf : ∀ t, Sound t → Sound (f t)) :
    Sound (s.takeOwed e f) := ite (fun _ => hf _ (h.forget e)) (fun _ => h)

theorem takeDrains {s : State} (h : Sound s) (x : Nat) : Sound (s.takeDrains x) :=
  ite (fun _ => foldl (fun _ k ht => ht.takeOwed fun _ hu => hu.drainTest k) _ h) (fun _ => h)

theorem declareMarkerLoss {s : State} (h : Sound s) (x : Nat) : Sound (s.declareMarkerLoss x) :=
  ite (fun _ => (h.modSpan x rfl).declare _ _) (fun _ => h)

/-! ### The copper receivers -/

theorem handLoss {s : State} (h : Sound s) (side : Side) (x : Nat) (a b : Bool) : Sound (s.handLoss side x a b) :=
  ite (fun _ => h) (fun _ => ite (fun _ => h.declare _ x) (fun _ => h.clearFault _ x))

theorem recordCopper {s : State} (h : Sound s) (side : Side) (x : Nat) (c b : Bool) (ss : List Byte)
    (cs : List CodeArrival) : Sound (s.recordCopper side x c b ss cs) := by
  unfold State.recordCopper
  dsimp only
  refine Sound.modSpan ?_ x ?_
  · exact h.elsewhere rfl rfl rfl rfl rfl rfl rfl
  · cases side <;> rfl

/-- Contexts changed all at once in what the laws do not read. -/
theorem mapCtxs {s : State} (h : Sound s) {f : Nat → Ctx → Ctx} (hf : ∀ k x, (f k x).core = x.core) :
    Sound { s with contexts := Table.mapIdx s.contexts f } := by
  refine h.same h.maps (fun _ => rfl) (fun k => ?_) rfl (fun _ => rfl) rfl rfl
  by_cases hk : k < 8
  · have hat : Table.at (Table.mapIdx s.contexts f) Ctx.reset k = f k (s.ctx k) := Table.at_mapIdx _ _ _ _ hk
    exact (congrArg Ctx.core hat).trans (hf k _)
  · have hle := Nat.le_of_not_lt hk
    exact congrArg Ctx.core ((Table.at_of_le _ _ hle).trans (Table.at_of_le _ _ hle).symm)

theorem takeD_core (x : Ctx) (d : Int) : (x.takeD d).core = x.core := rfl

theorem formD {s : State} (h : Sound s) (x : Nat) : Sound (s.formD x) := by
  unfold State.formD
  split
  · refine h.mapCtxs fun _ y => ?_
    split
    · exact takeD_core y _
    · rfl
  · exact h

theorem missMarker {s : State} (h : Sound s) (x : Nat) : Sound (s.missMarker x) :=
  h.modSpan x (Keeps.missMarker_state _ _).1

theorem receiveCopper {s : State} (h : Sound s) (side : Side) (x : Nat) (p : BitVec 7) (b : Bool) (ss : List Byte)
    (cs : List CodeArrival) : Sound (s.receiveCopper side x p b ss cs) := by
  have hrec := h.recordCopper side x (p == Config.framingPattern) b ss cs
  unfold State.receiveCopper
  cases side with
  | switch => exact hrec.handLoss _ _ _ _
  | line =>
    exact ite (fun _ => (((hrec.handLoss _ _ _ _).modSpan x rfl).clearMarkerLoss x).formD x)
      (fun _ => (hrec.missMarker x).handLoss _ _ _ _)

/-! ### The fibre receiver -/

theorem validWord {s : State} (h : Sound s) (w : ExchangeWord) : Sound (s.validWord w) :=
  ((h.port _).clearSilent).exchangeWord _

theorem goodFrame {s : State} (h : Sound s) (b : List Byte) : Sound (s.goodFrame b) :=
  ite (fun _ => ((h.port _).reconditionAll _).validWord _) (fun _ => ((h.port _).reconditionAll _).port _)

theorem judgeFrame {s : State} (h : Sound s) (b : List Byte) : Sound (s.judgeFrame b) :=
  ite (fun _ => h.goodFrame b) (fun _ => h.port _)

theorem loseFibre {s : State} (h : Sound s) : Sound s.loseFibre := ((h.port _).declare _ _).reconditionAll _

theorem regainFibre {s : State} (h : Sound s) (p : Nat) (b : List Byte) : Sound (s.regainFibre p b) :=
  ((h.port _).clearFault _ _).judgeFrame b

theorem receiveAligned {s : State} (h : Sound s) (l : List Byte) (i : Nat) : Sound (s.receiveAligned l i) :=
  ite (fun _ => (h.port _).judgeFrame _) (fun _ => ite (fun _ => h.loseFibre.port _) (fun _ => (h.port _).port _))

theorem receiveTrial {s : State} (h : Sound s) (l : List Byte) (p i : Nat) : Sound (s.receiveTrial l p i) :=
  ite (fun _ => ite (fun _ => h.regainFibre _ _) (fun _ => h.port _)) (fun _ => h.port _)

theorem receiveCarriage {s : State} (h : Sound s) (x : Nat) (b : List Byte) : Sound (s.receiveCarriage x b) := by
  unfold State.receiveCarriage
  generalize frameAt b x = q
  dsimp only
  have h1 := h.port { s.port with stream := q }
  split
  · split
    · exact h1.port _
    · exact h1.receiveTrial _ _ _
  · split
    · exact h1
    · exact h1.receiveAligned _ _

theorem endWindow {s : State} (h : Sound s) : Sound s.endWindow := by
  have hjudge : Sound s.judgeWindow :=
    ite (fun _ => h) (fun _ => ite (fun _ => ite (fun _ => h) (fun _ => (h.port _).declare _ _))
      (fun _ => ite (fun _ => (h.port _).clearFault _ _) (fun _ => h)))
  exact ite (fun _ => hjudge.port _) (fun _ => h)

/-! ### The apply of the map -/

/-- A circuit whose slot an edit that passes releases is in COPPER and not queued (R79). -/
theorem makeEdit_slot {w : State} {e : Edit} (hf : w.editFails e = none) {m : Nat}
    (hm : (w.circuit m).state ≠ .copper ∨ w.queued m = true) (hslot : (w.circuit m).slot ≠ none) :
    ((w.makeEdit e).circuit m).slot ≠ none := by
  cases e with
  | assign slot n =>
    show ((w.bind slot n).circuit m).slot ≠ none
    rw [State.circuit_bind]
    split
    · exact nofun
    · exact hslot
  | release slot =>
    cases hb : w.boundTo slot with
    | none => simp [State.editFails, hb] at hf
    | some n =>
      have hr : w.releasable slot n = true := by
        simpa [State.editFails, hb] using hf
      have hmake : w.makeEdit (.release slot) = w.unbind slot n := by simp [State.makeEdit, hb]
      rw [hmake, State.circuit_unbind, if_neg]
      · exact hslot
      · rintro ⟨rfl, -⟩
        simp only [State.releasable, Bool.and_eq_true, beq_iff_eq, Bool.not_eq_true'] at hr
        obtain ⟨⟨⟨hcopper, hnot⟩, -⟩, -⟩ := hr
        obtain hne | hq := hm
        · exact hne hcopper
        · exact absurd (hnot.symm.trans hq) (by decide)

theorem makeEdit {w : State} (h : Sound w) {e : Edit} (hr : e.inRange) (hf : w.editFails e = none) :
    Sound (w.makeEdit e) := by
  have hmap := State.makeEdit_lawful h.maps hr hf
  have hslot := fun m => makeEdit_slot (m := m) hf
  have hcircuit := State.makeEdit_circuit w e
  have hsame : (w.makeEdit e).contexts = w.contexts ∧ (w.makeEdit e).queue = w.queue ∧ (w.makeEdit e).pool = w.pool
      ∧ (w.makeEdit e).spans = w.spans := by
    rw [State.makeEdit_same w e]
    exact ⟨rfl, rfl, rfl, rfl⟩
  generalize w.makeEdit e = t at hmap hslot hcircuit hsame ⊢
  obtain ⟨hx, hq, hp, hs⟩ := hsame
  refine h.recast hmap hx hq hp (fun m => ?_) (fun m => ?_) (fun m => ?_) (fun m hm => ?_)
  · rw [hcircuit m]
    exact ⟨rfl, rfl, rfl, rfl, rfl, fun p => delay_lines rfl rfl p⟩
  · rw [hcircuit m]
    exact h.placed.carried m
  · rw [hcircuit m]
  · have hstate : (t.circuit m).state = (w.circuit m).state := by rw [hcircuit m]
    have hequipped : (t.circuit m).equipped = (w.circuit m).equipped := by rw [hcircuit m]
    rw [hstate] at hm
    obtain ⟨h1, h2, h3⟩ := h.placed.away m hm
    rw [hequipped, State.span_congr hs]
    exact ⟨h1, hslot m hm h2, h3⟩

theorem judge {w u : State} (h : Sound w) {i : Nat} {es : List Edit} (hr : ∀ e, e ∈ es → e.inRange)
    (hj : w.judge i es = .inl u) : Sound u := by
  induction es generalizing w i with
  | nil =>
    rw [State.judge, Sum.inl.injEq] at hj
    exact hj ▸ h
  | cons e rest ih =>
    unfold State.judge at hj
    split at hj
    · exact nomatch hj
    · next hf => exact ih (h.makeEdit (hr e List.mem_cons_self) hf) (fun y hy => hr y (List.mem_cons_of_mem e hy)) hj

/-- An update of the map that leaves its entries, and its staging list where that is not emptied. -/
theorem map {s : State} (h : Sound s) {m : CarriageMap} (he : m.entries = s.map.entries)
    (hg : m.staging = s.map.staging ∨ m.staging = []) : Sound { s with map := m } := by
  refine h.same ?_ (fun _ => rfl) (fun _ => rfl) rfl (fun _ => rfl) rfl rfl
  obtain hg | hg := hg
  · exact Keeps.maps_of he hg (fun _ => rfl) h.maps
  · obtain ⟨h1, h2, h3, -⟩ := Keeps.maps_of (t := { s with map := { m with staging := s.map.staging } }) he rfl
      (fun _ => rfl) h.maps
    exact ⟨h1, h2, h3, fun e hmem => by rw [show State.map { s with map := m } = m from rfl, hg] at hmem; cases hmem⟩

theorem applyEdits {s : State} (h : Sound s) : Sound s.applyEdits.1 := by
  unfold State.applyEdits
  split
  · next w hj =>
    have hw := h.judge h.maps.staged hj
    have h1 : Sound { w with map := { w.map with
        staging := [], ownDigest := digestOf w.map.entries,
        run := if digestOf w.map.entries = s.map.ownDigest then s.map.run else 0 } } := hw.map rfl (.inr rfl)
    exact (h1.raise _).reconditionAll _
  · exact h

theorem makeApply {s : State} (h : Sound s) : Sound s.makeApply := by
  unfold State.makeApply
  dsimp only
  refine ite (fun _ => ?_) (fun _ => h)
  have h1 := h.applyEdits
  generalize s.applyEdits = r at h1 ⊢
  have h2 : Sound { r.1 with map := { r.1.map with applyPending := false, applyAnswer := false } } :=
    h1.map rfl (.inl rfl)
  exact ite (fun _ => h2.modLink _ _) (fun _ => ite (fun _ => h2.modLink _ _) (fun _ => h2))

/-! ### The events of a boundary -/

theorem event {s : State} (h : Sound s) {f : State → State} (hf : ∀ t, Sound t → Sound (f t)) : Sound (s.event f) :=
  ite (fun _ => hf _ h.settle) (fun _ => h)

theorem owedEvent {s : State} (h : Sound s) {e : BoundaryEvent} {f : State → State}
    (hf : ∀ t, Sound t → Sound (f t)) : Sound (s.owedEvent e f) := h.event fun _ ht => ht.takeOwed hf

theorem silenceIfDue {s : State} (h : Sound s) (l : Link) : Sound (s.silenceIfDue l) :=
  ite (fun _ => (h.modLink l _).raise _) (fun _ => h)

theorem expireLinger {s : State} (h : Sound s) (x : Nat) : Sound (s.expireLinger x) := by
  unfold State.expireLinger
  split
  · exact h.peer _
  · exact h

theorem perform {s : State} (h : Sound s) (e : BoundaryEvent) : Sound (s.perform e) := by
  cases e
  case abortReturn c => exact h.owedEvent fun _ ht => ht.returnIfPending c
  case switch c => exact h.owedEvent fun _ ht => ht.makeSwitch c
  case revert => exact h.owedEvent fun _ ht => ht.makeRevert
  case walkSlot => exact h.owedEvent fun _ ht => ht.walk
  case mapApply => exact h.owedEvent fun _ ht => ht.makeApply
  case drainComplete x => exact h.event (f := fun t => State.takeDrains t x) fun _ ht => ht.takeDrains x
  case slowTick => exact h.owedEvent fun _ ht => ht.makeSlowTick
  case windowEnd => exact h.owedEvent fun _ ht => ht.endWindow
  case windowExpiry g => exact h.owedEvent (f := fun t => State.expireWindow t g) fun _ ht => ht.expireWindow g
  case stepTimeout c =>
    exact h.owedEvent (f := fun t => State.stepTimeoutIfDue t c) fun _ ht => ite (fun _ => ht.abort c _ _) (fun _ => ht)
  case bridgeTimeout c =>
    exact h.owedEvent (f := fun t => State.bridgeTimeoutIfDue t c) fun _ ht => ite (fun _ => ht.abort c _ _) (fun _ => ht)
  case poolTimeout => exact h.owedEvent fun _ ht => ht.poolTimeoutIfDue
  case abortingEnd c => exact h.owedEvent fun _ ht => ht.endAborting c
  case lingerExpiry x => exact h.owedEvent fun _ ht => ht.expireLinger x
  case linkSilent l => exact h.owedEvent fun _ ht => ht.silenceIfDue l
  case admission => exact h.owedEvent fun _ ht => ht.makeAdmission

end Sound

end Sys2Proof.Machine
end

section
/-! The laws of circuits, contexts, queue and cells through the commands. -/

namespace Sys2Proof.Machine

namespace Sound

/-! ### Circuits provisioned and protected -/

/-- A circuit that changes its state, its equipping or what no law reads, with its load as it was. -/
theorem recastOne {s : State} (h : Sound s) {n : Nat} {f : Circuit → Circuit}
    (hslot : (f (s.circuit n)).slot = (s.circuit n).slot) (hload : SameLoad (f (s.circuit n)) (s.circuit n))
    (hcar : (f (s.circuit n)).carried)
    (hmig : (f (s.circuit n)).state = .migrating ↔ (s.circuit n).state = .migrating)
    (haway : (f (s.circuit n)).state ≠ .copper ∨ s.queued n = true → (f (s.circuit n)).equipped = true
      ∧ (s.circuit n).slot ≠ none ∧ (s.span (n / 30)).state = .inserted) : Sound (s.modCircuit n f) := by
  have hread (m : Nat) : (m = n ∧ (s.modCircuit n f).circuit m = f (s.circuit n))
      ∨ (s.modCircuit n f).circuit m = s.circuit m := by
    rw [State.circuit_modCircuit]
    split
    · next hm => exact .inl ⟨hm.1, rfl⟩
    · exact .inr rfl
  refine h.recast (Keeps.maps_of (s := s) rfl rfl (fun m => ?_) h.maps) rfl rfl rfl (fun m => ?_) (fun m => ?_)
    (fun m => ?_) (fun m hm => ?_) <;> obtain ⟨rfl, e⟩ | e := hread m
  · rw [e]; exact hslot
  · rw [e]
  · rw [e]; exact hload
  · rw [e]; exact ⟨rfl, rfl, rfl, rfl, rfl, fun _ => rfl⟩
  · rw [e]; exact hcar
  · rw [e]; exact h.placed.carried m
  · rw [e]; exact hmig
  · rw [e]
  · rw [e] at hm ⊢
    rw [hslot]
    exact haway hm
  · rw [e] at hm ⊢
    exact h.placed.away m hm

theorem equip {s : State} (h : Sound s) (n g : Nat) (k : TrafficClass) : Sound (s.equip n g k) := by
  refine Sound.recondition (h.recastOne rfl ⟨rfl, rfl, rfl, rfl, rfl, fun p => delay_lines rfl rfl p⟩
    (h.placed.carried n) Iff.rfl fun hm => ⟨rfl, ?_⟩) n
  exact (h.placed.away n hm).2

theorem commit {s : State} (h : Sound s) {n : Nat} {old new : MigState} (hst : (s.circuit n).state = old)
    (hold : old = .fibreProtected ∨ old = .fibreOnly) (hnew : new = .fibreProtected ∨ new = .fibreOnly) :
    Sound (s.modCircuit n (fun c => c.enter new)) := by
  have haway := h.placed.away n (.inl (by rw [hst]; obtain rfl | rfl := hold <;> decide))
  have hreceive : (s.circuit n).receive = .fibre := by
    have hcar := h.placed.carried n
    unfold Circuit.carried at hcar
    rw [hst] at hcar
    obtain rfl | rfl := hold <;> exact hcar.1
  refine h.recastOne rfl ⟨rfl, ?_, rfl, rfl, rfl, fun p => delay_lines rfl rfl p⟩ ?_ ?_ fun _ => haway
  · rw [hreceive]
    obtain rfl | rfl := hnew <;> rfl
  · obtain rfl | rfl := hnew <;> exact ⟨rfl, rfl⟩
  · rw [hst]
    obtain rfl | rfl := hold <;> obtain rfl | rfl := hnew <;> exact ⟨nofun, nofun⟩

/-! ### UNEQUIP -/

theorem unequip_facts (c : Circuit) (idle : Code) : (c.unequip idle).state = c.state
    ∧ (c.unequip idle).context = c.context ∧ (c.unequip idle).receive = c.receive
    ∧ (c.unequip idle).transmit = c.transmit ∧ (c.unequip idle).slot = c.slot ∧ (c.unequip idle).residual = 0
    ∧ (c.residual = 0 → (c.unequip idle).cellsHeld = c.cellsHeld) ∧ (c.residual ≠ 0 → (c.unequip idle).cellsHeld = 0)
    ∧ (c.settled → ∀ p, (c.unequip idle).delay p = 0) := by
  obtain ⟨d, hd⟩ : ∃ d, d = c.dropForUnequip := ⟨_, rfl⟩
  have hu : c.unequip idle = { d.idleFilters idle with equipped := false, call := .idle, conditioned := false } := by
    rw [hd]; rfl
  have hdelay (p : Path) : (c.unequip idle).delay p = d.delay p := by
    rw [hu]
    exact delay_lines rfl rfl p
  rw [show (c.unequip idle).state = d.state by rw [hu]; rfl, show (c.unequip idle).context = d.context by rw [hu]; rfl,
    show (c.unequip idle).receive = d.receive by rw [hu]; rfl, show (c.unequip idle).transmit = d.transmit by rw [hu]; rfl,
    show (c.unequip idle).slot = d.slot by rw [hu]; rfl, show (c.unequip idle).residual = d.residual by rw [hu]; rfl,
    show (c.unequip idle).cellsHeld = d.cellsHeld by rw [hu]; rfl]
  by_cases hr : c.residual = 0
  · have hdc : d = c := hd.trans (if_pos hr)
    rw [hdc] at hdelay ⊢
    refine ⟨rfl, rfl, rfl, rfl, rfl, hr, fun _ => rfl, fun h => absurd hr h, fun hs p => ?_⟩
    rw [hdelay, hs.1 p, hr]
    exact ite_self _
  · have hdc : d = { c.dropOn c.residualPath with residual := 0, residualPath := .copper, cellsHeld := 0 } :=
      hd.trans (if_neg hr)
    obtain ⟨-, hslot, hreceive, hstate, hctx, htransmit, -⟩ := same_dropOn c c.residualPath
    rw [hdc] at hdelay ⊢
    refine ⟨hstate, hctx, hreceive, htransmit, hslot, rfl, fun h => absurd h hr, fun _ => rfl, fun hs p => ?_⟩
    refine (hdelay p).trans ((delay_lines (c := c.dropOn c.residualPath) rfl rfl p).trans ?_)
    rw [delay_dropOn, hs.1 p]
    split
    · rfl
    · rfl

theorem unequip {s : State} (h : Sound s) {n : Nat} (hn : n < 480) (hst : (s.circuit n).state = .copper)
    (hnot : s.queued n = false) (hk : Keeps s (s.unequip n)) : Sound (s.unequip n) := by
  obtain ⟨idle, hidle⟩ : ∃ idle, idle = (s.group (s.circuit n).group).idle := ⟨_, rfl⟩
  obtain ⟨f1, f2, f3, f4, -, f6, f7, f8, f9⟩ := unequip_facts (s.circuit n) idle
  have hctx := h.outside (n := n) (by rw [hst]; decide)
  have hset := h.backed.settled n hctx
  have tn : (s.unequip n).circuit n = (s.circuit n).unequip idle := by
    rw [hidle]
    exact State.circuit_modCircuit_same s hn (fun c => c.unequip (s.group c.group).idle)
  have tm (m : Nat) (hm : m ≠ n) : (s.unequip n).circuit m = s.circuit m :=
    (State.circuit_modCircuit s n m (fun c => c.unequip (s.group c.group).idle)).trans (if_neg fun e => hm e.1)
  have hsame : (s.unequip n).contexts = s.contexts ∧ (s.unequip n).queue = s.queue ∧ (s.unequip n).spans = s.spans
      ∧ (s.unequip n).pool.waitList = s.pool.waitList
      ∧ (s.unequip n).pool.free = s.pool.free + if (s.circuit n).residual = 0 then 0 else (s.circuit n).cellsHeld :=
    ⟨rfl, rfl, rfl, rfl, rfl⟩
  generalize s.unequip n = t at hk tn tm hsame ⊢
  obtain ⟨hx, hq, hs, hw, hf⟩ := hsame
  refine h.alone n hn (hk.maps h.maps) (fun m hm => by rw [tm m hm]) (fun k => by rw [State.ctx_congr hx]) (by rw [hq])
    (fun x => by rw [State.span_congr hs]) hw hctx ?_ ?_ ?_ (fun hm => ?_) ?_ ?_ ?_
  · have hcar := h.placed.carried n
    unfold Circuit.carried at hcar ⊢
    rw [tn, f1, f3, f4]
    exact hcar
  · rw [tn, f1, hst]; exact nofun
  · rw [tn, f2]; exact hctx
  · rw [tn, f1, hst, hnot] at hm
    obtain hne | hfalse := hm
    · exact absurd rfl hne
    · exact nomatch hfalse
  · rw [tn, f6, if_pos rfl]
    by_cases hr : (s.circuit n).residual = 0
    · rw [f7 hr, h.backed.residual n, if_pos hr]
    · exact f8 hr
  · rw [tn]
    exact ⟨fun p => by rw [f9 hset, f6, ite_self], fun hr => absurd f6 hr⟩
  · rw [tn, hf]
    by_cases hr : (s.circuit n).residual = 0
    · rw [f7 hr, if_pos hr]; rfl
    · rw [f8 hr, if_neg hr]; rfl

/-! ### Contexts whose entries are taken, and the reset of migration -/

/-- A context that keeps its circuit and its cells, with lawful entries. -/
structure Continues (x y : Ctx) : Prop where
  working : y.working ↔ x.working
  circuit : y.circuit = x.circuit
  cells : y.cells = x.cells
  entries : y.ownEntries
  fits : x.working → ∀ d, x.fits d → y.fits d

theorem recontext {s t : State} (h : Sound s) (hm : t.mapLawful) (hc : t.circuits = s.circuits)
    (hs : t.spans = s.spans) (hq : t.queue = s.queue) (hfree : t.pool.free = s.pool.free)
    (hctx : ∀ k, Continues (s.ctx k) (t.ctx k)) (hwaits : ∀ k, k ∈ t.pool.waitList ↔ (t.ctx k).state = .allocate)
    (hnodup : t.pool.waitList.Nodup) : Sound t := by
  obtain ⟨hp, hb, -⟩ := h
  have hcircuit (n : Nat) : t.circuit n = s.circuit n := State.circuit_congr hc n
  have hqueued (n : Nat) : t.queued n = s.queued n := by simp only [State.queued, hq]
  have hwork (k : Nat) := (hctx k).working
  have hname (k : Nat) := (hctx k).circuit
  refine ⟨⟨fun n => ?_, fun n => ?_, fun n c => ?_, fun c => ?_, fun n hn => ?_, by rw [hq]; exact hp.once, fun n => ?_,
    fun c => (hctx c).entries⟩, ⟨?_, fun n => ?_, fun n => ?_, fun n c hn => ?_, fun c => ?_, hwaits, hnodup⟩, hm⟩
  · rw [hcircuit]; exact hp.carried n
  · rw [hcircuit]; exact hp.migrating n
  · rw [hcircuit, hname, hwork]; exact hp.inContext n c
  · rw [hwork, hname, hcircuit]; exact hp.ofContext c
  · rw [hcircuit, hqueued] at hn
    rw [hcircuit, State.span_congr hs]
    exact hp.away n hn
  · rw [hqueued, hcircuit]; exact hp.apart n
  · have htotal := hb.total
    have hcells (k : Nat) := (hctx k).cells
    rw [State.totalCells_eq] at htotal ⊢
    simp only [hcells, hcircuit, hfree]
    exact htotal
  · rw [hcircuit]; exact hb.residual n
  · rw [hcircuit]; exact hb.settled n
  · rw [hcircuit] at hn ⊢
    exact (hctx c).fits (hp.inContext n c hn).2 _ (hb.fits n c hn)
  · rw [hwork, (hctx c).cells]; exact hb.idle c

theorem Continues.refl {x : Ctx} (h : x.ownEntries) : Continues x x := ⟨Iff.rfl, rfl, rfl, h, fun _ _ hf => hf⟩

/-- Entries may be taken from a context at any time. -/
theorem Continues.emptied {x : Ctx} {a b : Option Entry} (ha : a = x.served ∨ a = none) (hb : b = none)
    (h : x.ownEntries) : Continues x { x with served := a, parked := b } := by
  refine ⟨Iff.rfl, rfl, rfl, ⟨fun e he => ?_, fun e he => ?_⟩, fun _ _ hf => hf⟩
  · obtain rfl | rfl := ha
    · exact ⟨(h.1 e he).1, hb⟩
    · exact nomatch he
  · rw [hb] at he
    exact nomatch he

theorem ctx_mapIdx (s : State) (f : Nat → Ctx → Ctx) (k : Nat) : State.ctx { s with contexts := Table.mapIdx s.contexts f } k
    = if k < 8 then f k (s.ctx k) else Ctx.reset := by
  split
  · next hk => exact Table.at_mapIdx _ _ _ _ hk
  · next hk => exact Table.at_of_le _ _ (Nat.le_of_not_lt hk)

theorem ctx_of_le (s : State) {k : Nat} (h : ¬ k < 8) : s.ctx k = Ctx.reset := Table.at_of_le _ _ (Nat.le_of_not_lt h)

theorem discardEntries {s : State} (h : Sound s) : Sound s.discardEntries := by
  have hctx (k : Nat) : s.discardEntries.ctx k = if k < 8 then { s.ctx k with served := none, parked := none }
      else Ctx.reset := ctx_mapIdx s _ k
  have hstate (k : Nat) : (s.discardEntries.ctx k).state = (s.ctx k).state := by
    rw [hctx]
    split
    · rfl
    · next hk => rw [ctx_of_le s hk]
  refine h.recontext h.maps rfl rfl rfl rfl (fun k => ?_) (fun k => ?_) h.backed.waitsOnce
  · rw [hctx]
    split
    · exact Continues.emptied (.inr rfl) rfl (h.placed.entries k)
    · next hk =>
      have hent := h.placed.entries k
      rw [ctx_of_le s hk] at hent ⊢
      exact Continues.refl hent
  · rw [hstate]
    exact h.backed.waiting k

/-- A parked entry is cancelled (R110). -/
theorem unpark {s : State} (h : Sound s) (c : Nat) : Sound (s.modCtx c (fun x => { x with parked := none })) := by
  have hctx (k : Nat) : Continues (s.ctx k) ((s.modCtx c (fun x => { x with parked := none })).ctx k)
      ∧ ((s.modCtx c (fun x => { x with parked := none })).ctx k).state = (s.ctx k).state := by
    rw [State.ctx_modCtx]
    split
    · next hk =>
      rw [hk.1]
      exact ⟨Continues.emptied (.inl rfl) rfl (h.placed.entries c), rfl⟩
    · exact ⟨Continues.refl (h.placed.entries k), rfl⟩
  refine h.recontext ((Keeps.modCtx _ _ _).maps h.maps) rfl rfl rfl rfl (fun k => (hctx k).1) (fun k => ?_)
    h.backed.waitsOnce
  rw [(hctx k).2]
  exact h.backed.waiting k

/-- A context that no longer works, or waits for its circuit's return, through the reset of migration. -/
theorem Continues.resetMigration {x : Ctx} (h : x.ownEntries) (hst : x.state = .free ∨ x.state = .aborting) :
    Continues x x.resetMigration ∧ x.resetMigration.state ≠ .allocate := by
  unfold Ctx.resetMigration
  by_cases hf : x.state = .free
  · rw [if_pos hf]
    exact ⟨Continues.refl h, by rw [hf]; decide⟩
  have ha := hst.resolve_left hf
  rw [if_neg hf]
  by_cases hr : x.returnPending = true
  · rw [if_pos hr]
    refine ⟨⟨Iff.rfl, rfl, rfl, h, fun _ _ hfit => hfit⟩, ?_⟩
    show x.state ≠ _
    rw [ha]
    decide
  · rw [if_neg hr]
    have hidle : ¬ x.working := fun hw => hr (hw.2 ha)
    exact ⟨⟨iff_of_false (fun hw => hw.1 rfl) hidle, rfl, rfl, ⟨nofun, nofun⟩, fun hw => absurd hw hidle⟩, nofun⟩

theorem resetMigration {s : State} (h : Sound s) : Sound s.resetMigration := by
  have hrunning : s.discardEntries.running = s.running := by
    refine List.filter_congr fun c hc => ?_
    rw [State.ctx_discardEntries s c (by simpa [contextNumbers] using hc)]
  obtain ⟨hctx, -⟩ := State.foldl_abort (cs := s.running) (s := s.discardEntries) (List.nodup_range.filter _)
    (fun c hc => State.mem_running.1 (by rw [hrunning]; exact hc))
  have hsound := foldl (f := fun t c => State.abort t c .reset) (fun _ c ht => ht.abort c _ _) s.running h.discardEntries
  have key : s.resetMigration = (fun a : State => { a with
      queue := [], pool := { a.pool with waitList := [], waitCount := 0 }, peer := a.peer.resetMigration
      contexts := Table.mapIdx a.contexts (fun _ x => x.resetMigration) })
        (s.running.foldl (fun t c => t.abort c .reset) s.discardEntries) := rfl
  rw [key]
  generalize s.running.foldl (fun t c => t.abort c .reset) s.discardEntries = a at hctx hsound ⊢
  have hidle (k : Nat) : (a.ctx k).state = .free ∨ (a.ctx k).state = .aborting := by
    rw [hctx]
    split
    · refine .inr ?_
      unfold Ctx.aborted
      split <;> rfl
    · next hk =>
      rw [← hrunning, State.mem_running] at hk
      by_cases h8 : k < 8
      · by_contra hne
        exact hk ⟨h8, fun e => hne (.inl e), fun e => hne (.inr e)⟩
      · exact .inl (by rw [ctx_of_le _ h8]; rfl)
  have hemptied : Sound { a with queue := [] } := hsound.requeue List.nodup_nil nofun
  have hboth (k : Nat) := Continues.resetMigration (hsound.placed.entries k) (hidle k)
  obtain ⟨t, ht⟩ : ∃ t : State, t = { a with
      queue := [], pool := { a.pool with waitList := [], waitCount := 0 }, peer := a.peer.resetMigration
      contexts := Table.mapIdx a.contexts (fun _ x => x.resetMigration) } := ⟨_, rfl⟩
  have tx (k : Nat) : t.ctx k = if k < 8 then (a.ctx k).resetMigration else Ctx.reset := by
    rw [ht]
    exact ctx_mapIdx { a with queue := [] } (fun _ x => x.resetMigration) k
  have htx (k : Nat) : Continues (a.ctx k) (t.ctx k) ∧ (t.ctx k).state ≠ .allocate := by
    rw [tx]
    split
    · exact hboth k
    · next hk =>
      have hent := hsound.placed.entries k
      rw [ctx_of_le a hk] at hent ⊢
      exact ⟨Continues.refl hent, by decide⟩
  have tw : t.pool.waitList = [] := by rw [ht]
  show Sound { a with
      queue := [], pool := { a.pool with waitList := [], waitCount := 0 }, peer := a.peer.resetMigration
      contexts := Table.mapIdx a.contexts (fun _ x => x.resetMigration) }
  rw [← ht]
  refine hemptied.recontext (t := t) (by rw [ht]; exact hsound.maps) (by rw [ht]) (by rw [ht]) (by rw [ht])
    (by rw [ht]) (fun k => (htx k).1) (fun k => ?_) (by rw [tw]; exact List.nodup_nil)
  rw [tw]
  exact iff_of_false List.not_mem_nil (htx k).2

end Sound

end Sys2Proof.Machine
end

section
/-! The laws of circuits, contexts, queue and cells through the bodies of the commands, and through every row. -/

namespace Sys2Proof.Machine

namespace Sound

theorem groups {s : State} (h : Sound s) (gs : Vector Group 16) : Sound { s with groups := gs } :=
  h.elsewhere rfl rfl rfl rfl rfl rfl rfl

theorem setSignalling {s : State} (h : Sound s) (gs : List Nat) (m : SignallingSettings) :
    Sound (s.setSignalling gs m) :=
  foldl (f := fun t n => (t.modCircuit n (fun c => c.resignal m)).deriveCall n)
    (fun _ n ht => (ht.modCircuit rfl).deriveCall n) _ (h.groups _)

theorem clearLockout {s : State} (h : Sound s) (g : Nat) : Sound (s.clearLockout g) :=
  ((h.forget _).modGroup g _).restate g (.inr rfl) (.inl rfl)

theorem takeSpan {s : State} (h : Sound s) (x : Nat) (new : SpanState)
    (hfree : (s.span x).state ≠ new → ∀ n, n / 30 = x → (s.circuit n).state = .copper ∧ s.queued n = false) :
    Sound (s.takeSpan x new) :=
  ite (fun _ => h) (fun hne => h.moveSpan x new (hfree hne))

/-! ### Bodies -/

theorem ite_state {p : Prop} [Decidable p] {a b : Reply} (ha : p → Sound a.state) (hb : ¬ p → Sound b.state) :
    Sound (if p then a else b).state := by
  split
  · next hp => exact ha hp
  · next hp => exact hb hp

theorem done {t : State} {st : Status} {d : List Byte} (h : Sound t) : Sound (t.done st d).state := h

theorem bodyEquip {s : State} (h : Sound s) (n g k : Nat) : Sound (s.bodyEquip n g k).state := by
  unfold State.bodyEquip
  split
  · split
    · exact ite_state (fun _ => h) (fun _ => h.equip n g _)
    · exact h
  · exact h

theorem bodyUnequip {s : State} (h : Sound s) (n : Nat) : Sound (s.bodyUnequip n).state := by
  have hk := Keeps.bodyUnequip s n
  unfold State.bodyUnequip at hk ⊢
  split
  · next hn =>
    rw [if_pos hn] at hk
    split
    · exact h
    · next hfree =>
      rw [if_neg hfree] at hk
      simp only [Bool.or_eq_true, not_or, Bool.not_eq_true, bne_eq_false_iff_eq] at hfree
      obtain ⟨⟨-, hst⟩, hnot⟩ := hfree
      exact h.unequip (of_decide_eq_true hn) hst hnot hk
  · exact h

theorem bodySetClass {s : State} (h : Sound s) (n k : Nat) : Sound (s.bodySetClass n k).state := by
  unfold State.bodySetClass
  split
  · split
    · exact ite_state (fun _ => h) (fun _ => done (h.modCircuit rfl))
    · exact h
  · exact h

theorem regroup_core (c : Circuit) (g : Nat) (idle : Code) : (c.regroup g idle).core = c.core := by
  unfold Circuit.regroup
  split <;> rfl

theorem bodySetGroup {s : State} (h : Sound s) (n g : Nat) : Sound (s.bodySetGroup n g).state :=
  ite_state (fun _ => ite_state (fun _ => h) (fun _ => ite_state (fun _ => h)
    (fun _ => done (h.modCircuit (regroup_core _ _ _))))) (fun _ => h)

theorem bodySetHeld {s : State} (h : Sound s) (n : Nat) (b : Bool) : Sound (s.bodySetHeld n b).state :=
  ite_state (fun _ => done (h.modCircuit rfl)) (fun _ => h)

theorem bodySetFrozen {s : State} (h : Sound s) (x : Nat) (b : Bool) : Sound (s.bodySetFrozen x b).state := by
  unfold State.bodySetFrozen
  split
  · exact h.groups _
  · exact h

theorem bodySetMigration {s : State} (h : Sound s) (x p a i m w : Nat) :
    Sound (s.bodySetMigration x p a i m w).state := by
  unfold State.bodySetMigration
  split
  · exact h.groups _
  · exact h

theorem bodySetSignalling {s : State} (h : Sound s) (x i z a b zi ci c q : Nat) :
    Sound (s.bodySetSignalling x i z a b zi ci c q).state := by
  unfold State.bodySetSignalling
  split
  · exact ite_state (fun _ => h) (fun _ => h.setSignalling _ _)
  · exact h

theorem insert_inserted (b : Bool) : SpanState.inserted.insert b = some .inserted := by cases b <;> rfl

theorem bodyInsertSpan {s : State} (h : Sound s) (x m : Nat) : Sound (s.bodyInsertSpan x m).state := by
  unfold State.bodyInsertSpan
  split
  · split
    · split
      · next new hnew =>
        refine h.takeSpan x new fun hne => h.free_of_not_inserted fun hin => ?_
        rw [hin, insert_inserted] at hnew
        exact hne (hin.trans (Option.some.inj hnew))
      · exact h
    · exact h
  · exact h

theorem mem_circuitsOf {n x : Nat} (h : n / 30 = x) : n ∈ circuitsOf x := by
  simp only [circuitsOf, List.mem_map, List.mem_range]
  exact ⟨n % 30, Nat.mod_lt _ (by decide), by omega⟩

theorem bodyBypassSpan {s : State} (h : Sound s) (x m : Nat) : Sound (s.bodyBypassSpan x m).state := by
  unfold State.bodyBypassSpan
  split
  · split
    · split
      · exact h
      · next hheld =>
        split
        · refine h.takeSpan x _ fun _ n hn => ?_
          have hnot : ¬ s.holdsSpan _ n = true := fun hh => hheld (List.any_eq_true.2 ⟨n, mem_circuitsOf hn, hh⟩)
          simp only [State.holdsSpan, Bool.or_eq_true, not_or, Bool.not_eq_true, bne_eq_false_iff_eq] at hnot
          obtain ⟨⟨⟨hst, hq⟩, -⟩, -⟩ := hnot
          exact ⟨hst, hq⟩
        · exact h
    · exact h
  · exact h

theorem bodyCancelSpan {s : State} (h : Sound s) (x : Nat) : Sound (s.bodyCancelSpan x).state := by
  unfold State.bodyCancelSpan
  split
  · split
    · next old hold =>
      refine h.moveSpan x old (h.free_of_not_inserted fun hin => ?_)
      rw [hin] at hold
      exact nomatch hold
    · exact h
  · exact h

theorem stage {s : State} (h : Sound s) (e : Edit) (he : e.inRange) : Sound (s.stage e).state := by
  unfold State.stage
  split
  · refine h.same ?_ (fun _ => rfl) (fun _ => rfl) rfl (fun _ => rfl) rfl rfl
    obtain ⟨h1, h2, h3, h4⟩ := h.maps
    refine ⟨h1, h2, h3, fun y hy => ?_⟩
    obtain hold | hnew := List.mem_append.1 hy
    · exact h4 y hold
    · rw [List.mem_singleton.1 hnew]
      cases e <;> exact he
  · exact h

theorem requestRefused_none {s : State} {n : Nat} {d : Direction} (hr : s.requestRefused n d = none) :
    (s.circuit n).equipped = true ∧ (s.span (n / 30)).state = .inserted ∧ s.queued n = false
      ∧ (s.circuit n).context = none ∧ d.admits (s.circuit n).state = true
      ∧ (d = .toFibre → (s.circuit n).slot ≠ none) := by
  unfold State.requestRefused at hr
  dsimp only at hr
  split_ifs at hr with h1 h2 h3 h4 h5
  obtain ⟨he, hspan⟩ := not_not.1 (mt (s.notReady_iff n).2 h1)
  simp only [Bool.or_eq_true, not_or, Bool.not_eq_true, Option.isSome_eq_false_iff, Option.isNone_iff_eq_none] at h2
  refine ⟨he, hspan, h2.1, h2.2, by simpa using h3, fun hd hslot => h4 ?_⟩
  rw [hd, hslot]
  rfl

theorem bodyRequest {s : State} (h : Sound s) (n d : Nat) : Sound (s.bodyRequest n d).state := by
  unfold State.bodyRequest
  split
  · split
    · next d' _ =>
      split
      · exact h
      · next hr =>
        obtain ⟨he, hspan, hnot, hctx, hadm, hslot⟩ := requestRefused_none hr
        have hplace : (s.circuit n).slot ≠ none := by
          obtain ⟨hd, -⟩ | ⟨-, hst⟩ := (Direction.admits_iff d' _).1 hadm
          · exact hslot hd
          · exact (h.placed.away n (.inl (by rw [hst]; decide))).2.1
        exact h.enqueue (s.newEntry n d') hnot ⟨he, hplace, hspan, hctx⟩
    · exact h
  · exact h

theorem bodyCancelRequest {s : State} (h : Sound s) (n : Nat) : Sound (s.bodyCancelRequest n).state := by
  unfold State.bodyCancelRequest
  split
  · split
    · exact h.dequeue _
    · split
      · exact h.unpark _
      · exact h
  · exact h

theorem bodyAbortContext {s : State} (h : Sound s) (c : Nat) : Sound (s.bodyAbortContext c).state := by
  unfold State.bodyAbortContext
  dsimp only
  exact ite_state (fun _ => ite_state (fun _ => h) (fun _ => ite_state (fun _ => h) (fun _ => h.abort c _ _)))
    (fun _ => h)

theorem bodySetAdmission {s : State} (h : Sound s) (a b x y : Nat) : Sound (s.bodySetAdmission a b x y).state := by
  unfold State.bodySetAdmission
  split
  · exact h.elsewhere rfl rfl rfl rfl rfl rfl rfl
  · exact h

theorem bodySetFaultPolicy {s : State} (h : Sound s) (k x e a : Nat) : Sound (s.bodySetFaultPolicy k x e a).state := by
  unfold State.bodySetFaultPolicy
  split
  · split
    · exact ite_state (fun _ => foldl (f := fun t x => State.setPolicy t _ _ _ x)
        (fun _ x ht => ht.setPolicy _ _ _ x) _ h) (fun _ => h)
    · exact h
  · exact h

theorem bodyClearFault {s : State} (h : Sound s) (k x : Nat) : Sound (s.bodyClearFault k x).state := by
  unfold State.bodyClearFault
  split
  · split
    · exact foldl (f := fun t x => State.acknowledge t _ x)
        (fun _ x ht => ite (fun _ => ht) (fun _ => ht.setFault _ x _)) _ h
    · exact h
  · exact h

theorem bodyClearLockout {s : State} (h : Sound s) (x : Nat) : Sound (s.bodyClearLockout x).state := by
  unfold State.bodyClearLockout
  split
  · exact foldl (fun _ g ht => ht.clearLockout g) _ h
  · exact h

theorem bodyCommit {s : State} (h : Sound s) (n : Nat) : Sound (s.bodyCommit n).state := by
  refine ite_state (fun _ => ite_state (fun _ => h) (fun hst => ?_)) (fun _ => h)
  simp only [Bool.or_eq_true, not_or, Bool.not_eq_true, bne_eq_false_iff_eq] at hst
  exact (h.commit hst.1 (.inl rfl) (.inr rfl)).recondition n

theorem bodyUncommit {s : State} (h : Sound s) (n : Nat) : Sound (s.bodyUncommit n).state := by
  refine ite_state (fun _ => ite_state (fun _ => h) (fun hst => ?_)) (fun _ => h)
  simp only [Bool.not_eq_true, bne_eq_false_iff_eq] at hst
  exact (h.commit hst (.inr rfl) (.inl rfl)).recondition n

theorem bodyReadCounters {s : State} (h : Sound s) (x : Nat) : Sound (s.bodyReadCounters x).state := by
  unfold State.bodyReadCounters
  split
  · exact h.elsewhere rfl rfl rfl rfl rfl rfl rfl
  · exact h
  · exact h

theorem bodySetNoticeLevels {s : State} (h : Sound s) (l : Link) (ns : List Nat) (n : Nat) :
    Sound (s.bodySetNoticeLevels l ns n).state := by
  unfold State.bodySetNoticeLevels
  split
  · exact done (h.modLink l _)
  · exact h

/-- The body of every command that changes something. -/
theorem body : ∀ {i l role body}, commandBody i = some (l, role, body) → reads i = false → ∀ s, Sound s →
    Sound (body s).state
  | .equip .., _, _, _, rfl, _, _, h => h.bodyEquip _ _ _
  | .unequip .., _, _, _, rfl, _, _, h => h.bodyUnequip _
  | .setClass .., _, _, _, rfl, _, _, h => h.bodySetClass _ _
  | .setGroup .., _, _, _, rfl, _, _, h => h.bodySetGroup _ _
  | .hold .., _, _, _, rfl, _, _, h => h.bodySetHeld _ _
  | .unhold .., _, _, _, rfl, _, _, h => h.bodySetHeld _ _
  | .freeze .., _, _, _, rfl, _, _, h => h.bodySetFrozen _ _
  | .thaw .., _, _, _, rfl, _, _, h => h.bodySetFrozen _ _
  | .setMigration .., _, _, _, rfl, _, _, h => h.bodySetMigration _ _ _ _ _ _
  | .setSignalling .., _, _, _, rfl, _, _, h => h.bodySetSignalling _ _ _ _ _ _ _ _ _
  | .insertSpan .., _, _, _, rfl, _, _, h => h.bodyInsertSpan _ _
  | .bypassSpan .., _, _, _, rfl, _, _, h => h.bodyBypassSpan _ _
  | .cancelSpan .., _, _, _, rfl, _, _, h => h.bodyCancelSpan _
  | .setFibreThreshold .., _, _, _, rfl, _, _, h => h.port _
  | .stageAssign .., _, _, _, rfl, _, _, h =>
      ite_state (fun hr => h.stage _ ⟨hr.1, of_decide_eq_true hr.2⟩) (fun _ => h)
  | .stageRelease .., _, _, _, rfl, _, _, h => ite_state (fun hr => h.stage _ hr) (fun _ => h)
  | .discardStaging .., _, _, _, rfl, _, _, h => h.map rfl (.inr rfl)
  | .setAlignment .., _, _, _, rfl, _, _, h => h.elsewhere rfl rfl rfl rfl rfl rfl rfl
  | .request .., _, _, _, rfl, _, _, h => h.bodyRequest _ _
  | .cancelRequest .., _, _, _, rfl, _, _, h => h.bodyCancelRequest _
  | .setAdmission .., _, _, _, rfl, _, _, h => h.bodySetAdmission _ _ _ _
  | .abortContext .., _, _, _, rfl, _, _, h => h.bodyAbortContext _
  | .resetMigration .., _, _, _, rfl, _, _, h => h.resetMigration
  | .setPeerSilentTime .., _, _, _, rfl, _, _, h => (h.peer _).declareSilentIfDue
  | .setFaultPolicy .., _, _, _, rfl, _, _, h => h.bodySetFaultPolicy _ _ _ _
  | .clearFault .., _, _, _, rfl, _, _, h => h.bodyClearFault _ _
  | .clearLockout .., _, _, _, rfl, _, _, h => h.bodyClearLockout _
  | .commit .., _, _, _, rfl, _, _, h => h.bodyCommit _
  | .uncommit .., _, _, _, rfl, _, _, h => h.bodyUncommit _
  | .readCounters .., _, _, _, rfl, _, _, h => h.bodyReadCounters _
  | .takeNotices .., _, _, _, rfl, _, _, h => ite_state (fun _ => h) (fun _ => done (h.modLink _ _))
  | .setNoticeLevels .., _, _, _, rfl, _, _, h => h.bodySetNoticeLevels _ _ _

/-! ### Every row -/

theorem carried : Carried (fun s t => Sound s → Sound t) where
  refl _ := id
  trans h k := k ∘ h
  settle _ h := h.settle
  serviceAll _ h := h.serviceAll
  completeIfDue _ c h := h.completeIfDue c
  startIfDue _ c h := h.startIfDue c
  measureIfDue _ c h := h.measureIfDue c
  markerTimeoutIfDue _ c h := h.markerTimeoutIfDue c
  ageOut _ x h := h.ageOut x
  declareSilentIfDue _ h := h.declareSilentIfDue
  declareMarkerLoss _ x h := h.declareMarkerLoss x
  receiveCopper _ side x p b ss cs h := h.receiveCopper side x p b ss cs
  receiveCarriage _ p b h := h.receiveCarriage p b
  perform _ e h := h.perform e
  change := body
  answer _ l _ _ h := h.modLink l _
  onLink := fun {_ l _} _ _ _ _ h => h.modLink l _
  forget _ e h := h.forget e
  raise _ e h := h.raise e
  pendApply _ _ _ h := h.map rfl (.inl rfl)

end Sound

end Sys2Proof.Machine
end

section
/-! The laws of circuits, contexts, queue and cells through frames and boundaries, and at every step. -/

namespace Sys2Proof.Machine

namespace Sound

/-! ### Frames and boundaries -/

theorem span_mapIdx (s : State) (f : Nat → Span → Span) (x : Nat) : State.span { s with spans := Table.mapIdx s.spans f } x
    = if x < 16 then f x (s.span x) else Span.reset := by
  split
  · next hx => exact Table.at_mapIdx _ _ _ _ hx
  · next hx => exact Table.at_of_le _ _ (Nat.le_of_not_lt hx)

/-- Spans changed all at once, each keeping its state. -/
theorem mapSpans {s : State} (h : Sound s) {f : Nat → Span → Span} (hf : ∀ x y, (f x y).state = y.state) :
    Sound { s with spans := Table.mapIdx s.spans f } := by
  refine h.same h.maps (fun _ => rfl) (fun _ => rfl) rfl (fun x => ?_) rfl rfl
  rw [span_mapIdx]
  split
  · exact hf x _
  · next hx => exact congrArg Span.state (Table.at_of_le _ _ (Nat.le_of_not_lt hx)).symm

/-- Circuits changed all at once in what the laws do not read. -/
theorem mapCircuits {s : State} (h : Sound s) {f : Nat → Circuit → Circuit} (hf : ∀ n c, (f n c).core = c.core) :
    Sound { s with circuits := Table.mapIdx s.circuits f } := by
  have hcore (m : Nat) : (State.circuit { s with circuits := Table.mapIdx s.circuits f } m).core = (s.circuit m).core := by
    by_cases hm : m < 480
    · have hat : Table.at (Table.mapIdx s.circuits f) Circuit.reset m = f m (s.circuit m) := Table.at_mapIdx _ _ _ _ hm
      exact (congrArg Circuit.core hat).trans (hf m _)
    · have hle := Nat.le_of_not_lt hm
      exact congrArg Circuit.core ((Table.at_of_le _ _ hle).trans (Table.at_of_le _ _ hle).symm)
  refine h.same (Keeps.maps_of (s := s) rfl rfl (fun m => ?_) h.maps) hcore (fun _ => rfl) rfl (fun _ => rfl) rfl rfl
  have hslot := hcore m
  simp only [Circuit.core, Prod.mk.injEq] at hslot
  obtain ⟨-, -, -, -, -, hslot, -⟩ := hslot
  exact hslot

theorem length_deliverLine (l : List (Option Byte)) (quiet arriving : Byte) :
    (deliverLine l quiet arriving).2.length = l.length := by
  cases l with
  | nil => rfl
  | cons x rest => rw [deliverLine_cons, List.length_append, List.length_singleton, List.length_cons]

theorem deliver_core (c : Circuit) (quiet copper fibre : Byte) : (c.deliver quiet copper fibre).core = c.core := by
  simp only [Circuit.core, Circuit.deliver, length_deliverLine]

theorem deliverAll {s : State} (h : Sound s) : Sound s.deliverAll := h.mapCircuits fun _ c => deliver_core c _ _ _

theorem sendFrames {s : State} (h : Sound s) : Sound s.sendFrames := by
  have h1 := h.deliverAll
  unfold State.sendFrames
  dsimp only
  generalize s.deliverAll = t at h1 ⊢
  exact h1.elsewhere rfl rfl rfl rfl rfl rfl rfl

theorem tickFrame_core (x : Ctx) : x.tickFrame.core = x.core := by
  unfold Ctx.tickFrame
  split <;> rfl

theorem nextFrame {s : State} (h : Sound s) : Sound s.nextFrame := by
  have h1 := (h.mapSpans (f := fun _ x => x.tickFrame) (fun _ _ => rfl)).mapCtxs (f := fun _ x => x.tickFrame)
    (fun _ x => tickFrame_core x)
  exact Sound.elsewhere h1 rfl rfl rfl rfl rfl rfl rfl

theorem tickWork {s : State} (h : Sound s) : Sound s.tickWork := by
  have h1 := h.mapCtxs (f := fun _ x => x.tick) (fun _ _ => rfl)
  refine h1.same h1.maps (fun _ => rfl) (fun _ => rfl) rfl (fun _ => rfl) ?_ ?_
  · show s.pool.tick.free = s.pool.free
    unfold Pool.tick
    split <;> rfl
  · show s.pool.tick.waitList = s.pool.waitList
    unfold Pool.tick
    split <;> rfl

theorem takeBoundary {s : State} (h : Sound s) (before : List BoundaryEvent) : Sound (s.takeBoundary before) := by
  obtain ⟨u, hu⟩ : ∃ u, u = ((before.foldl State.perform s.openBoundary.tickWork).settle).supervise := ⟨_, rfl⟩
  have ht : s.takeBoundary before = { u.tickPorts with
      owed := admissionLast (u.owed ++ u.tickPorts.lateEvents s.abortingContexts) } := by
    unfold State.takeBoundary
    dsimp only
    rw [← hu]
    rfl
  have hopen : Sound s.openBoundary := h.elsewhere rfl rfl rfl rfl rfl rfl rfl
  have hsound : Sound u := by
    rw [hu]
    exact (foldl (f := State.perform) (fun _ e ht => ht.perform e) before hopen.tickWork).settle.supervise
  clear hu
  rw [ht]
  exact hsound.elsewhere rfl rfl rfl rfl rfl rfl rfl

theorem boundary {s : State} (h : Sound s) (before : List BoundaryEvent) : Sound (s.boundary before) :=
  ite (fun _ => h.takeBoundary before) (fun _ => h)

theorem takeFrameEvents {s : State} (h : Sound s) : Sound s.takeFrameEvents := by
  have h0 : Sound s.missMarkers := h.mapSpans fun _ x => (Keeps.missMarker_state x _).1
  unfold State.takeFrameEvents
  generalize List.range 16 = spans
  generalize contextNumbers = numbers
  have h1 := foldl (f := fun t x => (State.declareMarkerLoss t x).settle) (fun _ x ht => (ht.declareMarkerLoss x).settle)
    spans h0
  have h2 := foldl (f := fun t c => (State.markerTimeoutIfDue t c).settle) (fun _ c ht => (ht.markerTimeoutIfDue c).settle)
    numbers h1
  exact foldl (f := fun t x => (State.ageOut t x).settle) (fun _ x ht => (ht.ageOut x).settle) _ h2

theorem takeOwedEvents {s : State} (h : Sound s) : Sound s.takeOwedEvents := by
  have h1 := foldl (f := State.perform) (fun _ e ht => ht.perform e) s.owed h
  exact (foldl (f := State.perform) (fun _ e ht => ht.perform e) _ h1).owe []

theorem closeFrame {s : State} (h : Sound s) : Sound s.closeFrame :=
  ((carried.settleLink _ .b (carried.settleLink s .a h)).settle.boundary []).takeOwedEvents.settle.takeFrameEvents

/-! ### A step -/

theorem row {i : Instr} {s t : State} (h : Sound s) (ht : exec i s = .next t) (hr : ∀ c a b w, i ≠ .coldReset c a b w)
    (hp : i ≠ .powerOff) : Sound t := by
  by_cases hf : i = .frame
  · subst hf
    cases ht
    exact h.event fun _ hu => hu.closeFrame.sendFrames.nextFrame
  · by_cases hb : ∃ es, i = .superframeBoundary es
    · obtain ⟨es, rfl⟩ := hb
      cases ht
      exact h.event fun _ hu => hu.boundary es
    · exact carried.row ht hr hp hf (fun es he => hb ⟨es, he⟩) h

end Sound

/-- A cold reset leaves the laws of migration. -/
theorem State.coldReset_migrationLawful (s : State) (c : ResetCause) (a b w : Nat) :
    (s.coldReset c a b w).migrationLawful := fun _ => by
  obtain ⟨-, -, hagree, hrange, -, -, -, -, -, hlaw⟩ := lawsHoldAfterReset
  obtain ⟨hp, hb⟩ := hlaw rfl
  have hreset : Sound State.reset := ⟨hp, hb, hagree, hrange⟩
  have hcold : Sound (s.coldReset c a b w) := hreset.elsewhere rfl rfl rfl rfl rfl rfl rfl
  exact ⟨hcold.placed, hcold.backed⟩

/-- Every step keeps the laws of migration. -/
theorem State.step_migrationLawful {s t : State} (hagree : s.mapAgrees) (hrange : s.mapInRange)
    (hlaw : s.migrationLawful) (h : step s = .next t) : t.migrationLawful := by
  unfold step at h
  split at h
  · cases h; exact hlaw
  · next i rest _ =>
    by_cases hr : ∃ c a b w, i = .coldReset c a b w
    · obtain ⟨c, a, b, w, rfl⟩ := hr
      cases h
      exact State.coldReset_migrationLawful _ c a b w
    · have hne := fun c a b w e => hr ⟨c, a, b, w, e⟩
      by_cases hp : i = .powerOff
      · subst hp; cases h; exact fun hpow => nomatch hpow
      · intro hpow
        have hs : s.powered = true := (Keeps.row h hne hp).power.symm.trans hpow
        obtain ⟨hplaced, hbacked⟩ := hlaw hs
        have hsound : Sound s := ⟨hplaced, hbacked, hagree, hrange⟩
        have hqueued : Sound { s with pending := rest } := hsound.elsewhere rfl rfl rfl rfl rfl rfl rfl
        have ht := hqueued.row h hne hp
        exact ⟨ht.placed, ht.backed⟩

end Sys2Proof.Machine
end

section
/-! The events that move cells keep their sum (R99), and O32. -/

namespace Sys2Proof.Machine

namespace State

/-! ### Sums of cells -/

/-- Where one circuit and one context change their cells, the sum is that of what they and the pool hold. -/
theorem totalCells_balance {s t : State} {n c : Nat} (hn : n < 480) (hc : c < 8)
    (hcircuits : ∀ m, m ≠ n → (t.circuit m).cellsHeld = (s.circuit m).cellsHeld)
    (hctx : ∀ k, k ≠ c → (t.ctx k).cells = (s.ctx k).cells)
    (hsum : t.pool.free + (t.circuit n).cellsHeld + (t.ctx c).cells
      = s.pool.free + (s.circuit n).cellsHeld + (s.ctx c).cells) : t.totalCells = s.totalCells := by
  rw [totalCells_eq, totalCells_eq]
  have hcirc := sumOf_change (f := fun m => (t.circuit m).cellsHeld) (g := fun m => (s.circuit m).cellsHeld) hcircuits 480 hn
  have hcells := sumOf_change (f := fun k => (t.ctx k).cells) (g := fun k => (s.ctx k).cells) hctx 8 hc
  omega

/-- A circuit, a context and a return of cells to the pool. -/
theorem totalCells_settled (s : State) {n c : Nat} (hn : n < 480) (hc : c < 8) {f : Circuit → Circuit} {g : Ctx → Ctx}
    {k : Nat} (hsum : k + (f (s.circuit n)).cellsHeld + (g (s.ctx c)).cells = (s.circuit n).cellsHeld + (s.ctx c).cells) :
    (((s.modCircuit n f).modCtx c g).returnCells k).totalCells = s.totalCells := by
  refine totalCells_balance hn hc (fun m hm => ?_) (fun k hk => ?_) ?_
  · rw [circuit_returnCells, circuit_modCtx, circuit_modCircuit, if_neg (fun e => hm e.1)]
  · rw [ctx_returnCells, ctx_modCtx, if_neg (fun e => hk e.1), ctx_modCircuit]
  · rw [circuit_returnCells, circuit_modCtx, circuit_modCircuit_same _ hn, ctx_returnCells, ctx_modCtx_same _ hc,
      ctx_modCircuit]
    show s.pool.free + k + (f (s.circuit n)).cellsHeld + (g (s.ctx c)).cells = _
    omega

theorem ctx_settled (s : State) (n : Nat) {c : Nat} (hc : c < 8) (f : Circuit → Circuit) (g : Ctx → Ctx) (k : Nat) :
    (((s.modCircuit n f).modCtx c g).returnCells k).ctx c = g (s.ctx c) := by
  rw [ctx_returnCells, ctx_modCtx_same _ hc, ctx_modCircuit]

/-- A circuit and a return of cells to the pool. -/
theorem totalCells_returned (s : State) {n : Nat} (hn : n < 480) {f : Circuit → Circuit} {k : Nat}
    (hsum : k + (f (s.circuit n)).cellsHeld = (s.circuit n).cellsHeld) :
    ((s.modCircuit n f).returnCells k).totalCells = s.totalCells := by
  refine totalCells_balance (c := 0) hn (by decide) (fun m hm => ?_) (fun _ _ => rfl) ?_
  · rw [circuit_returnCells, circuit_modCircuit, if_neg (fun e => hm e.1)]
  · rw [circuit_returnCells, circuit_modCircuit_same _ hn]
    show s.pool.free + k + (f (s.circuit n)).cellsHeld + (s.ctx 0).cells = _
    omega

/-! ### The events that move cells -/

theorem circuit_enterReady (s : State) (c n : Nat) : (s.enterReady c).circuit n = s.circuit n := rfl

theorem ctx_enterReady (s : State) (c k : Nat) : (s.enterReady c).ctx k = (s.modCtx c Sound.readied).ctx k := rfl

theorem cells_modCtx (s : State) (c k : Nat) {f : Ctx → Ctx} (hf : ∀ x, (f x).cells = x.cells) :
    ((s.modCtx c f).ctx k).cells = (s.ctx k).cells := by
  rw [ctx_modCtx]
  split
  · next hk => rw [hf, hk.1]
  · rfl

theorem cells_payHead (s : State) {c : Nat} (hc : c < 8) (k : Nat) :
    ((s.payHead c).ctx k).cells = if k = c then (s.ctx c).need else (s.ctx k).cells := by
  refine (congrArg Ctx.cells (ctx_modCtx _ c k _)).trans ?_
  split
  · next hk => rw [if_pos hk.1]
  · next hk =>
    rw [if_neg (fun e => hk ⟨e, hc⟩)]
    rfl

theorem cellsHeld_presetOn (d : Circuit) (p : Path) (k : Nat) : (d.presetOn p k).cellsHeld = d.cellsHeld := by
  cases p <;> rfl

/-- A service moves the head's need from the pool to the head. -/
theorem totalCells_serve (s : State) {c : Nat} (hc : c < 8) (hcells : (s.ctx c).cells = 0)
    (hneed : (s.ctx c).need ≤ s.pool.free) : (s.serve c).totalCells = s.totalCells := by
  have hcirc (m : Nat) : ((s.serve c).circuit m).cellsHeld = (s.circuit m).cellsHeld := by
    rw [serve_eq]
    split
    · rw [circuit_enterReady, circuit_modCircuit]
      split
      · next hm => rw [cellsHeld_presetOn, hm.1]; rfl
      · rfl
    · rfl
  have hctx (k : Nat) : ((s.serve c).ctx k).cells = if k = c then (s.ctx c).need else (s.ctx k).cells := by
    rw [serve_eq]
    split
    · rw [ctx_enterReady, cells_modCtx, ctx_modCircuit, s.cells_payHead hc]
      exact fun _ => rfl
    · rw [cells_modCtx, s.cells_payHead hc]
      exact fun _ => rfl
  have hfree : (s.serve c).pool.free + (s.ctx c).need = s.pool.free := by
    rw [serve_eq]
    split <;> exact Nat.sub_add_cancel hneed
  refine totalCells_balance (n := 0) (by decide) hc (fun m _ => hcirc m) (fun k hk => by rw [hctx, if_neg hk]) ?_
  rw [hcirc, hctx, if_pos rfl, hcells]
  omega

/-- A slip returns one cell, and the last one of a residual all three that are left. -/
theorem totalCells_walkSlip (s : State) {n : Nat} (hn : n < 480) (hres : 0 < (s.circuit n).residual)
    (hheld : (s.circuit n).cellsHeld = (s.circuit n).residual + 2) :
    (s.walkSlip n).totalCells = s.totalCells
    ∧ ((s.walkSlip n).circuit n).cellsHeld = if (s.circuit n).residual = 1 then 0 else (s.circuit n).residual + 1 := by
  obtain ⟨back, hback⟩ : ∃ back, back = if (s.circuit n).residual = 1 then (s.circuit n).cellsHeld else 1 := ⟨_, rfl⟩
  have htotal : (Sound.slip s n back).totalCells = s.totalCells ∧ (Sound.slip s n back).circuit n
      = Sound.slipped back (s.circuit n) := by
    refine ⟨totalCells_returned s hn ?_, circuit_modCircuit_same s hn _⟩
    show back + ((s.circuit n).cellsHeld - back) = _
    rw [hback]
    split <;> omega
  have hslip : (s.walkSlip n).totalCells = (Sound.slip s n back).totalCells
      ∧ (s.walkSlip n).circuit n = (Sound.slip s n back).circuit n := by
    have key : s.walkSlip n = if (s.circuit n).residual = 1 then (Sound.slip s n back).raise {
        cls := .walkDone, subject := some (.circuit n), cause := none, value := valueOf back }
      else Sound.slip s n back := by rw [hback]; rfl
    rw [key]
    split <;> exact ⟨rfl, rfl⟩
  rw [hslip.1, hslip.2, htotal.1, htotal.2]
  refine ⟨rfl, ?_⟩
  show (s.circuit n).cellsHeld - back = _
  rw [hback]
  split <;> omega

theorem totalCells_dropResidual (s : State) {n : Nat} (hn : n < 480) :
    (s.dropResidual n).totalCells = s.totalCells ∧ ((s.dropResidual n).circuit n).cellsHeld = 0 := by
  refine ⟨totalCells_returned s hn (Nat.add_zero _), ?_⟩
  unfold dropResidual
  rw [circuit_returnCells, circuit_modCircuit_same s hn]

/-- A switch gives the context's cells to the circuit or back to the pool. -/
theorem totalCells_switch (s : State) {n c : Nat} (hn : n < 480) (hc : c < 8) (hname : (s.ctx c).circuit = n)
    (hheld : (s.circuit n).cellsHeld = 0) :
    (s.busySwitch c).totalCells = s.totalCells ∧ ((s.busySwitch c).ctx c).cells = 0
    ∧ (s.idleSwitch c).totalCells = s.totalCells ∧ ((s.idleSwitch c).ctx c).cells = 0 := by
  subst hname
  have hbusy : (s.busySwitch c).totalCells = s.totalCells ∧ ((s.busySwitch c).ctx c).cells = 0 := by
    unfold busySwitch
    dsimp only
    split
    · have key := totalCells_settled s hn hc (k := 0) (f := fun d => { d with
          residual := ((s.ctx c).lead.getD 0).toNat, residualPath := (s.ctx c).direction.targetPath,
          cellsHeld := (s.ctx c).cells }) (g := fun x => { x with cells := 0 }) (by
        show 0 + (s.ctx c).cells + 0 = _
        omega)
      refine ⟨key, ?_⟩
      rw [ctx_modCtx_same _ hc]
    · refine ⟨totalCells_settled s hn hc ?_, congrArg Ctx.cells (ctx_settled s _ hc _ _ _)⟩
      show (s.ctx c).cells + ((s.circuit (s.ctx c).circuit).dropOn _).cellsHeld + 0 = _
      obtain ⟨-, -, -, -, -, -, hsame⟩ := same_dropOn (s.circuit (s.ctx c).circuit) (s.ctx c).direction.currentPath
      rw [hsame]
      omega
  refine ⟨hbusy.1, hbusy.2, ?_, congrArg Ctx.cells (ctx_settled s _ hc _ _ _)⟩
  refine totalCells_settled s hn hc ?_
  show (s.ctx c).cells + (s.circuit (s.ctx c).circuit).cellsHeld + 0 = _
  omega

/-- The end of a context before its switch leaves a busy circuit its delay with its cells, and returns the rest. -/
theorem totalCells_settleUnswitched (s : State) {n c : Nat} (hn : n < 480) (hc : c < 8) (hname : (s.ctx c).circuit = n)
    (hheld : (s.circuit n).cellsHeld = 0) (hback : (s.circuit n).delay (s.ctx c).direction.currentPath = 0
      ∨ (s.circuit n).delay (s.ctx c).direction.currentPath + 2 ≤ (s.ctx c).cells) :
    (s.settleUnswitched c).totalCells = s.totalCells ∧ ((s.settleUnswitched c).ctx c).cells = 0 := by
  subst hname
  unfold settleUnswitched
  dsimp only
  split
  · refine ⟨totalCells_settled s hn hc ?_, congrArg Ctx.cells (ctx_settled s _ hc _ _ _)⟩
    show (s.ctx c).cells + (s.circuit (s.ctx c).circuit).cellsHeld + 0 = _
    omega
  · next hdelay =>
    refine ⟨totalCells_settled s hn hc ?_, congrArg Ctx.cells (ctx_settled s _ hc _ _ _)⟩
    have hne := fun e => hdelay (.inl e)
    show _ + ((s.circuit (s.ctx c).circuit).delay (s.ctx c).direction.currentPath + 2) + 0 = _
    obtain hzero | hle := hback
    · exact absurd hzero hne
    · omega

theorem totalCells_settleAll (s : State) {n c : Nat} (hn : n < 480) (hc : c < 8) (hname : (s.ctx c).circuit = n) :
    (s.settleAll c).totalCells = s.totalCells ∧ ((s.settleAll c).ctx c).cells = 0
    ∧ ((s.settleAll c).circuit n).cellsHeld = 0 := by
  subst hname
  unfold settleAll
  dsimp only
  refine ⟨totalCells_settled s hn hc ?_, congrArg Ctx.cells (ctx_settled s _ hc _ _ _), ?_⟩
  · show (s.ctx c).cells + (s.circuit (s.ctx c).circuit).cellsHeld + 0 + 0 = _
    omega
  · rw [circuit_returnCells, circuit_modCtx, circuit_modCircuit_same s hn]

end State

/-- Settles O32: the laws through every operation (`Sound`), and the sum by the circuit and the context that change. -/
theorem cellMovesBalance : Obligations.CellMovesBalance :=
  ⟨fun _ _ hagree hrange hlaw h => State.step_migrationLawful hagree hrange hlaw h, fun _ _ s hn hc =>
    ⟨fun _ _ hcells hneed => s.totalCells_serve hc hcells hneed, fun hres hheld => s.totalCells_walkSlip hn hres hheld,
      s.totalCells_dropResidual hn, fun hname hheld => s.totalCells_switch hn hc hname hheld,
      fun hname hheld hback => s.totalCells_settleUnswitched hn hc hname hheld hback,
      fun hname => s.totalCells_settleAll hn hc hname⟩⟩

end Sys2Proof.Machine
end
